-- ==== Sys2Proof/Word.lean ====
section
/-! DEFINITION. The word types of the module, the unit numbers that bound its arrays, and the plainest arithmetic on
them (spec/00 R7, spec/01, spec/04 R98). -/

namespace Sys2Proof

/-- One byte of memory. -/
abbrev Byte := BitVec 8
/-- A 32-bit word: a tile register, a register of control space, an instruction word (spec/03 R65, R92). -/
abbrev Word := BitVec 32
/-- A 64-bit word: a device-address field, a wide counter (spec/01 R34). -/
abbrev DWord := BitVec 64

/-- A register number s0 to s31 (spec/03 R65). -/
abbrev Reg := Fin 32
/-- A remote-write window number (spec/03 R85). -/
abbrev Win := Fin 8
/-- A Frecel link number (spec/01 R25). -/
abbrev LinkId := Fin 96
/-- An HBM stack, and the number of its controller and its Kudu (spec/01 R25). -/
abbrev Stack := Fin 16
/-- A DDR channel and its DIMM socket (spec/01 R25). -/
abbrev Channel := Fin 16
/-- A mailbox: 0 for the module, m for partition m (spec/16 R426). -/
abbrev MailboxId := Fin 17

/-- The word of a Nat, modulo 2^32. -/
def word (n : Nat) : Word := BitVec.ofNat 32 n
/-- A truth value as a register value: 1 or 0 (spec/04 Table 4-4). -/
def Word.ofBool (b : Bool) : Word := if b then 1 else 0

end Sys2Proof
end

