-- ==== Sys2Proof/Machine/EventTypes.lean ====
section
/-! DEFINITION. The types of the commands' operands that are not numbers or words. -/

namespace Sys2Proof.Machine

/-- What a controller finds when it performs a block access (R327 to R329). -/
inductive Dram where
  /-- The block is sound. -/
  | ok
  /-- An error was corrected and written back. -/
  | corrected
  /-- The error cannot be corrected. -/
  | uncorrectable
  /-- A write's block fails its CRC check. -/
  | crcFail
  deriving DecidableEq, Repr

/-- What one of a Kudu's own accesses to its stack meets (R327 to R329): the block's device address, how often in a row it
fails its check, and what the controller finds at it. -/
structure StackHit where
  addr : Nat
  fails : Nat := 0
  found : Dram := .ok
  deriving DecidableEq, Repr

/-- The hottest junction sensor of a quad domain, in 0.125 °C (R500). -/
structure QuadTemp where
  quad : Nat
  junction : Int
  deriving DecidableEq, Repr

/-- The temperature of an HBM stack, in 0.125 °C (R500). -/
structure StackTemp where
  stack : Nat
  temp : Int
  deriving DecidableEq, Repr

/-- The lowest slack that a quad's monitors report at the step in force, in 0.01% (R502). -/
structure SlackReading where
  quad : Nat
  slack : Nat
  deriving DecidableEq, Repr

/-- A ledger term that does not hold of the latched values (R489): its code, the unit, the expected value and the value
found, and the job to whose program it is due, where it is excluded as a program error (R491). -/
structure LedgerFinding where
  term : Nat
  unit : Nat
  expected : Nat
  found : Nat
  program : Option Nat := none
  deriving DecidableEq, Repr

/-- What boot finds in a DIMM socket (R323, R535): its channel, whether a DIMM is fitted, what its SPD says of the
properties of Table 12-4, and whether the channel then trains. -/
structure DimmReport where
  channel : Nat
  fitted : Bool := true
  /-- A DDR5 registered DIMM, neither load-reduced nor multiplexed-rank nor non-volatile. -/
  registered : Bool := true
  /-- ECC, in two 40-bit subchannels. -/
  ecc : Bool := true
  /-- Speed grade in MT/s. -/
  speed : Nat := 6400
  /-- Capacity in GiB. -/
  gib : Nat := 0
  ranks : Nat := 1
  /-- Width of a device in bits. -/
  width : Nat := 4
  /-- Dies in a 3DS stack, 1 for none. -/
  stack : Nat := 1
  /-- On-die ECC, write CRC, per-bank refresh and a temperature sensor. -/
  features : Bool := true
  trained : Bool := false
  deriving DecidableEq, Repr

/-- A hardware fault of boot (R535, R559): its class and index of Table 16-12b. -/
structure BootFault where
  cls : Nat
  idx : Nat
  deriving DecidableEq, Repr

/-- Where an SREAD's request or its answer fails its check three times and is lost (R303). -/
inductive ReadLoss where
  /-- Neither: the word comes back. -/
  | arrives
  | request
  | answer
  deriving DecidableEq, Repr

end Sys2Proof.Machine
end

