-- ==== Sys2Proof/Syntax.lean ====
section
/-! DEFINITION. The commands that the module takes: one constructor per row of spec/opcode_table.json, in the table's
order but for those without operands, which stand last. A tile instruction names its tile and carries the fields of its instruction word (spec/04 Table 4-1; log 8); an
event names the unit and the item it concerns and carries what the surroundings answer. -/

namespace Sys2Proof

open Sys2Proof.Machine

inductive Instr where
  /-- ADD (R104). -/
  | add (t : Nat) (rd ra rb : Reg)
  /-- SUB (R104). -/
  | sub (t : Nat) (rd ra rb : Reg)
  /-- AND (R104). -/
  | and (t : Nat) (rd ra rb : Reg)
  /-- OR (R104). -/
  | or (t : Nat) (rd ra rb : Reg)
  /-- XOR (R104). -/
  | xor (t : Nat) (rd ra rb : Reg)
  /-- SHL (R104). -/
  | shl (t : Nat) (rd ra rb : Reg)
  /-- SHR (R104). -/
  | shr (t : Nat) (rd ra rb : Reg)
  /-- SHRA (R104). -/
  | shra (t : Nat) (rd ra rb : Reg)
  /-- LTS (R104). -/
  | lts (t : Nat) (rd ra rb : Reg)
  /-- LTU (R104). -/
  | ltu (t : Nat) (rd ra rb : Reg)
  /-- MIN (R104). -/
  | min (t : Nat) (rd ra rb : Reg)
  /-- MINU (R104). -/
  | minu (t : Nat) (rd ra rb : Reg)
  /-- MAX (R104). -/
  | max (t : Nat) (rd ra rb : Reg)
  /-- MAXU (R104). -/
  | maxu (t : Nat) (rd ra rb : Reg)
  /-- MUL (R104). -/
  | mul (t : Nat) (rd ra rb : Reg)
  /-- MULHS (R104). -/
  | mulhs (t : Nat) (rd ra rb : Reg)
  /-- MULHU (R104). -/
  | mulhu (t : Nat) (rd ra rb : Reg)
  /-- DIVS (R105). -/
  | divs (t : Nat) (rd ra rb : Reg)
  /-- DIVU (R105). -/
  | divu (t : Nat) (rd ra rb : Reg)
  /-- REMS (R105). -/
  | rems (t : Nat) (rd ra rb : Reg)
  /-- REMU (R105). -/
  | remu (t : Nat) (rd ra rb : Reg)
  /-- ADDI (R106). -/
  | addi (t : Nat) (rd ra : Reg) (imm : BitVec 16)
  /-- ANDI (R106). -/
  | andi (t : Nat) (rd ra : Reg) (imm : BitVec 16)
  /-- ORI (R106). -/
  | ori (t : Nat) (rd ra : Reg) (imm : BitVec 16)
  /-- XORI (R106). -/
  | xori (t : Nat) (rd ra : Reg) (imm : BitVec 16)
  /-- LTSI (R106). -/
  | ltsi (t : Nat) (rd ra : Reg) (imm : BitVec 16)
  /-- LTUI (R106). -/
  | ltui (t : Nat) (rd ra : Reg) (imm : BitVec 16)
  /-- SHLI (R106). -/
  | shli (t : Nat) (rd ra : Reg) (imm : BitVec 16)
  /-- SHRI (R106). -/
  | shri (t : Nat) (rd ra : Reg) (imm : BitVec 16)
  /-- SHRAI (R106). -/
  | shrai (t : Nat) (rd ra : Reg) (imm : BitVec 16)
  /-- LDHI (R106). -/
  | ldhi (t : Nat) (rd ra : Reg) (imm : BitVec 16)
  /-- LDB (R107). -/
  | ldb (t : Nat) (rd ra : Reg) (imm : BitVec 16)
  /-- LDBU (R107). -/
  | ldbu (t : Nat) (rd ra : Reg) (imm : BitVec 16)
  /-- LDH (R107). -/
  | ldh (t : Nat) (rd ra : Reg) (imm : BitVec 16)
  /-- LDHU (R107). -/
  | ldhu (t : Nat) (rd ra : Reg) (imm : BitVec 16)
  /-- LDW (R107). -/
  | ldw (t : Nat) (rd ra : Reg) (imm : BitVec 16)
  /-- LDP (R107). -/
  | ldp (t : Nat) (rd ra : Reg) (imm : BitVec 16)
  /-- STB (R107). -/
  | stb (t : Nat) (rd ra : Reg) (imm : BitVec 16)
  /-- STH (R107). -/
  | sth (t : Nat) (rd ra : Reg) (imm : BitVec 16)
  /-- STW (R107). -/
  | stw (t : Nat) (rd ra : Reg) (imm : BitVec 16)
  /-- STP (R107). -/
  | stp (t : Nat) (rd ra : Reg) (imm : BitVec 16)
  /-- BEQ (R108). -/
  | beq (t : Nat) (ra rb : Reg) (disp : BitVec 16)
  /-- BNE (R108). -/
  | bne (t : Nat) (ra rb : Reg) (disp : BitVec 16)
  /-- BLTS (R108). -/
  | blts (t : Nat) (ra rb : Reg) (disp : BitVec 16)
  /-- BGES (R108). -/
  | bges (t : Nat) (ra rb : Reg) (disp : BitVec 16)
  /-- BLTU (R108). -/
  | bltu (t : Nat) (ra rb : Reg) (disp : BitVec 16)
  /-- BGEU (R108). -/
  | bgeu (t : Nat) (ra rb : Reg) (disp : BitVec 16)
  /-- JMPL (R108). -/
  | jmpl (t : Nat) (rd : Reg) (disp : BitVec 21)
  /-- JMPR (R108). -/
  | jmpr (t : Nat) (rd ra : Reg) (imm : BitVec 16)
  /-- ILLEGAL_INSTRUCTION (R100): the instruction word that the tile issues. -/
  | illegalInstruction (t : Nat) (w : Word)
  /-- END (R109). -/
  | endProgram (t : Nat)
  /-- BRK (R110). -/
  | brk (t : Nat)
  /-- CTR (R111). -/
  | ctr (t : Nat) (rd ra : Reg) (imm : BitVec 16)
  /-- CRR (R112). -/
  | crr (t : Nat) (rd ra : Reg) (imm : BitVec 16)
  /-- CRW (R112). -/
  | crw (t : Nat) (rd ra : Reg) (imm : BitVec 16)
  /-- HINT (R113). -/
  | hint (t : Nat) (imm : BitVec 16)
  /-- TWAIT (R116). -/
  | twait (t : Nat) (ra : Reg)
  /-- TTEST (R116). -/
  | ttest (t : Nat) (rd ra : Reg)
  /-- TLAST (R116). -/
  | tlast (t : Nat) (rd ra : Reg)
  /-- MXI (R144). -/
  | mxi (t : Nat) (rd ra : Reg)
  /-- MATRIX_OP_COMPLETE (R154): the oldest operation of the tile. -/
  | matrixOpComplete (t : Nat)
  /-- FTQ_PUSH (R157): the operation in emission. -/
  | ftqPush (t : Nat)
  /-- SETVL (R121). -/
  | setvl (t : Nat) (rd ra : Reg)
  /-- VSTR (R192). -/
  | vstr (t : Nat) (k : Fin 6) (ra : Reg)
  /-- VMOV (R204). -/
  | vmov (t : Nat) (dst sa sb sc : BitVec 4) (p z : Bool)
  /-- VADD (R204). -/
  | vadd (t : Nat) (dst sa sb sc : BitVec 4) (p z : Bool)
  /-- VSUB (R204). -/
  | vsub (t : Nat) (dst sa sb sc : BitVec 4) (p z : Bool)
  /-- VMUL (R204). -/
  | vmul (t : Nat) (dst sa sb sc : BitVec 4) (p z : Bool)
  /-- VFMA (R204). -/
  | vfma (t : Nat) (dst sa sb sc : BitVec 4) (p z : Bool)
  /-- VMIN (R205). -/
  | vmin (t : Nat) (dst sa sb sc : BitVec 4) (p z : Bool)
  /-- VMAX (R205). -/
  | vmax (t : Nat) (dst sa sb sc : BitVec 4) (p z : Bool)
  /-- VABS (R204). -/
  | vabs (t : Nat) (dst sa sb sc : BitVec 4) (p z : Bool)
  /-- VNEG (R204). -/
  | vneg (t : Nat) (dst sa sb sc : BitVec 4) (p z : Bool)
  /-- VDIV (R204). -/
  | vdiv (t : Nat) (dst sa sb sc : BitVec 4) (p z : Bool)
  /-- VSQRT (R204). -/
  | vsqrt (t : Nat) (dst sa sb sc : BitVec 4) (p z : Bool)
  /-- VRELU (R204). -/
  | vrelu (t : Nat) (dst sa sb sc : BitVec 4) (p z : Bool)
  /-- VCLAMP (R205). -/
  | vclamp (t : Nat) (dst sa sb sc : BitVec 4) (p z : Bool)
  /-- VEXP (R206). -/
  | vexp (t : Nat) (dst sa sb sc : BitVec 4) (p z : Bool)
  /-- VEXP2 (R206). -/
  | vexp2 (t : Nat) (dst sa sb sc : BitVec 4) (p z : Bool)
  /-- VLOG (R206). -/
  | vlog (t : Nat) (dst sa sb sc : BitVec 4) (p z : Bool)
  /-- VRCP (R206). -/
  | vrcp (t : Nat) (dst sa sb sc : BitVec 4) (p z : Bool)
  /-- VRSQRT (R206). -/
  | vrsqrt (t : Nat) (dst sa sb sc : BitVec 4) (p z : Bool)
  /-- VTANH (R206). -/
  | vtanh (t : Nat) (dst sa sb sc : BitVec 4) (p z : Bool)
  /-- VSIGM (R206). -/
  | vsigm (t : Nat) (dst sa sb sc : BitVec 4) (p z : Bool)
  /-- VGELU (R206). -/
  | vgelu (t : Nat) (dst sa sb sc : BitVec 4) (p z : Bool)
  /-- VSILU (R206). -/
  | vsilu (t : Nat) (dst sa sb sc : BitVec 4) (p z : Bool)
  /-- VCMPGT (R205). -/
  | vcmpgt (t : Nat) (dst sa sb sc : BitVec 4) (p z : Bool)
  /-- VCMPGE (R205). -/
  | vcmpge (t : Nat) (dst sa sb sc : BitVec 4) (p z : Bool)
  /-- VCMPEQ (R205). -/
  | vcmpeq (t : Nat) (dst sa sb sc : BitVec 4) (p z : Bool)
  /-- VCMPNE (R205). -/
  | vcmpne (t : Nat) (dst sa sb sc : BitVec 4) (p z : Bool)
  /-- VSEL (R205). -/
  | vsel (t : Nat) (dst sa sb sc : BitVec 4) (p z : Bool)
  /-- VSUM64 (R207). -/
  | vsum64 (t : Nat) (dst sa sb sc : BitVec 4) (p z : Bool)
  /-- VSUM64A (R207). -/
  | vsum64a (t : Nat) (dst sa sb sc : BitVec 4) (p z : Bool)
  /-- VSSQ64 (R207). -/
  | vssq64 (t : Nat) (dst sa sb sc : BitVec 4) (p z : Bool)
  /-- VSSQ64A (R207). -/
  | vssq64a (t : Nat) (dst sa sb sc : BitVec 4) (p z : Bool)
  /-- VDOT64 (R207). -/
  | vdot64 (t : Nat) (dst sa sb sc : BitVec 4) (p z : Bool)
  /-- VDOT64A (R207). -/
  | vdot64a (t : Nat) (dst sa sb sc : BitVec 4) (p z : Bool)
  /-- VMAXR (R207). -/
  | vmaxr (t : Nat) (dst sa sb sc : BitVec 4) (p z : Bool)
  /-- VSEGR (R210). -/
  | vsegr (t : Nat) (dst sa sb sc : BitVec 4) (p z : Bool)
  /-- VSEL24 (R208). -/
  | vsel24 (t : Nat) (dst sa sb sc : BitVec 4) (p z : Bool)
  /-- VSEL24Q (R208). -/
  | vsel24q (t : Nat) (dst sa sb sc : BitVec 4) (p z : Bool)
  /-- VECTOR_OP_COMPLETE (R216): the oldest operation of the tile. -/
  | vectorOpComplete (t : Nat)
  /-- FILL (R122). -/
  | fill (t : Nat) (rd ra rb rc : Reg)
  /-- COPY (R122). -/
  | copy (t : Nat) (rd ra rb rc : Reg)
  /-- BLOCK_OP_COMPLETE (R81): the oldest operation of the tile. -/
  | blockOpComplete (t : Nat)
  /-- MOVE (R334). -/
  | move (t : Nat) (rd ra : Reg)
  /-- MOVER_TRANSFER_COMPLETE (R336): transfer number num of the tile. -/
  | moverTransferComplete (t num : Nat)
  /-- MEM_BLOCK_READ_ANSWER (R327): block n of the transfer; whether its check passes. -/
  | memBlockReadAnswer (t num n : Nat) (crcOk : Bool)
  /-- MEM_BLOCK_REQUEST (R330): block n of the transfer; what the controller finds. -/
  | memBlockRequest (t num n : Nat) (found : Dram)
  /-- HBM_REFRESH (R322). -/
  | hbmRefresh (stack : Stack)
  /-- DDR_REFRESH (R326): whether the DIMM is above 85 °C. -/
  | ddrRefresh (channel : Channel) (hot : Bool)
  /-- PATROL_SCRUB (R329): unit u of R319; whether a pass ends; what the block at addr held. -/
  | patrolScrub (u : Fin 32) (passEnd : Bool) (found : Dram) (addr : Nat)
  /-- HOST_WINDOW_RESPONSE (R340): block n of the transfer; the host's answer. -/
  | hostWindowResponse (t num n : Nat) (error : Bool) (data : List Byte)
  /-- CXL_COMPLETION_TIMEOUT (R341): block n of the transfer. -/
  | cxlCompletionTimeout (t num n : Nat)
  /-- CXLMEM_HOST_ACCESS (R342): offset in the exposed range. -/
  | cxlmemHostAccess (off : Nat) (write : Bool) (data : List Byte) (found : Dram)
  /-- WOPEN (R86). -/
  | wopen (t : Nat) (w : Win)
  /-- WCLOSE (R90). -/
  | wclose (t : Nat) (w : Win)
  /-- WINDOW_DRAIN_END (R90). -/
  | windowDrainEnd (t : Nat)
  /-- PUT (R126). -/
  | put (t : Nat) (rd ra rb : Reg)
  /-- REMOTE_WRITE_CHECK (R87): the write with this flight id. -/
  | remoteWriteCheck (id : Nat)
  /-- REMOTE_WRITE_COMMIT (R88): the write with this flight id; whether its check code passes. -/
  | remoteWriteCommit (id : Nat) (ok : Bool)
  /-- SUM_CONTRIBUTION (R308): the contribution with this flight id; whether its check code passes. -/
  | sumContribution (id : Nat) (ok : Bool)
  /-- SEND (R247). -/
  | send (t : Nat) (rd ra rb rc : Reg)
  /-- RESERVATION_REQUEST (R257): the request of the message with this flight id. -/
  | reservationRequest (id : Nat) (ok : Bool)
  /-- PORT_ANSWER (R259): the next answer of the message or remote write with this flight id. -/
  | portAnswer (id : Nat) (ok : Bool)
  /-- RETRY_TIMER (R259): the message with this flight id. -/
  | retryTimer (id : Nat)
  /-- MESSAGE_PACKET_ARRIVAL (R270): the message with this flight id; whether its check code passes. -/
  | messagePacketArrival (id : Nat) (ok : Bool)
  /-- PACKET_RESEND (R263): the message with this flight id. -/
  | packetResend (id : Nat)
  /-- DELIVERY_COMMIT (R255): the message with this flight id. -/
  | deliveryCommit (id : Nat)
  /-- WITHDRAWAL (R561): the message with this flight id. -/
  | withdrawal (id : Nat) (ok : Bool)
  /-- HSET (R129). -/
  | hset (t : Nat) (ra rb : Reg)
  /-- RQHEAD (R130). -/
  | rqhead (t : Nat) (rd : Reg)
  /-- RQPOP (R131). -/
  | rqpop (t : Nat)
  /-- PORT (R132). -/
  | port (t : Nat) (ra : Reg)
  /-- SIG (R134). -/
  | sig (t : Nat) (ra rb : Reg)
  /-- ARRIVE (R290). -/
  | arrive (t : Nat) (rd ra : Reg)
  /-- SWAIT (R135). -/
  | swait (t : Nat) (ra rb : Reg)
  /-- SREAD (R136): whether its request or its answer is lost on the way (R303). -/
  | sread (t : Nat) (rd ra : Reg) (loss : ReadLoss)
  /-- SCONF (R137). -/
  | sconf (t : Nat) (ra rb : Reg)
  /-- SYNC_SIGNAL (R287): the signal with this flight id; whether its check code passes. -/
  | syncSignal (id : Nat) (ok : Bool)
  /-- ARRIVE_AT_OBJECT (R290): the arrival with this flight id; whether its check code passes. -/
  | arriveAtObject (id : Nat) (ok : Bool)
  /-- ARRIVE_ANSWER (R290): the answer with this flight id; whether its check code passes. -/
  | arriveAnswer (id : Nat) (ok : Bool)
  /-- SYNC_WAIT_AT_OBJECT (R289): the wait with this flight id; whether its check code passes. -/
  | syncWaitAtObject (id : Nat) (ok : Bool)
  /-- SYNC_WAIT_RESUME (R289). -/
  | syncWaitResume (t : Nat) (ok : Bool)
  /-- TILE_RUN_START (R93). -/
  | tileRunStart (t : Nat)
  /-- TILE_RUN_STOP (R93). -/
  | tileRunStop (t : Nat)
  /-- BEAT_LO_READ (R96). -/
  | beatLoRead (t : Nat)
  /-- SKIP_COUNT_LO_READ (R177): ELEMS, SAMPLED or MISS. -/
  | skipCountLoRead (t : Nat) (slot : Fin 32) (which : Fin 3)
  /-- VEC_COUNT_LO_READ (R215): VEC_SAT_LO, else VEC_NONFIN_LO. -/
  | vecCountLoRead (t : Nat) (sat : Bool)
  /-- FTQ_CLR (R214). -/
  | ftqClr (t : Nat)
  /-- LOSS_POST (R512). -/
  | lossPost (t : Nat) (step : Word)
  /-- KU_ACCEPT_LO_READ (R349). -/
  | kuAcceptLoRead (stack : Stack)
  /-- LK_TX_LO_READ (R401). -/
  | lkTxLoRead (link : LinkId)
  /-- UE_SRC_READ (R343): unit u of R319. -/
  | ueSrcRead (u : Fin 32)
  /-- REGISTER_WRITE (R9): the writer, the device address (a link register: link × 0x100 + offset above 2^56), the word; hits is what the memory accesses meet. -/
  | registerWrite (ibex : Bool) (addr : Nat) (v : Word) (hits : List StackHit)
  /-- CONTRIBUTION_BLOCK (R352): block n of the ACCUM transfer; its check passes; what the Kudu's accesses meet. -/
  | contributionBlock (t num n : Nat) (crcOk : Bool) (hits : List StackHit)
  /-- POOL_WAIT_END (R353): clocks is how long the block waited; hits is what the Kudu's accesses meet. -/
  | poolWaitEnd (stack : Stack) (e : Fin 64) (clocks : Nat) (hits : List StackHit)
  /-- RING_PACKET (R358): the packet of one segment; hits is what the Kudu's accesses meet. -/
  | ringPacket (stack : Stack) (link : LinkId) (tag step seg hop : Nat) (gather nf : Bool) (data : List Nat) (hits : List StackHit)
  /-- NF_READY_WRITE (R365): the job; hits is what the memory accesses meet. -/
  | nfReadyWrite (j : BitVec 8) (hits : List StackHit)
  /-- KUDU_CLOSING_END (R368): the Kudu and its entry. -/
  | kuduClosingEnd (stack : Stack) (e : Fin 64)
  /-- COMMIT_REQUEST (R377); hits is what the memory accesses meet. -/
  | commitRequest (stack : Stack) (e : Fin 64) (hits : List StackHit)
  /-- COMMIT_REQUEST_RESUME (R517); hits is what the memory accesses meet. -/
  | commitRequestResume (stack : Stack) (e : Fin 64) (hits : List StackHit)
  /-- COMMIT_END (R378): hits is what the Kudu's accesses meet. -/
  | commitEnd (stack : Stack) (e : Fin 64) (hits : List StackHit)
  /-- DIGEST_RECEIVED (R389): the link, the entry of a Kudu, the step named, the commit count and the digest. -/
  | digestReceived (link : LinkId) (stack : Stack) (e : Fin 64) (step cnt value : Nat)
  /-- LINK_BLOCK_ARRIVAL (R397): Table 15-1; parity: the parity could be corrected. -/
  | linkBlockArrival (link : LinkId) (header : BitVec 128) (payload : List Byte) (code : DWord) (parity : Bool)
  /-- LINK_RETRAIN (R398): error correction has lost lock. -/
  | linkRetrain (link : LinkId) (lockLost : Bool)
  /-- RETRAIN_END (R398). -/
  | retrainEnd (link : LinkId)
  /-- LINK_FAIL_TIMEOUT (R398). -/
  | linkFailTimeout (link : LinkId)
  /-- ORIENTATION_STEP (R400). -/
  | orientationStep (link : LinkId)
  /-- LINK_UP (R400): the far end's identity. -/
  | linkUp (link : LinkId) (serial : DWord) (farLink : LinkId) (farFace : Fin 8)
  /-- LINK_WRITE_ARRIVAL (R410): what the transfer header at the front names. -/
  | linkWriteArrival (link : LinkId) (addr pitch rows rowBytes : Nat)
  /-- END_TO_END_ANSWER (R411): the first answer received; whether it accepts. -/
  | endToEndAnswer (link : LinkId) (ok : Bool)
  /-- LANDING_SIGNAL (R411). -/
  | landingSignal (link : LinkId)
  /-- LINK_STEP_ADVANCE (R413): the job. -/
  | linkStepAdvance (j : BitVec 8)
  /-- JOB_ABORT_RECEIVED (R416): the module index that began the abort. -/
  | jobAbortReceived (link : LinkId) (origin : Fin 4096) (step : Nat)
  /-- SWEEP_HOP (R418): kind 0 flag, 1 verdict, 2 health, 3 checkpoint written. -/
  | sweepHop (link : LinkId) (kind step hop value : Nat)
  /-- CONCORD_EXCHANGE (R422): what a neighbour sends. -/
  | concordExchange (link : LinkId) (x y z serial : Nat) (digests : List Byte)
  /-- CONCORD_TIMEOUT (R422): the job. -/
  | concordTimeout (j : BitVec 8)
  /-- LIGHT_LOSS (R402): the wavelengths received now. -/
  | lightLoss (link : LinkId) (light : BitVec 4)
  /-- LASER_FAULT (R402): shorted, else absent. -/
  | laserFault (slot : Fin 24) (shorted : Bool)
  /-- LASER_INSERT (R554). -/
  | laserInsert (slot : Fin 24)
  /-- RELEASE_REPORT (R316): the job. -/
  | releaseReport (j : BitVec 8)
  /-- RAIL_SETTLED (R45): a quad, or 128 for the spine. -/
  | railSettled (domain : Nat)
  /-- DROOP (R47): a quad, or 128 for the spine. -/
  | droop (domain : Nat)
  /-- UNDERVOLTAGE (R48): a quad or 128 for the spine; the lowest voltage seen. -/
  | undervoltage (domain mv : Nat)
  /-- HANDSHAKE_STALL (R55): the unit as in Table 16-12b, the time held, the partitions whose traffic passes it. -/
  | handshakeStall (unit us : Nat) (parts : List (Fin 17))
  /-- FAULT_FLAG (R468): the partition. -/
  | faultFlag (p : Fin 17)
  /-- HALT_FLAG (R469): the partition. -/
  | haltFlag (p : Fin 17)
  /-- NONFIN_FLAG (R315): the partition. -/
  | nonfinFlag (p : Fin 17)
  /-- QUIESCE_REQUEST (R315): a herd. -/
  | quiesceRequest (h : Nat)
  /-- QUIESCE_ANSWER (R315): a herd. -/
  | quiesceAnswer (h : Nat)
  /-- TEARDOWN_QUIESCE_TIMEOUT (R484): the job. -/
  | teardownQuiesceTimeout (j : BitVec 8)
  /-- TEARDOWN_END (R484): the job. -/
  | teardownEnd (j : BitVec 8)
  /-- SWITCH_OUT_DRAIN_END (R482): the partition. -/
  | switchOutDrainEnd (p : Fin 17)
  /-- SWITCH_ABANDON (R482): the partition. -/
  | switchAbandon (p : Fin 17)
  /-- SWITCH_IN_END (R483): the partition. -/
  | switchInEnd (p : Fin 17)
  /-- CHAMOIS_SAMPLE (R492): what the sample reads. -/
  | chamoisSample (other : Nat) (temps : List QuadTemp) (hbmTemps : List StackTemp) (slacks : List SlackReading)
  /-- ENERGY_WINDOW (R494): the input energy of the window in µJ. -/
  | energyWindow (measured : Nat)
  /-- WEAR_RECORD (R524): power loss interrupts it. -/
  | wearRecord (interrupted : Bool)
  /-- HARD_THERMAL_TRIP (R501): as Table 16-12b. -/
  | hardThermalTrip (sensor : Nat) (reading : Int)
  /-- PERIOD_BOUNDARY (R508): a ledger term that fails. -/
  | periodBoundary (finding : Option LedgerFinding)
  /-- CHECKPOINT_COPY_END (R522): the job and its commit entry; hits is what the memory accesses meet. -/
  | checkpointCopyEnd (j : BitVec 8) (die : Fin 4) (e : Fin 64) (hits : List StackHit)
  /-- MB_DOORBELL (R427). -/
  | mbDoorbell (m : MailboxId) (seq : BitVec 16)
  /-- COMMAND_TAKE (R428). -/
  | commandTake (m : MailboxId)
  /-- CR_ENABLE_WRITE (R433). -/
  | crEnableWrite (m : MailboxId) (on : Bool)
  /-- CR_HEAD_WRITE (R433). -/
  | crHeadWrite (m : MailboxId) (head : BitVec 16)
  /-- HELD_RECORD_WRITE (R434). -/
  | heldRecordWrite (m : MailboxId) (failed : Bool)
  /-- IDENTITY (R441): the taken command q of a mailbox. -/
  | identity (m : MailboxId) (q : BitVec 16)
  /-- MODULE_CONFIG (R441): the taken command q of a mailbox. -/
  | moduleConfig (m : MailboxId) (q : BitVec 16)
  /-- READ_BLOCK (R441): the taken command q of a mailbox. -/
  | readBlock (m : MailboxId) (q : BitVec 16)
  /-- SYNC_READ (R295): the taken command q of a mailbox. -/
  | syncRead (m : MailboxId) (q : BitVec 16)
  /-- COUNTERS_READ (R509): the taken command q of a mailbox. -/
  | countersRead (m : MailboxId) (q : BitVec 16)
  /-- ACCOUNT_READ (R487): the taken command q of a mailbox. -/
  | accountRead (m : MailboxId) (q : BitVec 16)
  /-- TILE_DEBUG_HALT (R441): the taken command q of a mailbox. -/
  | tileDebugHalt (m : MailboxId) (q : BitVec 16)
  /-- TILE_DEBUG_RESUME (R465): the taken command q of a mailbox. -/
  | tileDebugResume (m : MailboxId) (q : BitVec 16)
  /-- LINK_STATUS (R441): the taken command q of a mailbox. -/
  | linkStatus (m : MailboxId) (q : BitVec 16)
  /-- ENABLE (R439): the taken command q of a mailbox. -/
  | enable (m : MailboxId) (q : BitVec 16)
  /-- DISABLE (R439): the taken command q of a mailbox. -/
  | disable (m : MailboxId) (q : BitVec 16)
  /-- LIFECYCLE_STARTUP_END (R438): a lifecycle object; whether its channel has trained; hits is what the memory accesses meet. -/
  | lifecycleStartupEnd (kind : Fin 7) (idx : BitVec 16) (ok : Bool) (hits : List StackHit)
  /-- LIFECYCLE_SHUTDOWN_END (R439): a lifecycle object. -/
  | lifecycleShutdownEnd (kind : Fin 7) (idx : BitVec 16)
  /-- JOB_LOAD (R456): the taken command q of a mailbox; the image as read, none on a read error. -/
  | jobLoad (m : MailboxId) (q : BitVec 16) (image : Option (List Byte))
  /-- JOB_START (R458): the taken command q of a mailbox. -/
  | jobStart (m : MailboxId) (q : BitVec 16)
  /-- JOB_ABORT (R484): the taken command q of a mailbox. -/
  | jobAbort (m : MailboxId) (q : BitVec 16)
  /-- JOB_UNLOAD (R461): the taken command q of a mailbox. -/
  | jobUnload (m : MailboxId) (q : BitVec 16)
  /-- RED_REARM (R369): the taken command q of a mailbox; hits is what the memory accesses meet. -/
  | redRearm (m : MailboxId) (q : BitVec 16) (hits : List StackHit)
  /-- COMMIT_CONFIG (R442): the taken command q of a mailbox. -/
  | commitConfig (m : MailboxId) (q : BitVec 16)
  /-- COMMIT_RECOVER (R386): the taken command q of a mailbox; hits is what the memory accesses meet. -/
  | commitRecover (m : MailboxId) (q : BitVec 16) (hits : List StackHit)
  /-- CXLMEM_SET (R342): the taken command q of a mailbox. -/
  | cxlmemSet (m : MailboxId) (q : BitVec 16)
  /-- CXLMEM_HANDOVER (R342): the taken command q of a mailbox. -/
  | cxlmemHandover (m : MailboxId) (q : BitVec 16)
  /-- HEALTH_CONFIG (R516): the taken command q of a mailbox. -/
  | healthConfig (m : MailboxId) (q : BitVec 16)
  /-- CHECKPOINT_TAKE (R522): the taken command q of a mailbox. -/
  | checkpointTake (m : MailboxId) (q : BitVec 16)
  /-- CHECKPOINT_ROLLBACK (R523): the taken command q of a mailbox; the slot that the neighbour sent; hits is what the memory accesses meet. -/
  | checkpointRollback (m : MailboxId) (q : BitVec 16) (buddy : Option (List Byte)) (hits : List StackHit)
  /-- ATTEST (R539): the taken command q of a mailbox; the reservation write succeeds. -/
  | attest (m : MailboxId) (q : BitVec 16) (flashOk : Bool)
  /-- ROM_STATUS (R532): the taken command q of a mailbox. -/
  | romStatus (m : MailboxId) (q : BitVec 16)
  /-- FW_LOAD (R534): the taken command q of a mailbox; the image as read, none on a read error. -/
  | fwLoad (m : MailboxId) (q : BitVec 16) (image : Option (List Byte)) (cut : Option Nat)
  /-- BOOT_END (R535): what the SPD hubs and training give for each socket; a hardware fault of events 2 to 4. -/
  | bootEnd (dimms : List DimmReport) (fault : Option BootFault)
  /-- MOD_RESET (R528): REFCLK toggles at the rising edge. -/
  | modReset (refclk : Bool)
  /-- CXL_TRAIN (R550): the widest width and highest rate in GT/s that both ends support, 0 where none trains. -/
  | cxlTrain (width rate : Nat) (upper : Bool)
  /-- DIMM_BRANCH_SHORT (R560). -/
  | dimmBranchShort (channel : Channel)
  /-- REMOTE_SENSE_OPEN (R547): the rail as R558 numbers it. -/
  | remoteSenseOpen (rail : Fin 172)
  /-- SMBUS_READ (R555): register offset, bytes. -/
  | smbusRead (offset count : Nat)
  /-- SMBUS_WRITE (R555). -/
  | smbusWrite (offset : Nat) (data : List Byte)
  /-- TRAINING_PATTERN_RECEIVED (R400). -/
  | trainingPatternReceived (link : LinkId)
  /-- BUDDY_SLOT_REQUEST (R523); hits is what the memory accesses meet. -/
  | buddySlotRequest (link : LinkId) (step : Nat) (hits : List StackHit)
  /-- MARGIN_DAILY_LOWER (R502). -/
  | marginDailyLower
  /-- POWER_ON (R545). -/
  | powerOn
  /-- INPUT_UNDERVOLTAGE_OFF (R545). -/
  | inputUndervoltageOff
  /-- INPUT_OVERVOLTAGE_OFF (R545). -/
  | inputOvervoltageOff
  /-- INPUT_REVERSED (R557). -/
  | inputReversed
  /-- CXL_HOT_RESET (R527). -/
  | cxlHotReset
  /-- MGMT_RAIL_SHORT (R557). -/
  | mgmtRailShort
  deriving DecidableEq, Repr

end Sys2Proof
end

