-- ==== Sys2Proof/Config.lean ====
section
/-! DEFINITION. What the model leaves free, as opaque constants with no body: a claim about one of them holds for every
value of it. `State.free` is the counter that those which are drawn afresh are applied to (log 5). -/

namespace Sys2Proof.Config

/-- The beats that an issue takes beyond its minimum (R8, R52; log 7), by free counter. -/
opaque extraBeats : Nat → Nat
/-- Whether an issue's fetch misses the instruction cache (R138; log 7), by free counter. -/
opaque fetchMiss : Nat → Bool
/-- The beats that a crossing takes beyond its 2 (R50, Table 2-4; log 7), by free counter. -/
opaque crossBeats : Nat → Nat
/-- How far the activity counters of a matrix operation lie below its beats where cells of skipped columns did no
multiplication (R180; log 99), by free counter. -/
opaque idleCells : Nat → Nat
/-- The beats of a tile's idle loop in one tick of the module (R52; log 6, 7), by free counter and tile. -/
opaque idleBeats : Nat → Nat → Nat
/-- Engine beats that an operation ran beyond its minimum (R8, R487; log 7), by free counter. -/
opaque runBeats : Nat → Nat
/-- The lines that a tile's matrix operation commits in one tick of the module (R154, R156; log 9), by free counter and
tile. -/
opaque emitLines : Nat → Nat → Nat
/-- How often a block fails its check code at a controller (R327, R328; log 82), by free counter. -/
opaque blockFails : Nat → Nat
/-- What the accesses of a reduction entry meet that a tick of the module brings about (R327 to R330; log 100), by free counter
and entry. -/
opaque tickHits : Nat → Nat → List Machine.StackHit
/-- What the reads for a buddy slot meet that a held request brings about (R327 to R329; log 100), by free counter. -/
opaque buddyHits : Nat → List Machine.StackHit
/-- The idle blocks that a link sends in one tick of the module (spec/15 section 15.2; log 57), by free counter and
link. -/
opaque idleBlocks : Nat → Nat → Nat
/-- The blocks that a clocked unit can hold deferred (R57; log 77), by unit. -/
opaque deferDepth : Nat → Nat
/-- The nanoseconds that pass in one tick of the module (R52; log 6), by free counter. -/
opaque tickNs : Nat → Nat
/-- The contents of the memories after power-on or reset (R528; log 5), by free counter and address. -/
opaque powerOnByte : Nat → Nat → Byte
/-- The value of a special function where its ulp bound leaves it open (R206; log 10), by VOP value and operand. -/
opaque specialBits : Nat → Word → Word
/-- AMAX of a finite magnitude m × 2^e that binary32 does not hold is the upper one of its two neighbours (R213; log 16). -/
opaque amaxUp : Nat → Int → Bool
/-- The staging slots of a sum after its root is written (R310), by free counter and byte. -/
opaque stagingByte : Nat → Nat → Byte

/-- How many block writes of an interrupted commit were made (R386), by free counter. -/
opaque cutAt : Nat → Nat

/-- Herd-memory accesses and router or bridge transfers that a herd's counters add in a sample (Table 19-1; log 99), by free
counter and activity key. -/
opaque memAccesses : Nat → Nat → Nat
opaque netTransfers : Nat → Nat → Nat
/-- Leakage energy of a core domain in a sample, in pJ, by domain, voltage in mV and hottest sensor: the calibration in flash
(R492; log 99). -/
opaque leakage : Nat → Nat → Int → Nat

/-- Whether a record's write to its completion ring fails (R434; log 85), by free counter. -/
opaque ringFails : Nat → Bool

/-- The encoding of a concord item (R420), by item and content (log 45). -/
opaque itemCode : Nat → List Nat → List Byte

/-- The module's serial number (R3; log 11). -/
opaque serial : Nat
/-- The SHA-256 of Nymmouc's firmware key, as fused (R530; log 11). -/
opaque vendorKeyHash : List Byte
/-- The SHA-256 of the boot ROM, and its version (R538, Table 21-4; log 11). -/
opaque romDigest : List Byte
opaque romVersion : Nat
/-- The 256-bit DEVICE_SECRET as fused, which only the key engine reads (R530; log 11), and the secret of Nymmouc's identity key
(R536), with the leaf of it that signed the certificate. -/
opaque deviceSecret : List Byte
opaque identitySecret : List Byte
opaque identityLeaf : Nat
/-- What an HSS key derives from its secret (R537; log 11, 13): the identifier of a tree, the start of a chain of a leaf of it, and
the randomiser of the leaf's signature. -/
opaque keyIdent : List Byte → Nat → List Byte
opaque keyChain : List Byte → Nat → Nat → Nat → List Byte
opaque keyRandom : List Byte → Nat → Nat → List Byte

/-- The event of Table 21-7 in which a rail fault of boot arises (R559; log 52), by free counter. -/
opaque bootEvent : Nat → Nat

end Sys2Proof.Config
end

