-- ==== Sys2Proof/Machine/Bits.lean ====
section
/-! DEFINITION. Bit fields, sign extension, little-endian byte order (spec/00 R7), serial-number comparison
(spec/00, "Wording and pseudocode"), saturating counters (spec/03 R97) and small list helpers. -/

namespace Sys2Proof.Machine

/-- Bits `lo + len − 1 .. lo` of a number, as a number. -/
def bits (n lo len : Nat) : Nat := (n >>> lo) % 2 ^ len
/-- Bit `i` of a number. -/
def bit (n i : Nat) : Bool := n.testBit i

/-- A number with bits `lo + len − 1 .. lo` replaced. -/
def setBits (n lo len v : Nat) : Nat :=
  n % 2 ^ lo + (v % 2 ^ len) * 2 ^ lo + (n / 2 ^ (lo + len)) * 2 ^ (lo + len)

/-- The number that little-endian bytes spell (R7). -/
def leNat : List Byte → Nat
  | [] => 0
  | b :: r => b.toNat + 256 * leNat r

/-- The low `n` bytes of a number, least significant first (R7). -/
def leBytes : Nat → Nat → List Byte
  | 0, _ => []
  | n + 1, v => BitVec.ofNat 8 v :: leBytes n (v / 256)

/-- Bytes cut or padded with 0 to `n`. -/
def padTo (n : Nat) (bs : List Byte) : List Byte := (bs ++ List.replicate n 0).take n

/-- CRC-32C of bytes: one bit, then one byte at a time (spec/21 R531). -/
def crc32cBits : Nat → Nat → Nat
  | 0, r => r
  | n + 1, r => crc32cBits n (if r % 2 = 1 then (r / 2) ^^^ 0x82F63B78 else r / 2)
def crc32c (bs : List Byte) : Nat :=
  (bs.foldl (fun r b => crc32cBits 8 (r ^^^ b.toNat)) 0xFFFFFFFF) ^^^ 0xFFFFFFFF

/-- A number of `w` bits read as signed two's complement. -/
def signedOf (w n : Nat) : Int :=
  if 2 * (n % 2 ^ w) < 2 ^ w then Int.ofNat (n % 2 ^ w) else Int.ofNat (n % 2 ^ w) - Int.ofNat (2 ^ w)

/-- An integer narrowed to `w` bits. -/
def wrapInt (w : Nat) (i : Int) : Nat := (i % (2 ^ w : Nat)).toNat

/-- `a` is newer than `b` by serial-number arithmetic at `w` bits; half the circle is not newer. -/
def newer (w a b : Nat) : Bool :=
  let d := (a + 2 ^ w - b % 2 ^ w) % 2 ^ w
  0 < d && d < 2 ^ (w - 1)

/-- Sign-extend an immediate to a word. -/
def sx {n : Nat} (v : BitVec n) : Word := v.signExtend 32
/-- Zero-extend an immediate to a word. -/
def zx {n : Nat} (v : BitVec n) : Word := v.setWidth 32

/-- The largest 32-bit count. -/
def max32 : Nat := 0xFFFFFFFF
/-- The largest 64-bit count. -/
def max64 : Nat := 0xFFFFFFFFFFFFFFFF
/-- A count raised by `k`, saturating at `top` (R97). -/
def satAdd (top n k : Nat) : Nat := min top (n + k)
/-- Whether raising a count by `k` reaches the top value (R97). -/
def satHits (top n k : Nat) : Bool := decide (0 < k ∧ top ≤ n + k)

/-- Two byte ranges share a byte; an empty range shares none. -/
def overlaps (a n b m : Nat) : Bool := decide (0 < n ∧ 0 < m ∧ a < b + m ∧ b < a + n)
/-- A byte range lies within another. -/
def within (a n lo len : Nat) : Bool := decide (lo ≤ a ∧ a + n ≤ lo + len)

/-- The integer quotient rounded up. -/
def ceilDiv (a b : Nat) : Nat := (a + b - 1) / b

/-- Replace the list element at an index, where the list reaches it. -/
def listSet {α : Type} (l : List α) (i : Nat) (x : α) : List α := l.set i x

/-- The bit set of the indices below `n` where `p` holds. -/
def bitSet (n : Nat) (p : Nat → Bool) : Nat := (List.range n).foldl (fun a i => if p i then a + 2 ^ i else a) 0

/-- Cut a list into pieces of `n` elements; `fuel` bounds the number of pieces. -/
def chunksAux {α : Type} (n : Nat) : Nat → List α → List (List α)
  | 0, _ => []
  | fuel + 1, l => if l.isEmpty then [] else l.take n :: chunksAux n fuel (l.drop n)
/-- Cut a list into pieces of `n` elements, the last perhaps shorter. -/
def chunks {α : Type} (n : Nat) (l : List α) : List (List α) := chunksAux n l.length l

end Sys2Proof.Machine
end

