-- ==== Sys2Proof/Machine/Fp.lean ====
section
/-! DEFINITION. The number formats of spec/08 Table 8-1 as exact values, the roundings of R234, R235 and R237, and the
exact operations that rounding follows (R149, R151, R205). -/

namespace Sys2Proof.Machine

/-- A value of a number format: NaN, an infinity, or ±m × 2^e. Zero keeps its sign. -/
inductive FVal where
  | nan
  | inf (neg : Bool)
  | fin (neg : Bool) (m : Nat) (e : Int)
  deriving DecidableEq, Repr

/-- A binary format: exponent and fraction widths, bias, the code of its largest finite magnitude, its infinity code
where it has one, and its NaN code (Table 8-1, R220). -/
structure FFmt where
  eb : Nat
  fb : Nat
  bias : Nat
  top : Nat
  inf : Option Nat
  nan : Nat
  deriving DecidableEq, Repr

def fmtE2M1 : FFmt := ⟨2, 1, 1, 0x7, none, 0⟩
def fmtE4M3 : FFmt := ⟨4, 3, 7, 0x7E, none, 0x7F⟩
def fmtE5M2 : FFmt := ⟨5, 2, 15, 0x7B, some 0x7C, 0x7E⟩
def fmtBf16 : FFmt := ⟨8, 7, 127, 0x7F7F, some 0x7F80, 0x7FC0⟩
def fmtF32 : FFmt := ⟨8, 23, 127, 0x7F7FFFFF, some 0x7F800000, 0x7FC00000⟩
def fmtW48 : FFmt := ⟨8, 39, 127, 0x7F7FFFFFFFFF, some 0x7F8000000000, 0x7FC000000000⟩
def fmtF64 : FFmt := ⟨11, 52, 1023, 0x7FEFFFFFFFFFFFFF, some 0x7FF0000000000000, 0x7FF8000000000000⟩

/-- Bits of a code without its sign. -/
def FFmt.magBits (f : FFmt) : Nat := f.eb + f.fb

/-- The value of a code (R219). -/
def FFmt.decode (f : FFmt) (code : Nat) : FVal :=
  let neg := bit code f.magBits
  let mag := code % 2 ^ f.magBits
  if f.top < mag then
    if f.inf = some mag then .inf neg else .nan
  else
    let e := mag / 2 ^ f.fb
    let frac := mag % 2 ^ f.fb
    if e = 0 then .fin neg frac (1 - (f.bias : Int) - f.fb)
    else .fin neg (2 ^ f.fb + frac) ((e : Int) - f.bias - f.fb)

/-- The number of bits of a magnitude. -/
def bitLen (m : Nat) : Nat := if m = 0 then 0 else Nat.log2 m + 1

/-- How a conversion rounds: to nearest even, or stochastically with 32 bits `r` (R234, R237). -/
inductive Rounding where
  | nearest
  | stochastic (r : Nat)
  | up
  deriving DecidableEq, Repr

/-- Round a magnitude m × 2^e into a format with its subnormals and an unbounded exponent: the magnitude's code, which
exceeds `top` where it overflows (R235, R237). `up` rounds away from zero. -/
def FFmt.roundMag (f : FFmt) (mode : Rounding) (m : Nat) (e : Int) : Nat :=
  if m = 0 then 0
  else
    let q : Int := max ((bitLen m : Int) - 1 + e - f.fb) (1 - (f.bias : Int) - f.fb)
    let n :=
      if q ≤ e then m <<< (e - q).toNat
      else
        let sh := (q - e).toNat
        let t := m >>> sh
        let rem := m % 2 ^ sh
        match mode with
        | .nearest =>
          let half := 2 ^ sh
          if half < 2 * rem || (2 * rem = half && t % 2 = 1) then t + 1 else t
        | .stochastic r => if rem != 0 && r < (rem <<< 32) >>> sh then t + 1 else t
        | .up => if rem != 0 then t + 1 else t
    if n < 2 ^ f.fb then n
    else ((q + f.fb + f.bias).toNat <<< f.fb) + (n - 2 ^ f.fb)

/-- A magnitude's code with a sign. -/
def FFmt.signed (f : FFmt) (neg : Bool) (mag : Nat) : Nat := if neg then mag + 2 ^ f.magBits else mag

/-- A conversion (R234 to R236): the code, and whether it saturated. NaN gives the format's NaN code; an infinity stays
an infinity or becomes NaN where the format has none. -/
def FFmt.convert (f : FFmt) (mode : Rounding) (v : FVal) : Nat × Bool :=
  match v with
  | .nan => (f.nan, false)
  | .inf neg => (match f.inf with | some c => f.signed neg c | none => f.nan, false)
  | .fin neg m e =>
    let c := f.roundMag mode m e
    if f.top < c then (f.signed neg f.top, true) else (f.signed neg c, false)

/-- An IEEE result (R151, R205): round to nearest even, overflow to infinity, NaN canonical. -/
def FFmt.ieee (f : FFmt) (v : FVal) : Nat :=
  match v with
  | .nan => f.nan
  | .inf neg => f.signed neg (f.inf.getD f.nan)
  | .fin neg m e =>
    let c := f.roundMag .nearest m e
    if f.top < c then f.signed neg (f.inf.getD f.nan) else f.signed neg c

namespace FVal

/-- NaN or infinite. -/
def nonfinite : FVal → Bool
  | .nan => true
  | .inf _ => true
  | .fin _ _ _ => false

def isZero : FVal → Bool
  | .fin _ 0 _ => true
  | _ => false

def isNeg : FVal → Bool
  | .nan => false
  | .inf n => n
  | .fin n _ _ => n

/-- v × 2^k, exactly. -/
def scale (k : Int) : FVal → FVal
  | .nan => .nan
  | .inf n => .inf n
  | .fin n m e => .fin n m (e + k)

def neg : FVal → FVal
  | .nan => .nan
  | .inf n => .inf (!n)
  | .fin n m e => .fin (!n) m e

def abs : FVal → FVal
  | .nan => .nan
  | .inf _ => .inf false
  | .fin _ m e => .fin false m e

/-- The signed integer of a finite value in units of 2^u, where u is at most its exponent. -/
def units (n : Bool) (m : Nat) (e u : Int) : Int :=
  let k := (m <<< (e - u).toNat : Nat)
  if n then -(k : Int) else k

/-- The exact sum; an exact zero from nonzero operands is +0, equal signs keep a zero's sign (IEEE 754). -/
def add (a b : FVal) : FVal :=
  match a, b with
  | .nan, _ => .nan
  | _, .nan => .nan
  | .inf x, .inf y => if x = y then .inf x else .nan
  | .inf x, _ => .inf x
  | _, .inf y => .inf y
  | .fin n1 m1 e1, .fin n2 m2 e2 =>
    if m1 = 0 && m2 = 0 then .fin (n1 && n2) 0 (min e1 e2)
    else
      let u := min e1 e2
      let k := units n1 m1 e1 u + units n2 m2 e2 u
      .fin (decide (k < 0)) k.natAbs u

/-- The exact product; infinity times zero is NaN (R151). -/
def mul (a b : FVal) : FVal :=
  match a, b with
  | .nan, _ => .nan
  | _, .nan => .nan
  | .inf x, .inf y => .inf (x != y)
  | .inf x, .fin n m _ => if m = 0 then .nan else .inf (x != n)
  | .fin n m _, .inf y => if m = 0 then .nan else .inf (n != y)
  | .fin n1 m1 e1, .fin n2 m2 e2 => .fin (n1 != n2) (m1 * m2) (e1 + e2)

/-- The quotient with a sticky bit below 64 bits beyond the divisor's width, enough for one rounding into binary32. -/
def div (a b : FVal) : FVal :=
  match a, b with
  | .nan, _ => .nan
  | _, .nan => .nan
  | .inf _, .inf _ => .nan
  | .inf x, .fin n _ _ => .inf (x != n)
  | .fin n _ e, .inf y => .fin (n != y) 0 e
  | .fin n1 m1 e1, .fin n2 m2 e2 =>
    if m2 = 0 then (if m1 = 0 then .nan else .inf (n1 != n2))
    else
      let k := 128 + bitLen m2
      let q := (m1 <<< k) / m2
      let r := (m1 <<< k) % m2
      .fin (n1 != n2) (2 * q + (if r = 0 then 0 else 1)) (e1 - e2 - k - 1)

/-- The integer square root by bits, from bit `i` downward. -/
def isqrt (n : Nat) : Nat → Nat → Nat
  | 0, r => r
  | i + 1, r =>
    let c := r + 2 ^ i
    if c * c ≤ n then isqrt n i c else isqrt n i r

/-- The square root with a sticky bit, enough for one rounding; negative operands but −0 give NaN (IEEE 754). -/
def sqrt (a : FVal) : FVal :=
  match a with
  | .nan => .nan
  | .inf true => .nan
  | .inf false => .inf false
  | .fin n m e =>
    if m = 0 then .fin n 0 e
    else if n then .nan
    else
      let odd := if e % 2 = 0 then 0 else 1
      let x := m <<< (256 + odd)
      let r := isqrt x ((bitLen x + 1) / 2 + 1) 0
      .fin false (2 * r + (if r * r = x then 0 else 1)) ((e - odd - 256) / 2 - 1)

/-- Order of two values that are not NaN, −0 below +0 where `signedZero` (R205). -/
def lt (signedZero : Bool) (a b : FVal) : Bool :=
  match a, b with
  | .nan, _ => false
  | _, .nan => false
  | .inf x, .inf y => x && !y
  | .inf x, .fin _ _ _ => x
  | .fin _ _ _, .inf y => !y
  | .fin n1 m1 e1, .fin n2 m2 e2 =>
    if m1 = 0 && m2 = 0 then signedZero && n1 && !n2
    else
      let u := min e1 e2
      decide (units n1 m1 e1 u < units n2 m2 e2 u)

/-- Numeric equality, +0 equal to −0; NaN equals nothing. -/
def eq (a b : FVal) : Bool :=
  match a, b with
  | .nan, _ => false
  | _, .nan => false
  | a, b => !lt false a b && !lt false b a

/-- The smaller or larger of two values, NaN where either is NaN, −0 below +0 (R205). -/
def fmin (a b : FVal) : FVal :=
  match a, b with
  | .nan, _ => .nan
  | _, .nan => .nan
  | a, b => if lt true b a then b else a
def fmax (a b : FVal) : FVal :=
  match a, b with
  | .nan, _ => .nan
  | _, .nan => .nan
  | a, b => if lt true a b then b else a

end FVal

/-- +0. -/
def fzero : FVal := .fin false 0 0

/-- The value of a binary32 word, and the word of an IEEE result. -/
def f32 (w : Nat) : FVal := fmtF32.decode w
def rne32 (v : FVal) : Nat := fmtF32.ieee v
/-- Binary32 addition of two codes (R151). -/
def add32 (a b : Nat) : Nat := rne32 ((f32 a).add (f32 b))
/-- Binary32 multiplication of two codes. -/
def mul32 (a b : Nat) : Nat := rne32 ((f32 a).mul (f32 b))
/-- An exact sum of values from the left; an exact zero is +0 (R149, R151). -/
def exactSum (l : List FVal) : FVal :=
  match l.foldl FVal.add fzero with
  | .fin _ 0 e => .fin false 0 e
  | v => v
/-- An E8M0 scale byte as a factor: 2^(s − 127), or NaN for 0xFF (R222). -/
def e8m0 (s : Nat) : FVal := if s % 256 = 255 then .nan else .fin false 1 ((s % 256 : Nat) - 127 : Int)

/-- The mixing function of R238. -/
def srMix (x : Nat) : Nat :=
  let m := 2 ^ 64
  let x := x ^^^ (x >>> 32)
  let x := x * 0xA3C59E174B2D6F81 % m
  let x := x ^^^ (x >>> 29)
  let x := x * 0x8F1BD2469E3C57A5 % m
  x ^^^ (x >>> 32)
/-- The 32 random bits of an element (R238). -/
def srBits (seed step tensor index : Nat) : Nat :=
  let h := srMix ((seed % 2 ^ 64) ^^^ ((step % 2 ^ 32) * 2 ^ 32 + tensor % 2 ^ 16))
  srMix (h ^^^ (index % 2 ^ 64)) >>> 32

end Sys2Proof.Machine
end

