-- ==== Sys2Proof/Machine/Sparse.lean ====
section
/-! DEFINITION. Finite tables of plain data keyed by a number: what a unit number holds, with a given value where
nothing was written. Every bank of tiles, links, table entries and objects of State is one. -/

namespace Sys2Proof.Machine

/-- A table from numbers to values, in rising key order. -/
abbrev Sparse (α : Type) := List (Nat × α)

/-- The value at key `i`, or `d` where the table lists none. -/
def Sparse.get {α : Type} (d : α) : Sparse α → Nat → α
  | [], _ => d
  | (k, v) :: r, i => if k = i then v else Sparse.get d r i

/-- The table with `x` at key `i`. -/
def Sparse.set {α : Type} : Sparse α → Nat → α → Sparse α
  | [], i, x => [(i, x)]
  | (k, v) :: r, i, x =>
    if i < k then (i, x) :: (k, v) :: r
    else if k = i then (i, x) :: r
    else (k, v) :: Sparse.set r i x

/-- The value at key `i` where the table lists one. -/
def Sparse.find {α : Type} : Sparse α → Nat → Option α
  | [], _ => none
  | (k, v) :: r, i => if k = i then some v else Sparse.find r i

/-- The table without key `i`. -/
def Sparse.del {α : Type} (m : Sparse α) (i : Nat) : Sparse α := m.filter (fun e => e.1 != i)

/-- The table with every listed value changed by `f`, which sees the key. -/
def Sparse.mapVals {α : Type} (f : Nat → α → α) (m : Sparse α) : Sparse α := m.map (fun e => (e.1, f e.1 e.2))

theorem Sparse.get_set {α : Type} (d : α) (m : Sparse α) (i j : Nat) (x : α) :
    Sparse.get d (Sparse.set m i x) j = if i = j then x else Sparse.get d m j := by
  induction m with
  | nil => simp [Sparse.set, Sparse.get]
  | cons e r ih =>
    obtain ⟨k, v⟩ := e
    simp only [Sparse.set]
    split
    · simp [Sparse.get]
    · split
      · rename_i hk
        subst hk
        simp only [Sparse.get]
        split <;> rfl
      · rename_i hki
        simp only [Sparse.get, ih]
        split
        · rename_i hkj
          subst hkj
          rw [if_neg (fun h => hki h.symm)]
        · rfl

@[simp] theorem Sparse.get_set_same {α : Type} (d : α) (m : Sparse α) (i : Nat) (x : α) :
    Sparse.get d (Sparse.set m i x) i = x := by
  rw [Sparse.get_set, if_pos rfl]

theorem Sparse.get_set_other {α : Type} (d : α) (m : Sparse α) {i j : Nat} (x : α) (h : i ≠ j) :
    Sparse.get d (Sparse.set m i x) j = Sparse.get d m j := by
  rw [Sparse.get_set, if_neg h]

end Sys2Proof.Machine
end

