-- ==== Sys2Proof/Machine/TileTypes.lean ====
section
/-! DEFINITION. The plain data of one tile: scalar core, run state and parks, register block, windows, block unit,
matrix engine, vector engine, Tahr (spec/03 to spec/08, spec/17 section 17.7). -/

namespace Sys2Proof.Machine

/-- TILE_STATUS.STATE (Table 3-7). -/
inductive TileRun where
  | stopped | running | parked | faulted | halted
  deriving DecidableEq, Repr

/-- What a parked tile waits for (Table 3-7 PARK_CAUSE; R109, R116, R117, R90, R135). -/
inductive Park where
  /-- Not parked. -/
  | none
  /-- TWAIT on operation number `n` of a unit (R116). -/
  | token (unit n : Nat)
  /-- END waiting for every operation of every unit (R109). -/
  | endUnits
  /-- END waiting for its windows to drain (R109, R90). -/
  | endDrain
  /-- WCLOSE waiting for window `w` to drain (R90). -/
  | drain (w : Nat)
  /-- SWAIT on an object (by object key) for a generation newer than `gen` (R135). -/
  | sync (obj gen : Nat)
  /-- The tile holds at a superstep boundary for the quiesce (R481); cause SYNC_WAIT. -/
  | quiesce
  /-- An issue found the queue of the named unit full (R117). -/
  | full (unit : Nat)
  /-- A SEND or PUT found the message port without credit (Table 4-5). -/
  | credit
  deriving DecidableEq, Repr

/-- A register that an ARRIVE of the tile writes when its answer returns (R101, R290): the register, the flight id of the
ARRIVE, and whether a later write of the register has been made since, so that this answer is no longer written. -/
structure Await where
  reg : Nat
  id : Nat
  stale : Bool := false
  deriving DecidableEq, Repr

/-- PORT_STATE.STATE (Table 3-12). -/
inductive PortRun where
  | reset | opened | closed
  deriving DecidableEq, Repr

/-- One remote-write window (Table 3-14); `inFlight` counts accepted writes not yet committed (R90). -/
structure Window where
  base : Word := 0
  wend : Word := 0
  sender : Word := 0
  /-- SYNC_INDEX, SYNC_DEV, SYNC_EN; the OPEN bit is `opened`. -/
  ctrl : Word := 0
  count : Nat := 0
  opened : Bool := false
  inFlight : Nat := 0
  /-- Tahr (R464): the window is settled; receiving otherwise. -/
  settled : Bool := false
  deriving DecidableEq, Repr

/-- One outstanding block-unit operation (R80, R81). -/
structure BlockOp where
  num : Nat
  pc : Word
  copy : Bool
  dst : Nat
  src : Nat
  len : Nat
  pattern : Word
  deriving DecidableEq, Repr

/-- A matrix descriptor (Table 5-3), its fields as numbers. -/
structure MxDesc where
  fmtA : Nat
  fmtW : Nat
  dest : Bool
  init : Bool
  skip : Bool
  m : Nat
  kt : Nat
  tensor : Nat
  aBase : Nat
  aRowPitch : Nat
  aKtPitch : Nat
  asBase : Nat
  asKtPitch : Nat
  wBase : Nat
  wPitch : Nat
  cBase : Nat
  outBase : Nat
  outPitch : Nat
  colmask : Nat
  descale : Nat
  /-- Whether every reserved field is 0. -/
  reservedOk : Bool
  deriving DecidableEq, Repr

/-- One outstanding matrix operation (R140, R177): its descriptor, the copied skip registers, and, once emission has begun,
the lines still to be committed or the entries still to be pushed. -/
structure MxOp where
  num : Nat
  pc : Word
  desc : MxDesc
  skipCtrl : Nat
  skipThresh : Nat
  /-- Emission has begun (R153, R154): every input has been read. -/
  emitting : Bool
  /-- DEST = 0: lines of 32 binary32 values not yet committed; DEST = 1: entries of 1,024 not yet pushed. -/
  rest : List (List Word)
  /-- The fewest beats that the operation takes (R161), once emission has begun. -/
  beats : Nat := 0
  /-- Cells of skipped columns did no multiplication in it (R180), once emission has begun. -/
  idle : Bool := false
  deriving DecidableEq, Repr

/-- The matrix engine's buffers (R140): the weight tile in use and the one loaded beside it, and the accumulator store, row
by row, as the operation in emission leaves them. Nothing addresses them. -/
structure MxStore where
  weights : List Byte := []
  loading : List Byte := []
  acc : List Word := []
  deriving DecidableEq, Repr

/-- One skip slot (Tables 6-3, 6-4) with its period counters and HI latches. -/
structure SkipSlot where
  ctrl : Nat := 0x0C
  thresh : Word := 0
  elems : Nat := 0
  sampled : Nat := 0
  miss : Nat := 0
  elemsHi : Word := 0
  sampledHi : Word := 0
  missHi : Word := 0
  /-- TENSOR_NAME of the slot's declaration: the tensor that it serves (Table 17-4; log 89). -/
  name : Nat := 0
  deriving DecidableEq, Repr

/-- A stream descriptor (Table 7-1), its fields as numbers. -/
structure StreamDesc where
  rnd : Nat
  scale : Nat
  tensor : Nat
  rep : Nat
  rowPitch : Nat
  rowLen : Nat
  fmt : Nat
  loc : Bool
  base : Nat
  reservedOk : Bool
  deriving DecidableEq, Repr

/-- The vector operations of Table 7-3. -/
inductive Vop where
  | mov | add | sub | mul | fma | min | max | abs | neg | div | sqrt | relu | clamp
  | exp | exp2 | log | rcp | rsqrt | tanh | sigm | gelu | silu
  | cmpgt | cmpge | cmpeq | cmpne | sel
  | sum64 | sum64a | ssq64 | ssq64a | dot64 | dot64a | maxr
  | segr | sel24 | sel24q
  deriving DecidableEq, Repr

/-- A vector operand as resolved at issue: a stream slot with the binding and position that the operation has at its
place in the queue (R192), the finished-tile queue, or a relay slot (Table 4-6). -/
inductive VOperand where
  | none
  | slot (k : Nat) (desc : StreamDesc) (pos : Nat)
  | ftq
  | relay (k : Nat)
  deriving DecidableEq, Repr

/-- One vector operation in the queue (R120, R225): operands, flags, copied VLEN, step counter and seed, its chain, and
the block-scale streams of its E2M1 operands by slot. -/
structure VecOp where
  num : Nat
  pc : Word
  vop : Vop
  dst : VOperand
  sa : VOperand
  sb : VOperand
  sc : VOperand
  pred : VOperand
  z : Bool
  vlen : Nat
  step : Nat
  seed : Nat
  chain : Nat
  /-- Block-scale bindings (slot k + 1 of an E2M1 stream in slot k, R194). -/
  scales : List (Nat × StreamDesc)
  /-- Its effects have been committed; the token has not completed yet. -/
  done : Bool
  deriving DecidableEq, Repr

/-- One entry of the vector queue in issue order: an operation, a binding (R192) or an FTQ_CLR (R214). -/
inductive VecEntry where
  | op (o : VecOp)
  | bind (k : Nat) (desc : StreamDesc) (pc : Word)
  | ftqClr
  deriving DecidableEq, Repr

/-- One stream slot as the issue side sees it: the binding and the position at the tail of the queue. -/
structure IssueSlot where
  desc : Option StreamDesc := none
  pos : Nat := 0
  /-- An issued operation names the binding as its destination (R463). -/
  usedDst : Bool := false
  deriving DecidableEq, Repr

/-- One stream slot as the running side sees it: the binding in force, whether its record was brought up to date
(R226), whether it was used as a destination (R214), and the counters of R213, AMAX as the exact magnitude. -/
structure ExecSlot where
  desc : Option StreamDesc := none
  rolled : Bool := false
  usedDst : Bool := false
  amax : FVal := fzero
  nonfin : Nat := 0
  sat : Nat := 0
  deriving DecidableEq, Repr

/-- A relay slot as the issue side sees it: empty, or owed by a writer of the given VLEN and chain (R199). -/
structure Relay where
  owed : Bool := false
  vlen : Nat := 0
  chain : Nat := 0
  deriving DecidableEq, Repr

/-- A destination extent of a chain member still in the queue, kept for R200: cache or memory, first byte, length. -/
structure ChainExt where
  loc : Bool
  lo : Nat
  len : Nat
  deriving DecidableEq, Repr

/-- The vector engine (R189). -/
structure VecUnit where
  vlen : Nat := 0
  issue : Sparse IssueSlot := []
  slots : Sparse ExecSlot := []
  relays : Sparse Relay := []
  queue : List VecEntry := []
  /-- The chain that the next issue may join, its members so far and their destination extents (R200). -/
  chain : Nat := 0
  chainLen : Nat := 0
  chainExts : List ChainExt := []
  /-- Elements already consumed from the finished-tile queue by the chain at the head of the queue (R203). -/
  taken : List Word := []
  /-- The finished-tile queue's counters (R213). -/
  ftqAmax : FVal := fzero
  ftqNonfin : Nat := 0
  ftqSat : Nat := 0
  /-- The 32 KiB operand cache (R202), one canonical list of its non-zero bytes. -/
  cache : List (Nat × Byte) := []
  /-- Operand-cache words that hold an uncorrectable error, and a correctable one (R202; log 14). -/
  cacheBad : List Nat := []
  cacheSoft : List Nat := []
  nonfinCnt : Nat := 0
  satCnt : Nat := 0
  nonfinHi : Word := 0
  satHi : Word := 0
  seedLo : Word := 0
  seedHi : Word := 0
  stepCtr : Word := 0
  deriving DecidableEq, Repr

/-- The finished-tile queue (R157): entries of 1,024 values, oldest first, and the elements of the oldest already
consumed. -/
structure Ftq where
  entries : List (List Word) := []
  consumed : Nat := 0
  deriving DecidableEq, Repr

/-- A Tahr reservation (R463): the unit and operation number that hold it, its extent, and whether it writes. -/
structure TahrRes where
  unit : Nat
  num : Nat
  lo : Nat
  len : Nat
  write : Bool
  deriving DecidableEq, Repr

/-- The Tahr registers and reservations of a tile (Table 17-11, R463 to R467). -/
structure Tahr where
  res : List TahrRes := []
  valid : Bool := false
  arrival : Bool := false
  code : Byte := 0
  pc : Word := 0
  addr : DWord := 0
  other : Word := 0
  count : Nat := 0
  /-- The next issue executes once without the check that raised the recorded issue trap, named by its code (R465). -/
  pass : Option Nat := none
  /-- Arrival traps that wait for the next instruction boundary (R465): code, address, sender, oldest first. -/
  waiting : List (Nat × Nat × Nat) := []
  deriving DecidableEq, Repr

/-- What the fault handler posts of a tile newly halted by a Tahr trap or BRK (R469): UNIT, code, offset, address. -/
structure HaltNote where
  unit : Nat
  code : Nat
  pc : Nat
  addr : Nat
  deriving DecidableEq, Repr

end Sys2Proof.Machine
end

