-- ==== Sys2Proof/Machine/NetTypes.lean ====
section
/-! DEFINITION. The plain data of sync objects (spec/10), active messages and inbound rings (spec/09), remote writes
and sums in flight (spec/03, spec/11), and herd-mover transfers (spec/12). -/

namespace Sys2Proof.Machine

/-- A sync object (Table 10-1). `parked` lists each wait parked at it as (tile, awaited generation) (R289); WAITERS counts
them, and is a register that Ibex firmware can also write (R9; log 53). -/
structure SyncObj where
  target : Nat := 0
  value : Nat := 0
  gen : Nat := 0
  relSat : Bool := false
  misuse : Bool := false
  underflow : Bool := false
  overflow : Bool := false
  /-- 0 counter, 1 barrier, 2 flag. -/
  mode : Nat := 0
  early : Nat := 0
  parked : List (Nat × Nat) := []
  waiters : Nat := 0
  srcKind : Nat := 0
  srcId : Nat := 0
  releases : Nat := 0
  /-- The ledger's own count (R297): VALUE at the reference point and the signals and arrivals counted since, less TARGET for
  each release that takes it. -/
  due : Int := 0
  deriving DecidableEq, Repr

/-- An arrival-table entry of a tile (Table 10-3, R290): live, or reserved until its first answer; `waiting` while an
ARRIVE at the reference awaits its answer. -/
structure ArrEntry where
  ref : Word := 0
  live : Bool := false
  waiting : Bool := false
  round : Nat := 0
  deriving DecidableEq, Repr

/-- The answer of an arrival (R290): the round counted into, or the fault it raises at the tile. -/
inductive ArrAnswer where
  | round (gen : Nat)
  | modeFault
  | misuse
  deriving DecidableEq, Repr

/-- A sync operation or sync answer in the network (Table 11-2, classes 0x5 and 0x6). -/
inductive SyncMsg where
  /-- A signal of a signed amount, with what SO_LAST records of its source (Table 10-1); `unit` is the unit that sends the
  packet, as SRC and SRC_KIND of its route word name it (Table 11-1). -/
  | signal (obj : Nat) (amount : Int) (srcKind srcId : Nat) (unit : Nat × Nat)
  /-- An arrival of a tile; `first` or for `round` (R290). -/
  | arrival (tile obj : Nat) (ref : Word) (rd : Nat) (pc : Word) (first : Bool) (round : Nat)
  /-- The answer to an arrival, on its way to the tile. -/
  | answer (tile obj : Nat) (ref : Word) (rd : Nat) (pc : Word) (ans : ArrAnswer)
  /-- A wait of a tile for a generation newer than `gen` (R135). -/
  | wait (tile obj : Nat) (gen : Nat)
  deriving DecidableEq, Repr

/-- A sync operation or answer with the sender's job id of its route word and the times it has been sent again (R302,
R303). -/
structure SyncPkt where
  job : Nat
  op : SyncMsg
  resends : Nat := 0
  deriving DecidableEq, Repr

/-- The number of the control crossing, which Ibex firmware's and the Kudus' signals come through (log 77). -/
def controlCrossing : Nat := 33

/-- An answer of a receiving port on its way to the sender (Table 9-3, R259). -/
inductive PortAns where
  | grant
  | admitted
  | retry
  /-- The outcome: status, LANDED, DIRECT (Table 9-5). -/
  | outcome (status landed : Nat) (direct : Bool)
  deriving DecidableEq, Repr

/-- The outcome PARTITION, which the sender's own port gives: no packet of it enters the network (R247). -/
def PortAns.isLocal : PortAns → Bool
  | .outcome 5 _ _ => true
  | _ => false

/-- Where a message stands at its sender (R259, R561). -/
inductive SendPhase where
  /-- No request sent yet: an earlier request to the same receiver is outstanding. -/
  | unsent
  /-- The request has been sent and not yet answered. -/
  | requested
  /-- Admitted to the receiver's wait list. -/
  | admitted
  /-- Answered RETRY; the 64-beat delay runs. -/
  | retryWait
  /-- The packet has been sent. -/
  | packet
  /-- Ended by its tile's stop or fault; the answer is still awaited. -/
  | orphaned
  /-- Nothing more happens at the sender. -/
  | closed
  deriving DecidableEq, Repr

/-- Where a message stands between the network and its receiver. -/
inductive RecvPhase where
  | idle
  /-- The reservation request is in the network. -/
  | request
  | waitListed
  /-- Granted; the packet has not been sent or has not arrived. -/
  | granted
  /-- The packet is in the network. -/
  | packet
  /-- The packet failed its check and is to be sent again (R263). -/
  | rewound
  /-- Written; its last word has not committed yet. -/
  | landed
  | closed
  deriving DecidableEq, Repr

/-- An active message in flight (R246, R256, R263): the filled header, the sender's operands, and both ends' state. -/
structure Msg where
  sender : Nat
  num : Nat
  pc : Word
  /-- The header as filled by the sender's port (Table 9-1), 128 bits. -/
  hdr : Nat
  payload : Nat
  status : Nat
  send : SendPhase := .unsent
  recv : RecvPhase := .idle
  answers : List PortAns := []
  retries : Nat := 0
  resends : Nat := 0
  /-- How often the answer on its way has failed its check (R303). -/
  ansResends : Nat := 0
  /-- The granted space: herd-memory offset, and whether it is a landing buffer. -/
  landed : Nat := 0
  direct : Bool := false
  /-- The handler word in force when the request was checked (R255). -/
  handler : Word := 0
  /-- The number of HSETs on the entry at that moment (R254). -/
  hsets : Nat := 0
  /-- A withdrawal is in the network (R561). -/
  withdrawal : Bool := false
  deriving DecidableEq, Repr

/-- A record of an inbound ring, in grant order (R264 to R267). -/
inductive RingRec where
  /-- A message, by its flight id: offset, footprint, committed. -/
  | msg (id off size : Nat) (committed : Bool)
  | marker (off size : Nat)
  | void (off size : Nat)
  deriving DecidableEq, Repr

/-- An operation outstanding in a tile's message port (Table 4-5): a SEND or a PUT, by its flight id. -/
structure PortOp where
  num : Nat
  send : Bool
  id : Nat
  deriving DecidableEq, Repr

/-- The message port of a tile (spec/09). -/
structure PortUnit where
  state : PortRun := .reset
  queue : List PortOp := []
  handlers : Sparse Word := []
  /-- Busy DIRECT handlers (R252). -/
  busy : List Nat := []
  /-- HSETs executed on each entry (R254). -/
  hsets : Sparse Nat := []
  ring : List RingRec := []
  readPos : Nat := 0
  writePos : Nat := 0
  /-- Flight ids of waiting requests, oldest first (R258). -/
  waitList : List Nat := []
  job : Nat := 0
  deriving DecidableEq, Repr

/-- Where a remote write stands (R87, R88, R263). -/
inductive PutPhase where
  | inNet
  /-- Accepted at the check point; its last word has not committed yet. -/
  | accepted
  /-- Its outcome is on the way to the sender. -/
  | answered (status : Nat)
  deriving DecidableEq, Repr

/-- A remote write or sum contribution in flight: a PUT of a tile, or a FORWARD row of a tile's transfer. -/
structure RemoteWrite where
  /-- The tile that issued the PUT or the MOVE. -/
  sender : Nat
  num : Nat
  pc : Word
  /-- The row of a FORWARD; `none` for a PUT. -/
  row : Option Nat
  job : Nat
  dst : Nat
  window : Nat
  dstOff : Nat
  len : Nat
  /-- PUT: source offset in the sender's region. -/
  src : Nat
  sum : Bool
  statusOff : Nat
  /-- The row's bytes of a FORWARD. -/
  data : List Byte := []
  phase : PutPhase := .inNet
  resends : Nat := 0
  ansResends : Nat := 0
  /-- The sender's token still awaits the outcome. -/
  live : Bool := true
  deriving DecidableEq, Repr

/-- An open in-flight sum (R305 to R308): the window and DST_OFF that name it at its receiving tile, LENGTH, the
contributors, those accepted, the nodes held as (level, index), and whether the hub adder serves it. -/
structure SumCtx where
  tile : Nat
  window : Nat
  dstOff : Nat
  len : Nat
  contribs : Nat
  accepted : List Nat
  held : List (Nat × Nat)
  hub : Bool
  deriving DecidableEq, Repr

/-- A herd-mover descriptor (Table 12-6), its fields as numbers. -/
structure MvDesc where
  kind : Nat
  sig : Bool
  dstTile : Nat
  window : Nat
  link : Nat
  redEntry : Nat
  contrib : Nat
  rows : Nat
  rowBytes : Nat
  loc : Nat
  locPitch : Nat
  addr : Nat
  addrPitch : Nat
  syncRef : Word
  status : Nat
  reservedOk : Bool
  deriving DecidableEq, Repr

/-- One outstanding herd-mover transfer (R331 to R338): blocks done, read data on its way back, retries per block,
FORWARD data read so far, rows sent and answered, the statuses of refused rows by row, and whether it awaits an
end-to-end answer (LINK_WRITE). -/
structure MoverOp where
  num : Nat
  pc : Word
  desc : MvDesc
  /-- The next block in row order that the mover has not placed into a crossing (R332), the blocks that it is to read
  again (R328), and those placed and not delivered (R331). -/
  next : Nat := 0
  again : List Nat := []
  placed : List Nat := []
  done : Sparse Bool := []
  answers : Sparse (List Byte) := []
  retries : Sparse Nat := []
  buffered : Sparse (List Byte) := []
  rowsSent : Nat := 0
  rowsAnswered : Nat := 0
  refused : Sparse Nat := []
  /-- A FORWARD out of the partition, of which nothing is sent (R334). -/
  outside : Bool := false
  sentAll : Bool := false
  /-- LINK_WRITE: the job's link step at issue (R413), and the transfer number on its link. -/
  linkStep : Nat := 0
  xfer : Nat := 0
  /-- LINK_WRITE: the end-to-end answer has come back and was OK. -/
  answeredOk : Bool := false
  deriving DecidableEq, Repr

/-- A crossing entry (R49): block `block` of transfer `num` of a tile, its device address, and whether it is written. -/
structure XBlock where
  tile : Nat
  num : Nat
  block : Nat
  addr : Nat
  write : Bool
  deriving DecidableEq, Repr

/-- A crossing into a memory controller's region or into CXL, 32 entries in each direction (R49). -/
structure Crossing where
  out : List XBlock := []
  back : List XBlock := []
  deriving DecidableEq, Repr

/-- A herd mover's rotation over the tiles of its herd, one 4 KiB piece at a time (R331): whose turn it is, and the blocks
left of the piece. -/
structure MoverTurn where
  slot : Nat := 0
  left : Nat := 64
  deriving DecidableEq, Repr

end Sys2Proof.Machine
end

