-- ==== Sys2Proof/Machine/BoxTypes.lean ====
section
/-! DEFINITION. The plain data of mailboxes, Septup commands and completion records (spec/16). -/

namespace Sys2Proof.Machine

/-- MB_STATE.FW (Table 16-1). -/
inductive FwState where
  | rom | loading | ready | stopped
  deriving DecidableEq, Repr

/-- A completion record (Table 16-4). `src` is an event's source for the merge of R435 and is not written. -/
structure Record where
  detail : List Byte := []
  aux : Nat := 0
  failItem : Nat := 0xFFFF
  applied : Nat := 0
  tag : Nat := 0
  opcode : Nat := 0
  seq : Nat := 0
  stamp : Nat := 0
  status : Nat := 0
  event : Bool := false
  final : Bool := true
  src : Nat := 0
  deriving DecidableEq, Repr

/-- How far a taken command has come: not started, waiting for an action to run, or waiting after an interim record. -/
inductive CmdPhase where
  | taken | waiting | deferred
  deriving DecidableEq, Repr

/-- A taken command without a final record: its header fields and items (Tables 16-2, 16-3). -/
structure Cmd where
  seq : Nat
  opcode : Nat
  kind : Nat
  index : Nat
  tag : Nat
  resultAddr : Nat
  resultLen : Nat
  /-- Items as (id, value), in order. -/
  items : List (Nat × Nat)
  /-- Every reserved field and the LENGTH and ITEMS relation are as Tables 16-2 and 16-3 require. -/
  formOk : Bool
  phase : CmdPhase := .taken
  /-- The order in which doorbells of all mailboxes were taken (R431). -/
  order : Nat := 0
  /-- Items applied so far. -/
  applied : Nat := 0
  deriving DecidableEq, Repr

/-- A mailbox (Table 16-1). -/
structure Mailbox where
  taken : Nat := 0
  /-- The SEQ of an untaken doorbell (R427). -/
  doorbell : Option Nat := none
  ringErr : Bool := false
  dbErr : Bool := false
  crBase : Nat := 0
  crSize : Nat := 0
  head : Nat := 0
  tail : Nat := 0
  enable : Bool := false
  evMerged : Nat := 0
  /-- The 4 KiB command buffer: its non-zero bytes by offset. -/
  buffer : List (Nat × Byte) := []
  cmds : List Cmd := []
  held : List Record := []
  /-- The record last written to the ring, and the ring index it took. -/
  last : Option Record := none
  deriving DecidableEq, Repr

end Sys2Proof.Machine
end

