-- ==== Sys2Proof/Machine/MemTypes.lean ====
section
/-! DEFINITION. The plain data of memory controllers (spec/12 section 12.7), of Kudu's reduction and commit tables
(spec/13, spec/14) and of the CXL.mem range (R342). -/

namespace Sys2Proof.Machine

/-- MC_STATE.STATE (Table 12-12). -/
inductive McRun where
  | disabled | training | enabled | failed
  deriving DecidableEq, Repr

/-- A memory controller (Table 12-12); unit u is stack u below 16, else channel u − 16. -/
structure Mc where
  run : McRun := .disabled
  countSat : Bool := false
  gib : Nat := 0
  ce : Nat := 0
  crcRetry : Nat := 0
  crcFail : Nat := 0
  ue : Nat := 0
  scrub : Nat := 0
  ueAddr : Nat := 0
  ueSrc : Nat := 0
  ueValid : Bool := false
  double : Bool := false
  deriving DecidableEq, Repr

/-- The CXL.mem range of the DDR tier (R342): bytes, whether a size is set, exposed to the host or held by a partition. -/
structure CxlMem where
  base : Nat := 0
  size : Nat := 0
  exposed : Bool := false
  /-- The partition that holds the range while it is not exposed; 0 none. -/
  owner : Nat := 0
  deriving DecidableEq, Repr

/-- STATE of a reduction entry (Table 13-1). -/
inductive RedRun where
  | free | opened | ring | complete | closing | faulted
  deriving DecidableEq, Repr

/-- The tree of one block of a share in the open round (R355): contributors accepted, held nodes with their values, and
whether its root has formed. -/
structure RedTree where
  accepted : List Nat := []
  held : List (Nat × Nat × List Nat) := []
  rooted : Bool := false
  deriving DecidableEq, Repr

/-- A contribution block that waits for a pool block (R353): the transfer, its block, and the data. -/
structure RedWait where
  tile : Nat
  num : Nat
  block : Nat
  contrib : Nat
  index : Nat
  data : List Nat
  deriving DecidableEq, Repr

/-- A ring packet of one segment as it travels (R360): scatter of a hop, or gather. -/
structure RingPkt where
  tag : Nat
  step : Nat
  seg : Nat
  hop : Nat
  gather : Bool
  nf : Bool
  data : List Nat
  deriving DecidableEq, Repr

/-- A reduction job table entry of one Kudu (Table 13-1) with its open round and its ring stage. -/
structure RedEntry where
  bufBase : Nat := 0
  stageBase : Nat := 0
  bufGrans : Nat := 0
  stageBlocks : Nat := 0
  step : Nat := 0
  syncRef : Word := 0
  elemBase : Nat := 0
  tensor : Nat := 0
  ringTag : Nat := 0
  contribs : Nat := 0
  expectRounds : Nat := 0
  rounds : Nat := 0
  accepted : Nat := 0
  job : Nat := 0
  nextLink : Nat := 0
  ringPos : Nat := 0
  ringLen : Nat := 0
  ringFmt : Bool := false
  globalNf : Bool := false
  localNf : Bool := false
  nfReady : Bool := false
  kuduNf : Bool := false
  fault : Nat := 0
  state : RedRun := .free
  trees : Sparse RedTree := []
  waiting : List RedWait := []
  /-- Module time of the last round close (R365). -/
  closedAt : Nat := 0
  /-- The scatter packet in the ring room, until the local rounds are complete (R360). -/
  scatterIn : Option RingPkt := none
  /-- Segments whose hop this module has performed, segments gathered or owned and written, and owned segments whose
  final value waits for NF_READY. -/
  hopsDone : List Nat := []
  gathered : List Nat := []
  finals : List (Nat × List Nat) := []
  /-- The OR of the NF bits received (R366). -/
  nfIn : Bool := false
  /-- Ring packets that keep their credits, with their links: one step ahead (R414), or waiting for the ring room (R360). -/
  ringHeld : List (Nat × RingPkt) := []
  /-- The entry was in RING when it was disabled: its ring stage goes on in CLOSING (R368). -/
  closingRing : Bool := false
  deriving DecidableEq, Repr

/-- CSTATE of a commit entry (Table 14-2). -/
inductive ComRun where
  | off | ready | committing | closing
  deriving DecidableEq, Repr

/-- A commit table entry of one Kudu (Table 14-2). -/
structure ComEntry where
  shardRec : Nat := 0
  master0 : Nat := 0
  master1 : Nat := 0
  m10 : Nat := 0
  m11 : Nat := 0
  m20 : Nat := 0
  m21 : Nat := 0
  workBase : Nat := 0
  commitRef : Word := 0
  used : Nat := 0
  hdrBytes : Nat := 0
  recBytes : Nat := 0
  workExp : Nat := 0
  workFmt : Nat := 0
  workLayout : Bool := false
  digestEvery : Nat := 0
  b1 : Nat := 0
  a1 : Nat := 0
  b2 : Nat := 0
  a2 : Nat := 0
  eps : Nat := 0
  wd : Nat := 0
  rule : Nat := 0
  state : ComRun := .off
  /-- An accepted commit has not finished; in CLOSING too (R375). -/
  busy : Bool := false
  /-- A request block has reached the request address and stands before the Kudu (R377). -/
  request : Bool := false
  /-- The request is held for the health sweep or a checkpoint copy (R517, R521). -/
  held : Bool := false
  /-- The transfer blocks whose answers wait for it, as (tile, number, block) (R57). -/
  askers : List (Nat × Nat × Nat) := []
  /-- An enable has succeeded for the job that its reduction entry names: COMMIT_RECOVER examines the entry (R386). -/
  enabledOnce : Bool := false
  /-- Neighbours' digests held for this share, as (link, step, commit count, digest) (R389, R414). -/
  digestIn : List (Nat × Nat × Nat × Nat) := []
  deriving DecidableEq, Repr

/-- A Kudu's registers (Table 13-2). -/
structure Kudu where
  countSat : Bool := false
  accept : Nat := 0
  acceptHi : Word := 0
  poolWait : Nat := 0
  deriving DecidableEq, Repr

end Sys2Proof.Machine
end

