-- ==== Sys2Proof/Machine/LinkTypes.lean ====
section
/-! DEFINITION. The plain data of Frecel links, engines and laser slots (spec/15, spec/22 R554): registers, link layer,
transfers on their way in, and what leaves the module. -/

namespace Sys2Proof.Machine

/-- LK_STATE.STATE (Table 15-4). -/
inductive LinkRun where
  | disabled | down | training | up | retraining | failed | closing
  deriving DecidableEq, Repr

/-- A link block in the replay buffer or waiting to be sent: its lane, how often it has been sent (R398), and what its
header carries: what names its content, its tags (R413), and what it carries back (Table 15-1). -/
structure TxBlock where
  seq : Nat := 0
  lane : Nat
  kind : Nat := 0
  stack : Nat := 0
  xfer : Nat := 0
  /-- STEP_TAG, SS_TAG, CONCORD_TAG. -/
  step : Nat := 0
  ssTag : Nat := 0
  tag : Nat := 0
  sends : Nat := 0
  ack : Nat := 0
  nak : Bool := false
  crLane : Nat := 0
  credits : Nat := 0
  deriving DecidableEq, Repr

/-- A block received: header fields and payload (Table 15-1). -/
structure RxBlock where
  lane : Nat
  kind : Nat
  step : Nat
  tag : Nat
  xfer : Nat
  data : List Byte
  deriving DecidableEq, Repr

/-- An inbound transfer (R410): its rows and the bytes already landed. -/
structure Landing where
  xfer : Nat
  addr : Nat
  pitch : Nat
  rows : Nat
  rowBytes : Nat
  done : Nat := 0
  /-- The transfer was refused: its blocks are discarded. -/
  refused : Bool := false
  /-- It lands in a buddy slot (R521). -/
  buddy : Bool := false
  deriving DecidableEq, Repr

/-- What a neighbour sends for the concord check (R422): coordinates, serial, eight item digests. -/
structure ConcordMsg where
  x : Nat
  y : Nat
  z : Nat
  serial : Nat
  digests : List Byte
  deriving DecidableEq, Repr

/-- One Frecel link (Table 15-4) with its link layer (R397 to R399). -/
structure Link where
  run : LinkRun := .disabled
  light : Nat := 0
  swapped : Bool := false
  miscabled : Bool := false
  farSerial : Nat := 0
  farLink : Nat := 0
  /-- The face declared by the host at enable. -/
  face : Nat := 0
  landBase : Nat := 0
  landSize : Nat := 0
  landSync : Word := 0
  syncEn : Bool := false
  rxStep : Nat := 0
  bindTag : Nat := 0
  resend : Nat := 0
  retrain : Nat := 0
  crcFail : Nat := 0
  held : Nat := 0
  foreign : Nat := 0
  refused : Nat := 0
  tx : Nat := 0
  txHi : Word := 0
  txSeq : Nat := 0
  /-- Blocks that wait for a credit, for room or for the link. -/
  waiting : List TxBlock := []
  replay : List TxBlock := []
  /-- Credits to send on the program, Kudu and control lanes. -/
  credit0 : Nat := 0
  credit1 : Nat := 0
  credit2 : Nat := 0
  rxSeq : Nat := 0
  /-- A block has been discarded since the last header sent (R397). -/
  nak : Bool := false
  /-- Receive-buffer blocks whose credit is still to be returned, by lane (R399). -/
  owed0 : Nat := 0
  owed1 : Nat := 0
  owed2 : Nat := 0
  /-- What a neighbour has sent for a concord check that this module has not begun (R422). -/
  concordIn : Option ConcordMsg := none
  /-- Verdict contributions for it, as (hop, value). -/
  verdictIn : List (Nat × Nat) := []
  /-- Blocks one step ahead (R414), then program-lane blocks delivered and not yet handled. -/
  heldBlocks : List RxBlock := []
  /-- Blocks in the receive buffers of the Kudu and control lanes that have not been handled (R399, R414). -/
  kuduIn : Nat := 0
  ctrlIn : Nat := 0
  /-- The link was retraining when its disable came: it drains once it is back (R400). -/
  darkClose : Bool := false
  delivered : List RxBlock := []
  landing : List Landing := []
  /-- Landed transfers whose signal is still to be made (R411). -/
  landed : Nat := 0
  /-- Transfer numbers of end-to-end answers received (R411). -/
  answers : List Nat := []
  nextXfer : Nat := 0
  deriving DecidableEq, Repr

/-- What the module gives to a link, in order: the content of the blocks that its lanes carry. -/
inductive LinkOut where
  /-- The header of a LINK_WRITE transfer, and a block of its data (R409). -/
  | write (link xfer step tag addr pitch rows rowBytes : Nat)
  | data (link xfer : Nat) (last : Bool) (bytes : List Byte)
  | ring (link stack : Nat) (pkt : RingPkt)
  /-- The end-to-end answer of an inbound transfer (R411). -/
  | answer (link xfer : Nat) (ok : Bool)
  /-- A job abort that module index `origin` began (R416). -/
  | abort (link origin : Nat)
  /-- A sweep contribution (R418): which sweep, the step, the hop, the value. -/
  | sweep (link kind step hop value : Nat)
  /-- Coordinates, serial and item digests of the concord check (R422). -/
  | concord (link x y z serial : Nat) (digests : List Byte)
  /-- Replica digests of a commit (R389). -/
  | digest (link entry stack k value : Nat)
  /-- A buddy checkpoint slot sent, or asked for (R522, R523). -/
  | buddy (link xfer slot step : Nat) (data : List Byte)
  | buddyAsk (link : Nat)
  deriving DecidableEq, Repr

/-- A laser source slot (R554): a module is present, shorted, powered. -/
structure Laser where
  present : Bool := true
  shorted : Bool := false
  powered : Bool := false
  deriving DecidableEq, Repr

end Sys2Proof.Machine
end

