-- ==== Sys2Proof/Machine/Memory.lean ====
section
/-! DEFINITION. The bytes of the module's addressed memories, keyed by device address (spec/01 R33, Table 1-6): herd
memories, HBM, the DDR tier, and what the module itself wrote to the host window. One canonical form: addresses
strictly rising, and no entry equal to what an unlisted address reads as. -/

namespace Sys2Proof.Machine

/-- Memory as a list of cells in canonical form. -/
abbrev Memory := List Host.Cell

/-- What an address reads as that the list does not name: 0 (DESIGN CHOICE, log 4: the spec gives no power-on
contents; R472 writes 0 to a partition's memories before any program of it runs). -/
def unlistedByte : Byte := 0

/-- The canonical form. -/
def memOrdered : Memory → Bool
  | [] => true
  | [e] => e.2 != unlistedByte
  | e :: f :: r => e.2 != unlistedByte && decide (e.1 < f.1) && memOrdered (f :: r)

/-- The canonical form of a memory: addresses strictly rising, no entry equal to the unlisted byte. -/
abbrev Memory.wf (m : Memory) : Prop := memOrdered m = true

/-- The byte at an address. -/
def readByte : Memory → Nat → Byte
  | [], _ => unlistedByte
  | (k, v) :: r, a => if k = a then v else readByte r a

/-- The memory with no entry at an address. -/
def eraseByte (m : Memory) (a : Nat) : Memory := m.filter (fun e => e.1 != a)

/-- Insert an entry in address order. -/
def insertByte : Memory → Nat → Byte → Memory
  | [], a, b => [(a, b)]
  | (k, v) :: r, a, b => if a < k then (a, b) :: (k, v) :: r else (k, v) :: insertByte r a b

/-- The memory with `b` at an address. -/
def writeByte (m : Memory) (a : Nat) (b : Byte) : Memory :=
  if b = unlistedByte then eraseByte m a else insertByte (eraseByte m a) a b

/-- The `n` bytes from an address upward. -/
def readBytes (m : Memory) (a : Nat) : Nat → List Byte
  | 0 => []
  | n + 1 => readByte m a :: readBytes m (a + 1) n

/-- The memory with a list of bytes written from an address upward. -/
def writeBytes (m : Memory) (a : Nat) : List Byte → Memory
  | [] => m
  | b :: r => writeBytes (writeByte m a b) (a + 1) r

/-- The little-endian number in `n` bytes at an address (R7). -/
def readNat (m : Memory) (a n : Nat) : Nat := leNat (readBytes m a n)
/-- The memory with a number's low `n` bytes written, little-endian (R7). -/
def writeNat (m : Memory) (a n v : Nat) : Memory := writeBytes m a (leBytes n v)

/-- The memory with `n` bytes from an address upward reading as 0 (R472). -/
def clearBytes (m : Memory) (a n : Nat) : Memory := m.filter (fun e => !(decide (a ≤ e.1 ∧ e.1 < a + n)))

/-- A list of cells brought into canonical form by writing each in turn. -/
def memOfCells (l : List Host.Cell) : Memory := l.foldl (fun m e => writeByte m e.1 e.2) []

end Sys2Proof.Machine
end

