-- ==== Sys2Proof/Machine/TileState.lean ====
section
/-! DEFINITION. One tile's state as a whole (spec/03 section 3.2 and 3.8, spec/04 section 4.5). -/

namespace Sys2Proof.Machine

/-- The loss registers of a tile (spec/20 Table 20-4). -/
structure LossRegs where
  /-- LOSS_VALUE. -/
  value : Word := 0
  /-- The posted value, and LOSS_STEP, the step of the pending post. -/
  post : Word := 0
  step : Word := 0
  posted : Bool := false
  lost : Bool := false
  deriving DecidableEq, Repr

/-- One tile. Counters of operations issued per unit stand in `issued` (units 1 to 5, R114, R115). -/
structure Tile where
  run : TileRun := .stopped
  park : Park := .none
  /-- The object whose answer to the tile's SWAIT is on its way back: it held at once, or has released since (R135, R289). -/
  syncReady : Option Nat := none
  /-- How often that answer has failed its check (R303). -/
  syncResends : Nat := 0
  /-- An SWAIT is on its way to its object: the tile issues nothing until it is taken (R135, R289). -/
  syncTravel : Bool := false
  regs : Vector Word 32 := Vector.replicate 32 0
  pc : Word := 0
  /-- The entry offset at which RUN = 1 starts the tile (R66, R93). -/
  entry : Word := 0
  beats : Nat := 0
  beatHi : Word := 0
  /-- The tile parks at its next instruction boundary for the quiesce (R481). -/
  hold : Bool := false
  /-- The GEN that the tile last observed of an object by SWAIT or SREAD (R464, log 20). -/
  seenGen : Sparse Nat := []
  /-- Registers that await an ARRIVE answer (R101, R290). -/
  awaits : List Await := []
  /-- Beats still to pass until a register may be read (Table 4-11, Result), by register (R101, R138). -/
  due : Sparse Nat := []
  countSat : Bool := false
  winSat : Bool := false
  eccSeen : Bool := false
  rewindSeen : Bool := false
  orphanSeen : Bool := false
  rejectSeen : Bool := false
  tahrMode : Bool := false
  runBit : Bool := false
  /-- The tile has executed END since its load (R445). -/
  ended : Bool := false
  /-- The halts by a Tahr trap or BRK that the fault handler has not posted yet (R469). -/
  haltNew : List HaltNote := []
  /-- Hints not yet collected by Chamois, by AHEAD; class 0 withdraws (R113, R495). -/
  hints : Sparse Nat := []
  faultUnit : Nat := 0
  faultCode : Nat := 0
  faultPc : Word := 0
  faultAddr : Nat := 0
  regionBase : Nat := 0
  regionSize : Nat := 0
  codeBase : Nat := 0
  codeSize : Nat := 0
  ringBase : Nat := 0
  ringSize : Nat := 0
  remoteReject : Nat := 0
  orphanCount : Nat := 0
  rewindCount : Nat := 0
  sumAbandon : Nat := 0
  windows : Sparse Window := []
  issued : Sparse Nat := []
  blocks : List BlockOp := []
  mx : List MxOp := []
  mxStore : MxStore := {}
  ftq : Ftq := {}
  skips : Sparse SkipSlot := []
  vec : VecUnit := {}
  port : PortUnit := {}
  mover : List MoverOp := []
  arrivals : Sparse ArrEntry := []
  tahr : Tahr := {}
  loss : LossRegs := {}
  deriving DecidableEq, Repr

/-- A tile right after reset (Tables 3-6 to 3-14): STOPPED, every register at its reset value, s1 to s31 and the
program counter 0 (DESIGN CHOICE, log 3: the spec gives them a value only at load). -/
def Tile.reset : Tile := {}

end Sys2Proof.Machine
end

