-- ==== Sys2Proof/Machine/JobTypes.lean ====
section
/-! DEFINITION. The plain data of jobs (spec/17, spec/18, spec/20) and of lifecycle objects (spec/16 section 16.6). -/

namespace Sys2Proof.Machine

/-- STATE of Table 18-6. -/
inductive JobRun where
  | loaded | ready | holding | ended | tornDown
  deriving DecidableEq, Repr

/-- One role (Table 17-2), sizes in bytes. -/
structure Role where
  entry : Nat := 0
  codeOff : Nat := 0
  codeSize : Nat := 0
  ringOff : Nat := 0
  ringSize : Nat := 0
  size : Nat := 0
  deriving DecidableEq, Repr

/-- A SYNC declaration (Table 17-4): `obj` is a herd object's number, or the image device object's. -/
structure SyncDecl where
  obj : Nat
  dev : Bool
  mode : Nat
  closing : Bool
  target : Nat
  deriving DecidableEq, Repr

/-- A SCALE declaration (Table 17-4). -/
structure ScaleDecl where
  mask : Nat
  off : Nat
  count : Nat
  deriving DecidableEq, Repr

/-- A SKIP declaration (Table 17-4). -/
structure SkipDecl where
  mask : Nat
  slot : Nat
  ctrl : Nat
  thresh : Word
  /-- TENSOR_NAME. -/
  name : Nat := 0
  deriving DecidableEq, Repr

/-- A LANDING declaration with its address and sync reference resolved (Table 17-4). -/
structure LandDecl where
  face : Nat
  base : Nat
  size : Nat
  sync : Word
  deriving DecidableEq, Repr

/-- An allotment: a range of device addresses that a job holds in one die range (R474). -/
structure Allot where
  base : Nat
  size : Nat
  deriving DecidableEq, Repr

/-- A saved context (Table 18-2): its tiles, its herd-memory bytes, its sync objects. -/
structure Ctx where
  tiles : Sparse Tile := []
  mem : Memory := []
  syncs : Sparse SyncObj := []
  deriving DecidableEq, Repr

/-- How far a teardown has come (Table 18-4): none, waiting for the quiesce answers, or past event 2. -/
inductive TdPhase where
  | none | quiesce | clean
  deriving DecidableEq, Repr

/-- The period fields of the accounting record (Table 18-6). -/
structure AcctPeriod where
  energy : Nat := 0
  bytes : Nat := 0
  vxBeats : Nat := 0
  mxBeats : Nat := 0
  heldNs : Nat := 0
  switches : Nat := 0
  supersteps : Nat := 0
  abandons : Nat := 0
  deriving DecidableEq, Repr

/-- A job's account: the period that runs, the last latched period, and the totals since load (R487). -/
structure Acct where
  now : AcctPeriod := {}
  latched : AcctPeriod := {}
  lifeEnergy : Nat := 0
  lifeBeats : Nat := 0
  lifeBytes : Nat := 0
  programErr : Bool := false
  deriving DecidableEq, Repr

/-- A checkpoint slot (R519 to R522): its step F and K; its bytes lie in the DDR tier. -/
structure CkptSlot where
  complete : Bool := false
  pinned : Bool := false
  step : Nat := 0
  k : Nat := 0
  /-- The sweep code on which it was taken. -/
  code : Nat := 0
  /-- The order in which slots became complete. -/
  order : Nat := 0
  /-- The commit entries that it holds, in order. -/
  entries : List Nat := []
  deriving DecidableEq, Repr

/-- What a module found at one face in the concord check (R422, Table 16-11): the face, the neighbour's serial and
coordinates as sent, the differing items as a bit set, and the cause, 0 where it agrees. -/
structure FaceReport where
  face : Nat
  serial : Nat := 0
  x : Nat := 0
  y : Nat := 0
  z : Nat := 0
  items : Nat := 0
  cause : Nat := 0
  deriving DecidableEq, Repr

/-- A JOB_START in its concord check (R422): its mailbox and SEQ, the eight item digests, the faces compared so far. -/
structure ConcordRun where
  mailbox : Nat
  seq : Nat
  digests : List Byte
  faces : List FaceReport := []
  deriving DecidableEq, Repr

/-- What HEALTH says of a step's post (Table 20-5a): whether this module found a spike, the NONFIN flag at the check, the loss. -/
structure PostSeen where
  spike : Bool := false
  nonfin : Bool := false
  loss : Nat := 0
  deriving DecidableEq, Repr

/-- A checkpoint being taken: slot, step, code, entries (die × 64 + entry) still to copy, whether the local copy and the
buddy transfers are done (R520 to R522). -/
structure CkptRun where
  slot : Nat
  step : Nat
  code : Nat
  entries : List Nat
  /-- What the post of its step was. -/
  seen : PostSeen := {}
  /-- The buddy transfer on its way: its link and transfer number. -/
  buddy : Option (Nat × Nat) := none
  written : Bool := false
  deriving DecidableEq, Repr

/-- The health check of a job (R514 to R517) and its counters (R515). -/
structure Health where
  alpha : Nat := 0x3C000000
  thresh : Nat := 0
  ckptEvery : Nat := 0
  /-- The EMA as a binary64 code. -/
  ema : Nat := 0
  warm : Nat := 0
  /-- The step of the last taken post, and what it was. -/
  postStep : Option Nat := none
  post : PostSeen := {}
  /-- The step of the last contribution to a health sweep on this module (R517). -/
  swept : Option Nat := none
  /-- The step of the last health sweep that completed on this module. -/
  sweptDone : Option Nat := none
  posts : Nat := 0
  spikes : Nat := 0
  noPosts : Nat := 0
  stale : Nat := 0
  lost : Nat := 0
  /-- CHECKPOINT ACTION 1 commands waiting for a checkpoint that begins after them: mailbox and SEQ. -/
  asked : List (Nat × Nat) := []
  /-- Those whose checkpoint has begun. -/
  taking : List (Nat × Nat) := []
  run : Option CkptRun := none
  local0 : CkptSlot := {}
  local1 : CkptSlot := {}
  buddy0 : CkptSlot := {}
  buddy1 : CkptSlot := {}
  /-- The reserved areas (R519): the first address and the size of each slot, in order local 0, 1, buddy 0, 1. -/
  areas : List Allot := []
  deriving DecidableEq, Repr

/-- A sweep of a job in progress (R418): kind 0 flag (R365), 1 verdict (R422), 2 health (R517), 3 checkpoint written
(R522); its step, the value combined so far, the axes still to run with the current one first, and the hops received on it
as (from the minus face, hop). -/
structure SweepRun where
  kind : Nat
  step : Nat
  value : Nat
  axes : List Nat
  got : List (Bool × Nat) := []
  deriving DecidableEq, Repr

/-- A sweep contribution that arrived before this module took part on its axis (R418). -/
structure SweepIn where
  kind : Nat
  step : Nat
  axis : Nat
  minus : Bool
  hop : Nat
  value : Nat
  /-- The link whose credit it keeps while its step lies ahead (R414). -/
  link : Option Nat := none
  deriving DecidableEq, Repr

/-- A release report on its way to Ibex (R315, R316): the closing object, its new GEN, and which of the partition's flags
FAULT, HALT and NONFIN were raised before it and reach Ibex before it. -/
structure Report where
  obj : Nat
  gen : Nat
  fault : Bool := false
  halt : Bool := false
  nonfin : Bool := false
  deriving DecidableEq, Repr

/-- A job (R249, spec/17, spec/18). -/
structure Job where
  part : Nat := 0
  state : JobRun := .loaded
  weight : Nat := 1
  tahr : Bool := false
  digest : List Byte := []
  devObjs : Nat := 0
  roles : List Role := []
  syncs : List SyncDecl := []
  scales : List ScaleDecl := []
  skips : List SkipDecl := []
  lands : List LandDecl := []
  /-- Allotments in HBM and DDR die ranges by die, in the host range, and the context areas (R474, R476). -/
  hbm : Sparse Allot := []
  ddr : Sparse Allot := []
  host : Allot := ⟨0, 0⟩
  ctxAreas : Sparse Allot := []
  seed : Nat := 0
  lx : Nat := 1
  ly : Nat := 1
  lz : Nat := 1
  nx : Nat := 0
  ny : Nat := 0
  nz : Nat := 0
  x : Nat := 0
  y : Nat := 0
  z : Nat := 0
  inst : Nat := 0
  resume : Nat := 0
  concordSecs : Nat := 30
  /-- The tiles have once run (R458). -/
  started : Bool := false
  /-- The job has held the herds since its load. -/
  everHeld : Bool := false
  /-- Commit-phase restart (R460): s11 bit 0. -/
  phaseRestart : Bool := false
  /-- The pass at which the job became ready, and the ns it has held the herds since load and since its switch-in. -/
  passBase : Rat := 0
  heldNs : Nat := 0
  sliceNs : Nat := 0
  linkStep : Nat := 0
  /-- The concord check in progress, the CONCORD_TAG, and whether the job's links are bound to it (R420, R422). -/
  concord : Option ConcordRun := none
  concordTag : Nat := 0
  bound : Bool := false
  /-- A job abort has been sent or forwarded (R416). -/
  abortSent : Bool := false
  /-- The voltage step in force when the job was switched out (Table 18-2). -/
  step : Nat := 0
  /-- Superstep tag: releases of the closing object (R278). -/
  superstep : Nat := 0
  /-- Release reports of the closing object on their way to Ibex, oldest first (R315, R316). -/
  reports : List Report := []
  /-- The last report that Ibex received. -/
  reported : Option Report := none
  ctx : Option Ctx := none
  td : TdPhase := .none
  /-- Herds that have answered the quiesce barrier (R315). -/
  answered : List Nat := []
  /-- JOB_ABORT commands that end with the teardown (R484): mailbox and SEQ. -/
  aborts : List (Nat × Nat) := []
  /-- A context fault without a faulted tile, waiting for the fault handler: code and device address (R468). -/
  ctxFault : Option (Nat × Nat) := none
  /-- Sweeps in progress, contributions that wait, results as (kind, step, value). -/
  sweeps : List SweepRun := []
  sweepIn : List SweepIn := []
  results : List (Nat × Nat × Nat) := []
  /-- Job aborts and buddy requests that came one step ahead, which keep their credits (R414): link, step, and the abort's
  origin, none for a buddy request. -/
  ctrlHeld : List (Nat × Nat × Option Nat) := []
  /-- What waits for a link of its face to be UP (R418): face, lane, blocks, STEP_TAG, content. -/
  faceWait : List (Nat × Nat × Nat × Nat × LinkOut) := []
  /-- The last replica difference that Ibex firmware found (R389): the share's key, and the link of the neighbour. -/
  diverged : Option (Nat × Nat) := none
  /-- Faces from which nothing came within CONCORD_TIMEOUT (R422): the verdict sweep goes on without them. -/
  silent : List Nat := []
  /-- A release report has come more than 1 µs after the last local round close of every entry (R365). -/
  nfRelease : Bool := false
  acct : Acct := {}
  /-- NONFIN and SAT counts that the job's tiles reached in this period before its last switch-out, and those that its tiles
  showed when it was put into the herds (Table 20-1). -/
  vecGone : Nat × Nat := (0, 0)
  vecFrom : Nat × Nat := (0, 0)
  /-- A counter of it saturated in this period before its last switch-out, and the units whose counters stood saturated when it was
  put into the herds (R491). -/
  satGone : Bool := false
  satFrom : List Nat := []
  health : Health := {}
  deriving DecidableEq, Repr

/-- The lifecycle states (R437). -/
inductive LifeRun where
  | off | starting | on | stopping
  deriving DecidableEq, Repr

/-- A lifecycle object: its state, its recorded configuration by item id, and the commands that wait on it as
(mailbox, SEQ) (Table 16-7). -/
structure Life where
  run : LifeRun := .off
  config : Sparse Nat := []
  /-- ENABLE commands that end with the start-up in progress. -/
  enables : List (Nat × Nat) := []
  /-- DISABLE commands that end when the object is OFF. -/
  disables : List (Nat × Nat) := []
  /-- The pending enable. -/
  pend : Option (Nat × Nat) := none
  deriving DecidableEq, Repr

end Sys2Proof.Machine
end

