-- ==== Sys2Proof/Machine/PartTypes.lean ====
section
/-! DEFINITION. The plain data of partitions (spec/18) and of the control channels (spec/11 section 11.4). -/

namespace Sys2Proof.Machine

/-- A partition's resources (Table 18-1) and its control-channel flags (Table 11-5). -/
structure Partition where
  /-- The partition owns its resources: from start-up until its shutdown has ended. -/
  live : Bool := false
  quads : List Nat := []
  links : List Nat := []
  /-- Bits 15:0 of HBM_SET, and the dedicated bit. -/
  hbmSet : Nat := 0
  hbmDedicated : Bool := false
  hbmBase : Nat := 0
  hbmSize : Nat := 0
  ddrSet : Nat := 0
  ddrDedicated : Bool := false
  ddrBase : Nat := 0
  ddrSize : Nat := 0
  /-- Device sync objects assigned, in increasing order (R471). -/
  devObjs : List Nat := []
  hostBase : Nat := 0
  hostSize : Nat := 0
  /-- NONFIN, FAULT and HALT flags as they stand on the control channel (R315). -/
  nonfin : Bool := false
  /-- Ibex firmware has received the NONFIN flag since it last cleared it. -/
  nonfinSeen : Bool := false
  fault : Bool := false
  halt : Bool := false
  /-- The job that holds the partition's herds; 0 none (R480). -/
  holding : Nat := 0
  /-- The job whose context lies in the herds, whether or not it holds them (log 18); 0 none. -/
  resident : Nat := 0
  /-- The job that is being switched in (R483); 0 none. -/
  incoming : Nat := 0
  /-- The pre-emption quiesce is armed (R481), and the switch-out has begun (R482). -/
  armed : Bool := false
  leaving : Bool := false
  /-- Herds that have received the quiesce barrier (R315). -/
  asked : List Nat := []
  /-- Hints collected by Chamois: boundaries ahead × 65,536 + tile, with the class (R495). -/
  hintAt : Sparse Nat := []
  deriving DecidableEq, Repr

end Sys2Proof.Machine
end

