-- ==== Sys2Proof/Machine/Sha.lean ====
section
/-! DEFINITION. SHA-256 over byte lists, as the image digest, the item digests and the measurements use it (spec/17 R448,
spec/15 R420, spec/21 R538; log 13). -/

namespace Sys2Proof.Machine

/-- A big-endian word. -/
def beNat (bs : List Byte) : Nat := bs.foldl (fun n b => n * 256 + b.toNat) 0
/-- A word's bytes, most significant first. -/
def beBytes (n w : Nat) : List Byte := (leBytes n w).reverse

/-! ## The constants

They are the first 32 bits of the fractional parts of square and cube roots of the first primes, so they are computed
from those. -/

/-- The primes below 312: the first 64. -/
def shaPrimes : List Nat :=
  ((List.range 312).drop 2).filter (fun p => ((List.range 18).drop 2).all (fun d => p % d != 0 || p == d))

/-- The largest `r` above `low`, within `n` more bits, whose power `e` is at most `x`. -/
def rootFrom (e x : Nat) : Nat → Nat → Nat
  | 0, low => low
  | n + 1, low => rootFrom e x n (if (low + 2 ^ n) ^ e ≤ x then low + 2 ^ n else low)

/-- The first 32 fractional bits of a root of `p`. -/
def rootBits (e p : Nat) : Nat := rootFrom e (p * 2 ^ (32 * e)) 37 0 % 2 ^ 32

/-- The starting words, and the constant of each round. -/
def shaStart : List Nat := (shaPrimes.take 8).map (rootBits 2)
def shaConstants : List Nat := shaPrimes.map (rootBits 3)

/-! ## Blocks -/

/-- A 32-bit word turned right by each of some amounts, and the results combined; `lost` says how far a last copy is moved
without turning, 0 for none. -/
def turned (amounts : List Nat) (lost x : Nat) : Nat :=
  amounts.foldl (fun r n => r ^^^ (x / 2 ^ n + x % 2 ^ n * 2 ^ (32 - n))) (if lost = 0 then 0 else x / 2 ^ lost)

/-- Sixteen schedule words extended, the latest first. -/
def shaExtend : Nat → List Nat → List Nat
  | 0, w => w
  | n + 1, w =>
    let at' (i : Nat) : Nat := w.getD (i - 1) 0
    shaExtend n ((turned [17, 19] 10 (at' 2) + at' 7 + turned [7, 18] 3 (at' 15) + at' 16) % 2 ^ 32 :: w)

/-- One round: the eight words move up by one, the fourth and the last taking the round's sum in. -/
def shaStep (v : List Nat) (kw : Nat × Nat) : List Nat :=
  match v with
  | [a, b, c, d, e, f, g, h] =>
    let t := turned [6, 11, 25] 0 e + (g ^^^ (e &&& (f ^^^ g))) + h + kw.1 + kw.2
    [(t + turned [2, 13, 22] 0 a + ((a &&& (b ^^^ c)) ^^^ (b &&& c))) % 2 ^ 32, a, b, c, (d + t) % 2 ^ 32, e, f, g]
  | _ => v

/-- One 64-byte block. -/
def shaBlock (v : List Nat) (b : List Byte) : List Nat :=
  let w := (shaExtend 48 ((chunks 4 b).map beNat).reverse).reverse
  List.zipWith (fun x y => (x + y) % 2 ^ 32) v ((List.zip shaConstants w).foldl shaStep v)

/-- The message closed by one bit, zeros, and its length in bits. -/
def shaPad (bs : List Byte) : List Byte :=
  bs ++ 0x80 :: (List.replicate ((119 - bs.length % 64) % 64) 0 ++ beBytes 8 (8 * bs.length))

/-- SHA-256. -/
def sha256 (bs : List Byte) : List Byte := ((chunks 64 (shaPad bs)).foldl shaBlock shaStart).flatMap (beBytes 4)

end Sys2Proof.Machine
end

