-- ==== Sys2Proof/Machine/Lms.lean ====
section
/-! DEFINITION. HSS signatures of two levels, their keys, their making and their verification (spec/21 R533, R536, R537; RFC 8554,
which they name; log 13, 51): the one-time signatures LMOTS_SHA256_N32_W8 and W4, and the trees of LMS_SHA256_M32. -/

namespace Sys2Proof.Machine

/-- `n` bytes from an offset, and the big-endian 32-bit word there. -/
def sliceOf (b : List Byte) (off n : Nat) : List Byte := (b.drop off).take n
def wordAt (b : List Byte) (off : Nat) : Nat := beNat (sliceOf b off 4)

/-- A parameter set of one level: the tree's height, the codes of tree and one-time signature, and the bits of a digit, 8 or 4. -/
structure LmsParams where
  height : Nat
  lms : Nat
  ots : Nat
  digit : Nat
  deriving DecidableEq, Repr
/-- LMS_SHA256_M32_H20 with LMOTS_SHA256_N32_W8, of the firmware and the identity key (R533, R536). -/
def lmsFirmware : LmsParams := ⟨20, 8, 4, 8⟩
/-- LMS_SHA256_M32_H15 and _H10 with LMOTS_SHA256_N32_W4, of the device key's two levels (R537). -/
def lmsDeviceTop : LmsParams := ⟨15, 7, 3, 4⟩
def lmsDeviceBlock : LmsParams := ⟨10, 6, 3, 4⟩

/-- Chains of a one-time key: the digits of a digest, and 2 or 3 of the checksum. -/
def otsChains (p : LmsParams) : Nat := if p.digit = 8 then 34 else 67
/-- The greatest digit, which is the number of steps of a whole chain. -/
def otsTop (p : LmsParams) : Nat := 2 ^ p.digit - 1
/-- Bytes of a one-time signature: type, randomiser, one value a chain. -/
def otsBytes (p : LmsParams) : Nat := 4 + 32 + 32 * otsChains p
/-- Bytes of a tree signature: leaf number, one-time signature, type, path. -/
def lmsSigBytes (p : LmsParams) : Nat := 4 + otsBytes p + 4 + 32 * p.height
/-- Bytes of a tree's public key: two types, identifier, root. -/
def lmsKeyBytes : Nat := 4 + 4 + 16 + 32

/-- The digits of some bytes, from the top down. -/
def digitsOf (p : LmsParams) (bs : List Byte) : List Nat :=
  if p.digit = 8 then bs.map (·.toNat) else bs.flatMap (fun b => [b.toNat / 16, b.toNat % 16])
/-- The digits of a digest, with those of the checksum after them. -/
def otsDigits (p : LmsParams) (digest : List Byte) : List Nat :=
  let ds := digitsOf p digest
  let sum := (ds.map (otsTop p - ·)).sum
  (ds ++ digitsOf p (beBytes 2 (if p.digit = 8 then sum else sum * 16))).take (otsChains p)

/-- `n` steps of chain `i` from digit `d`. -/
def otsChain (idq : List Byte) (i : Nat) : Nat → Nat → List Byte → List Byte
  | 0, _, v => v
  | n + 1, d, v => otsChain idq i n (d + 1) (sha256 (idq ++ beBytes 2 i ++ beBytes 1 d ++ v))

/-- What a leaf's one-time signature signs of a message, as digits. -/
def otsMessage (p : LmsParams) (idq random msg : List Byte) : List Nat :=
  otsDigits p (sha256 (idq ++ beBytes 2 0x8181 ++ random ++ msg))
/-- The one-time public key from the ends of its chains. -/
def otsEnds (p : LmsParams) (idq : List Byte) (ends : Nat → List Byte) : List Byte :=
  sha256 (idq ++ beBytes 2 0x8080 ++ (List.range (otsChains p)).flatMap ends)

/-- The one-time key that a signature of a message gives. -/
def otsKey (p : LmsParams) (ident : List Byte) (q : Nat) (sig msg : List Byte) : List Byte :=
  let idq := ident ++ beBytes 4 q
  let digits := otsMessage p idq (sliceOf sig 4 32) msg
  otsEnds p idq (fun i => otsChain idq i (otsTop p - digits.getD i 0) (digits.getD i 0) (sliceOf sig (36 + 32 * i) 32))

/-- A leaf of a tree from its one-time key, and an inner node from its two children. -/
def lmsLeaf (ident : List Byte) (node : Nat) (key : List Byte) : List Byte :=
  sha256 (ident ++ beBytes 4 node ++ beBytes 2 0x8282 ++ key)
def lmsInner (ident : List Byte) (node : Nat) (left right : List Byte) : List Byte :=
  sha256 (ident ++ beBytes 4 node ++ beBytes 2 0x8383 ++ left ++ right)

/-- The root above a node, by the path's siblings from the leaf up. -/
def lmsRoot (ident : List Byte) : List (List Byte) → Nat → List Byte → List Byte
  | [], _, v => v
  | s :: r, node, v =>
    lmsRoot ident r (node / 2) (if node % 2 = 1 then lmsInner ident (node / 2) s v else lmsInner ident (node / 2) v s)

/-- A tree signature of a message verifies under a tree's public key. -/
def lmsVerify (p : LmsParams) (key sig msg : List Byte) : Bool :=
  let ident := sliceOf key 8 16
  let q := wordAt sig 0
  let leaf := 2 ^ p.height + q
  let path := (List.range p.height).map (fun i => sliceOf sig (8 + otsBytes p + 32 * i) 32)
  let node := lmsLeaf ident leaf (otsKey p ident q (sliceOf sig 4 (otsBytes p)) msg)
  wordAt key 0 == p.lms && wordAt key 4 == p.ots && wordAt sig 4 == p.ots && wordAt sig (4 + otsBytes p) == p.lms
    && decide (q < 2 ^ p.height) && key.length == lmsKeyBytes && sig.length == lmsSigBytes p
    && lmsRoot ident path leaf node == sliceOf key 24 32

/-- An HSS signature of two levels verifies under a public key of 60 bytes: the upper tree signs the lower one's key, and the
lower tree the message. -/
def hssVerify (top low : LmsParams) (key msg sig : List Byte) : Bool :=
  let n := lmsSigBytes top
  let lower := sliceOf sig (4 + n) lmsKeyBytes
  wordAt key 0 == 2 && key.length == 60 && wordAt sig 0 == 1
    && lmsVerify top (key.drop 4) (sliceOf sig 4 n) lower && lmsVerify low lower (sig.drop (4 + n + lmsKeyBytes)) msg

/-! ## Keys and signatures

What a key is derived from stands behind its secret: the identifier of each of its trees, the start of each chain of each leaf, and
the randomiser of each leaf's signature are opaque (log 11, 13). Tree 0 is the upper one, and tree b + 1 the lower one that leaf b of
it signs. -/

/-- A tree's identifier, 16 bytes. -/
def keyIdent (secret : List Byte) (tree : Nat) : List Byte := padTo 16 (Config.keyIdent secret tree)
/-- The one-time public key of a leaf: every chain from its start to its end. -/
def otsPublic (p : LmsParams) (secret : List Byte) (tree q : Nat) : List Byte :=
  let idq := keyIdent secret tree ++ beBytes 4 q
  otsEnds p idq (fun i => otsChain idq i (otsTop p) 0 (padTo 32 (Config.keyChain secret tree q i)))
/-- A node of a tree, `h` levels above the leaves. -/
def lmsNode (p : LmsParams) (secret : List Byte) (tree : Nat) : Nat → Nat → List Byte
  | 0, node => lmsLeaf (keyIdent secret tree) node (otsPublic p secret tree (node - 2 ^ p.height))
  | h + 1, node =>
    lmsInner (keyIdent secret tree) node (lmsNode p secret tree h (2 * node)) (lmsNode p secret tree h (2 * node + 1))
/-- A tree's public key. -/
def lmsPublic (p : LmsParams) (secret : List Byte) (tree : Nat) : List Byte :=
  beBytes 4 p.lms ++ beBytes 4 p.ots ++ keyIdent secret tree ++ lmsNode p secret tree p.height 1
/-- The signature of a message with leaf `q` of a tree: each chain up to its digit, and the siblings on the way to the root. -/
def lmsSign (p : LmsParams) (secret : List Byte) (tree q : Nat) (msg : List Byte) : List Byte :=
  let idq := keyIdent secret tree ++ beBytes 4 q
  let random := padTo 32 (Config.keyRandom secret tree q)
  let digits := otsMessage p idq random msg
  beBytes 4 q ++ beBytes 4 p.ots ++ random
    ++ (List.range (otsChains p)).flatMap (fun i => otsChain idq i (digits.getD i 0) 0 (padTo 32 (Config.keyChain secret tree q i)))
    ++ beBytes 4 p.lms
    ++ (List.range p.height).flatMap (fun i =>
        let node := (2 ^ p.height + q) / 2 ^ i
        lmsNode p secret tree i (if node % 2 = 1 then node - 1 else node + 1))
/-- The public key of two levels, 60 bytes. -/
def hssPublic (top : LmsParams) (secret : List Byte) : List Byte := beBytes 4 2 ++ lmsPublic top secret 0
/-- The signature of a message with leaf `q` of the lower tree that leaf `b` of the upper one signs. -/
def hssSign (top low : LmsParams) (secret : List Byte) (b q : Nat) (msg : List Byte) : List Byte :=
  let lower := lmsPublic low secret (b + 1)
  beBytes 4 1 ++ lmsSign top secret 0 b lower ++ lower ++ lmsSign low secret (b + 1) q msg

/-- The device key's public key (R537), and its top tree's nodes 1 to 65,535 as module flash holds them, 32 bytes each (Table
21-3). -/
def devicePublic : List Byte := hssPublic lmsDeviceTop Config.deviceSecret
def topTreeNode (n : Nat) : List Byte := lmsNode lmsDeviceTop Config.deviceSecret 0 (15 - Nat.log2 n) n

end Sys2Proof.Machine
end

