-- ==== Sys2Proof/Machine/SysTypes.lean ====
section
/-! DEFINITION. The plain data of Chamois (spec/19), periods and wear (spec/20), boot, fuses and flash (spec/21), and the
electrical interfaces (spec/22). -/

namespace Sys2Proof.Machine

/-- A quad domain (spec/02 section 2.2, R502, R504). Slack is in units of 0.01%. -/
structure QuadDom where
  /-- The voltage step last commanded, and whether the rail has settled at it. -/
  step : Nat := 0
  settled : Bool := true
  /-- The margin code, 7 at manufacture. -/
  margin : Nat := 7
  /-- A rise or a fall of the code waits for the next boundary. -/
  rise : Bool := false
  fall : Bool := false
  /-- The lowest barred step, and a bar that waits for the next boundary. -/
  barred : Option Nat := none
  barNext : Option Nat := none
  /-- The lowest slack at each step used since the last wear record, and the lowest code-7 equivalent (R525), each at the code
  in force when it was reported. -/
  slack : Sparse Nat := []
  low7 : Option Int := none
  /-- The lowest slack reported since the last daily look at the code (R502). -/
  dayLow : Option Nat := none
  deriving DecidableEq, Repr

/-- What Chamois keeps for a partition (R497, R498, R500). Times are module time in ns. -/
structure PartPower where
  ceiling : Nat := 12
  pacing : Nat := 0
  /-- The last sample at which a condition of R498 held. -/
  pressedAt : Nat := 0
  /-- The last sample found a sensor at the upper limit of R500, and the last sample at which a reading was not below the
  lower one. -/
  hot : Bool := false
  warmAt : Nat := 0
  /-- Activity of the superstep that runs: energy at step 8 in pJ, and samples (R495). -/
  act : Nat := 0
  ticks : Nat := 0
  deriving DecidableEq, Repr

/-- What a herd's activity counters hold since the last sample (Table 19-1): matrix beats of the 4-bit, 8-bit and bfloat16
classes, and vector groups. -/
structure HerdActivity where
  mx4 : Nat := 0
  mx8 : Nat := 0
  mx16 : Nat := 0
  vx : Nat := 0
  deriving DecidableEq, Repr

/-- Block accesses of HBM and DDR, and link blocks, since the last sample on behalf of a job (R479, R488). -/
structure BlockUse where
  hbm : Nat := 0
  ddr : Nat := 0
  link : Nat := 0
  deriving DecidableEq, Repr

/-- The energy account (R492 to R494). Energies are in µJ. -/
structure Chamois where
  /-- The activity counters by the job that held the herd, 0 for none, and the herd (job × 65536 + herd: R488), and the counts of
  the controllers and engines by job, 0 for none, or by partition for Ibex firmware's own traffic (`partUse`; R479, R492). -/
  acts : Sparse HerdActivity := []
  uses : Sparse BlockUse := []
  /-- The estimator total of the period that runs, and what has been charged in it to jobs unloaded since (R488). -/
  total : Rat := 0
  gone : Nat := 0
  budget : Nat := 7200
  nextBudget : Option Nat := none
  carry : Rat := 0
  factor : Rat := 1
  /-- The calibrated estimates of the last five samples, newest first. -/
  samples : List Rat := []
  /-- The window that runs: its calibrated estimate, the same before calibration, and its terms outside the core. -/
  window : Rat := 0
  raw : Rat := 0
  outer : Rat := 0
  /-- The terms outside the core of the last window, in W. -/
  fixed : Rat := 0
  /-- The hottest junction and HBM readings of the window, in 0.125 °C. -/
  junction : Option Int := none
  hbm : Option Int := none
  /-- The highest readings since reset. -/
  topJunction : Option Int := none
  topHbm : Option Int := none
  parts : Sparse PartPower := []
  /-- Energy charged to no job: the period's, the last latched period's, and the total (R487, R488). -/
  modEnergy : Rat := 0
  modLatched : Rat := 0
  modLife : Rat := 0
  /-- BMC_TEMP and BMC_POWER (Table 19-4). -/
  bmcHbm : Nat := 0x8000
  bmcJunction : Nat := 0x8000
  bmcWatts : Nat := 0
  deriving DecidableEq, Repr

/-- Periods (R507 to R509): the index of the running period, its start and length in ns, PERIOD_US as last applied, and
the last latched period's index and length. -/
structure Period where
  index : Nat := 0
  start : Nat := 0
  length : Nat := 100000000
  setting : Nat := 100000000
  latchedIndex : Nat := 0
  latchedLength : Nat := 0
  /-- Shadow copies and lifetime totals, keyed class × 2^40 + index × 2^16 + value number of Table 20-1. -/
  shadow : Sparse Nat := []
  lifetime : Sparse Nat := []
  deriving DecidableEq, Repr

/-- A wear record (R524): powered hours; each domain's code and lowest slack at each step used; the lowest code-7
equivalent slack with its domain, in 0.01%; highest temperatures; hard trips; lifetime totals of corrected errors by
stack and channel (R319) and of link resends by engine. -/
structure WearRec where
  hours : Nat
  codes : Sparse Nat
  slacks : List (Nat × Nat × Nat)
  s7 : Int
  s7Quad : Nat
  topCode : Nat
  junction : Option Int
  hbm : Option Int
  trips : Nat
  ce : List Nat
  resends : List Nat
  deriving DecidableEq, Repr

/-- The areas of module flash (Table 21-3). -/
inductive FlashArea where
  | identity | certificate | leaves | topTree | calibration | wear | reserved
  deriving DecidableEq, Repr
/-- Offset of an area; it ends where the next begins, the last at 64 MiB. -/
def FlashArea.offset : FlashArea → Nat
  | .identity => 0
  | .certificate => 0x10000
  | .leaves => 0x20000
  | .topTree => 0x40000
  | .calibration => 0x240000
  | .wear => 0x640000
  | .reserved => 0x1640000

/-- One copy of a flash record (R531): its sequence number, its content, its CRC-32C. -/
structure FlashCopy where
  seq : Nat
  data : List Byte
  crc : Nat
  deriving DecidableEq, Repr
/-- The CRC-32C that belongs to a copy, and whether it carries it. -/
def FlashCopy.due (c : FlashCopy) : Nat := crc32c (leBytes 4 c.seq ++ c.data)
def FlashCopy.ok (c : FlashCopy) : Bool := c.crc == c.due
/-- A copy as a whole write leaves it, and as an interrupted one does, with a CRC that is not its own. -/
def FlashCopy.made (seq : Nat) (data : List Byte) : FlashCopy := ⟨seq, data, (⟨seq, data, 0⟩ : FlashCopy).due⟩
def FlashCopy.torn (seq : Nat) (data : List Byte) : FlashCopy := ⟨seq, data, (⟨seq, data, 0⟩ : FlashCopy).due + 1⟩

/-- A flash record in its two alternating copies (R531). -/
structure FlashPair where
  first : FlashCopy
  second : FlashCopy
  deriving DecidableEq, Repr
/-- The first copy stands: it is valid, and the second is not, or is older. -/
def FlashPair.firstStands (p : FlashPair) : Bool := p.first.ok && !(p.second.ok && newer 32 p.second.seq p.first.seq)
/-- The copy that stands, none where neither is valid. -/
def FlashPair.stands (p : FlashPair) : Option FlashCopy :=
  if p.firstStands then some p.first else if p.second.ok then some p.second else none
/-- The record's content. -/
def FlashPair.read (p : FlashPair) : Option (List Byte) := p.stands.map (·.data)
/-- A write goes to the other copy, under the next sequence number; one that is interrupted or fails leaves the copy that
stands. -/
def FlashPair.write (p : FlashPair) (data : List Byte) (whole : Bool) : FlashPair :=
  let n := match p.stands with
    | some c => (c.seq + 1) % 2 ^ 32
    | none => 0
  let c := if whole then FlashCopy.made n data else FlashCopy.torn n data
  if p.firstStands then { p with second := c } else { p with first := c }
/-- A record as manufacture writes it. -/
def FlashPair.made (data : List Byte) : FlashPair := ⟨FlashCopy.made 0 data, FlashCopy.made 0 data⟩

/-- The body of the device certificate (R536). -/
def certBody (part : List Byte) (stepping herds : Nat) : List Byte :=
  padTo 128 (leBytes 8 Config.serial ++ padTo 16 part ++ leBytes 4 stepping ++ leBytes 2 herds
    ++ devicePublic)
/-- The device certificate: the body and the identity key's signature over it. -/
def certBytes (part : List Byte) (stepping herds : Nat) : List Byte :=
  let b := certBody part stepping herds
  b ++ hssSign lmsFirmware lmsFirmware Config.identitySecret (Config.identityLeaf / 2 ^ 20 % 2 ^ 20) (Config.identityLeaf % 2 ^ 20) b
/-- The identity record: serial, part number, grade as its herd count, stepping word (Table 21-3). -/
def identityBytes (part : List Byte) (stepping herds : Nat) : List Byte :=
  leBytes 8 Config.serial ++ padTo 16 part ++ leBytes 2 herds ++ leBytes 4 stepping

/-- A wear record's bytes (log 110). -/
def WearRec.bytes (r : WearRec) : List Byte :=
  let temp (t : Option Int) : List Byte := match t with | some v => leBytes 1 1 ++ leBytes 2 (wrapInt 16 v) | none => leBytes 3 0
  leBytes 4 r.hours ++ leBytes 4 r.trips ++ leBytes 4 (wrapInt 32 r.s7) ++ leBytes 1 r.s7Quad ++ leBytes 1 r.topCode
    ++ temp r.junction ++ temp r.hbm ++ r.ce.flatMap (leBytes 16) ++ r.resends.flatMap (leBytes 16)
    ++ r.codes.flatMap (fun e => leBytes 1 e.1 ++ leBytes 1 e.2)
    ++ r.slacks.flatMap (fun e => leBytes 1 e.1 ++ leBytes 1 e.2.1 ++ leBytes 2 e.2.2)
/-- A record of the wear ring (R524, R531): its sequence number, its content, its CRC-32C. -/
structure WearCopy where
  seq : Nat
  body : WearRec
  crc : Nat
  deriving DecidableEq, Repr
/-- The CRC-32C that belongs to it, and whether it carries it. -/
def WearCopy.due (c : WearCopy) : Nat := crc32c (leBytes 4 c.seq ++ c.body.bytes)
def WearCopy.ok (c : WearCopy) : Bool := c.crc == c.due
/-- A record as a whole write leaves it, and as an interrupted one does. -/
def WearCopy.made (seq : Nat) (r : WearRec) : WearCopy := ⟨seq, r, (⟨seq, r, 0⟩ : WearCopy).due⟩
def WearCopy.torn (seq : Nat) (r : WearRec) : WearCopy := ⟨seq, r, (⟨seq, r, 0⟩ : WearCopy).due + 1⟩

/-- Module flash (R524, R531, R537) and the fuses of Table 21-2 that are state: the grade map, SVN_FLOOR
and DEBUG_LOCK (R530). -/
structure Flash where
  /-- The grade map (R17, R530): the physical sites fused off, as die × 104 + site; which they are the spec leaves to
  manufacture (log 87). The top tree and the calibration, which nothing writes, are constants (`topTreeNode`,
  Config.leakage; log 99, 110). -/
  offSites : List Nat := (List.range 4).flatMap (fun d => (List.range 8).map (fun i => d * 104 + 96 + i))
  svnFloor : Nat := 0
  debugLock : Bool := true
  identity : FlashPair
  certificate : FlashPair
  /-- The leaf reservation record, which holds NEXT_BLOCK (R537). -/
  leaves : FlashPair := FlashPair.made (leBytes 4 0)
  /-- The count of hard trips (R524), and the bars of R504 as two bytes each, quad and step (log 110). -/
  tripRec : FlashPair := FlashPair.made (leBytes 4 0)
  barRec : FlashPair := FlashPair.made []
  /-- The wear ring (R524), newest record first, interrupted ones among them. -/
  ring : List WearCopy := []
  deriving DecidableEq, Repr

/-- Flash and fuses as they leave manufacture. -/
def Flash.made (part : List Byte) (stepping herds : Nat) : Flash where
  identity := FlashPair.made (identityBytes part stepping herds)
  certificate := FlashPair.made (certBytes part stepping herds)
/-- Valid wear records, newest first, and the powered hours that the newest holds. -/
def Flash.wear (f : Flash) : List WearRec := (f.ring.filter WearCopy.ok).map (·.body)
def Flash.hours (f : Flash) : Nat := (f.wear.head?.map (·.hours)).getD 0
/-- A wear record takes the place of the oldest of 4,096 under the next sequence number; one that is interrupted is invalid. -/
def Flash.writeWear (f : Flash) (r : WearRec) (whole : Bool) : Flash :=
  let n := (f.ring.head?.map (fun c => c.seq + 1)).getD 0
  { f with ring := ((if whole then WearCopy.made n r else WearCopy.torn n r) :: f.ring).take 4096 }
/-- Hard trips counted (R524). -/
def Flash.trips (f : Flash) : Nat := (f.tripRec.read.map leNat).getD 0
def Flash.noteTrip (f : Flash) : Flash := { f with tripRec := f.tripRec.write (leBytes 4 (f.trips + 1)) true }
/-- Barred steps by quad (R504). -/
def pairsOf : List Byte → Sparse Nat
  | q :: b :: r => (q.toNat, b.toNat) :: pairsOf r
  | _ => []
def Flash.bars (f : Flash) : Sparse Nat := (f.barRec.read.map pairsOf).getD []
def Flash.bar (f : Flash) (q step : Nat) : Flash :=
  { f with barRec := f.barRec.write ((Sparse.set f.bars q step).flatMap (fun e => leBytes 1 e.1 ++ leBytes 1 e.2)) true }
/-- NEXT_BLOCK of the reservation record, none where no copy is valid (R537). -/
def Flash.nextBlock (f : Flash) : Option Nat := f.leaves.read.map leNat

/-- Boot (R532 to R538): the SEQ of an FW_LOAD in progress, the last failure code, the firmware's version and SHA-256,
the fuse record measured at load, an identity record found invalid, the block of the device key in use and its next leaf. -/
structure Boot where
  loading : Option Nat := none
  /-- The end of boot has been reached since reset (R535). -/
  booted : Bool := false
  /-- The physical site of each logical herd, as Ibex firmware assigned them at boot (R19, R22). -/
  sites : List Nat := []
  failCode : Nat := 0
  version : Nat := 0
  digest : List Byte := []
  measuredFloor : Nat := 0
  badIdentity : Bool := false
  block : Option Nat := none
  leaf : Nat := 0
  /-- DIMM capacities in GiB by channel, of DIMMs that meet Table 12-4, and of channels that have trained. -/
  fitted : Sparse Nat := []
  dimms : Sparse Nat := []
  deriving DecidableEq, Repr

/-- The 48 V input (Tables 22-2, 22-6). -/
inductive PowerIn where
  | absent | inRange | under | over | reversed
  deriving DecidableEq, Repr

/-- Rails, lines and the CXL port (spec/22). -/
structure Power where
  input : PowerIn := .inRange
  /-- Management, control and CXL, core, HBM, optics, DIMM and laser branch rails (Table 22-3). -/
  mgmt : Bool := true
  control : Bool := true
  core : Bool := false
  hbm : Bool := false
  optics : Bool := false
  dimms : Bool := false
  lasers : Bool := false
  /-- The trip latch (R501, R556), which drives THERM_TRIP_N and BMC_TRIP. -/
  tripped : Bool := false
  /-- Opened DIMM branches (Table 22-6). -/
  openDimms : List Nat := []
  /-- The management rail is shorted (Table 22-6). -/
  mgmtShort : Bool := false
  /-- Rails on local sense, numbered as R558 (R547). -/
  localSense : List Nat := []
  /-- The sideband answers: 2 ms after power-on (R555). -/
  sideband : Bool := true
  /-- SMB_ADDR1 and SMB_ADDR0 as the baseboard ties them, pulled up where open (R542, R555), and the sideband's 7-bit
  address, read from them at power-on. -/
  straps : Nat := 3
  smbAddr : Nat := 0x4F
  /-- The CXL port: trained width and rate in GT/s (R550), 0 while down; common-clock operation (R551). -/
  cxlWidth : Nat := 0
  cxlRate : Nat := 0
  /-- The eight lanes of an x8 port are 8 to 15, under reversal (R550). -/
  cxlUpper : Bool := false
  /-- No width has trained since the last reset: the port stays down (R550). -/
  cxlDown : Bool := false
  commonClock : Bool := true
  deriving DecidableEq, Repr

end Sys2Proof.Machine
end

