-- ==== Sys2Proof/Machine/State.lean ====
section
/-! DEFINITION. The state of the module as plain data, its reset value, and the reasons a step can stop. -/

namespace Sys2Proof.Machine

/-- Why the model stops. Raised only where a command names a unit that this module's grade does not have; the spec
gives such a command no meaning (safe: the hardware has no such unit to act). -/
inductive Fault where
  /-- A command names a tile at or above the grade's tile count (R1, R20). Raised by every command that names a tile;
  safe. -/
  | noSuchTile
  /-- A command names a herd at or above the grade's herd count (R1). Raised by every command that names a herd; safe. -/
  | noSuchHerd
  /-- A command names a quad at or above the grade's quad count (R23). Raised by every command that names a quad
  domain; safe. -/
  | noSuchQuad
  deriving DecidableEq, Repr

/-- A command without a meaning. -/
inductive Refusal where
  /-- Raised by an arm of the dispatch whose command has no meaning yet; safe. -/
  | notModelled (mnemonic : String)
  deriving DecidableEq, Repr

/-- The grades of Table 0-1. -/
inductive Grade where
  | g384 | g352 | g320
  deriving DecidableEq, Repr

/-- The part number in ASCII, padded with 0 (Table 0-1). -/
def Grade.partNumber : Grade → List Byte
  | .g384 => [0x42, 0x58, 0x4B, 0x39, 0x2D, 0x33, 0x38, 0x34, 0, 0, 0, 0]
  | .g352 => [0x42, 0x58, 0x4B, 0x39, 0x2D, 0x33, 0x35, 0x32, 0, 0, 0, 0]
  | .g320 => [0x42, 0x58, 0x4B, 0x39, 0x2D, 0x33, 0x32, 0x30, 0, 0, 0, 0]

/-- The module. -/
structure State where
  /-- The commands that wait, first in, first out. -/
  pending : List Instr
  /-- The counter that the free values of Config are drawn with (the model's own field, log 5). -/
  free : Nat
  grade : Grade
  /-- Layout and metal revision of the stepping id word (Table 2-5). -/
  stepMajor : Byte
  stepMinor : Byte
  /-- What the last register read or sideband transaction returned, and whether it was NACKed (the model's own field,
  log 12). -/
  busData : List Byte
  busNack : Bool
  /-- The module time counter in ns from the end of boot (R52). -/
  time : Nat
  tiles : Sparse Tile
  mem : Memory
  /-- Herd-memory words (device address / 8) that hold an uncorrectable error, and a correctable one (R72; log 14). -/
  eccBad : List Nat
  eccSoft : List Nat
  /-- Corrected-error period counters of the herds (R72). -/
  herdCe : Sparse Nat
  syncs : Sparse SyncObj
  /-- The id of the next item placed in flight. -/
  nextId : Nat
  syncMsgs : Sparse SyncPkt
  msgs : Sparse Msg
  puts : Sparse RemoteWrite
  sums : List SumCtx
  /-- Crossings by number: unit u of R319 below 32, CXL 32 (R49; log 77), and the herd movers' rotation (R331). -/
  crossings : Sparse Crossing
  turns : Sparse MoverTurn
  parts : Sparse Partition
  /-- MB_STATE.FW (Table 16-1). -/
  fw : FwState
  mailboxes : Sparse Mailbox
  /-- The mailbox last served in the rotation of R428. -/
  boxTurn : Nat
  /-- Lifecycle objects by KIND × 65,536 + INDEX (R437). -/
  lives : Sparse Life
  /-- Jobs by id; an id in use has an entry (R249). -/
  jobs : Sparse Job
  /-- Memory controllers by unit u (R319). -/
  mcs : Sparse Mc
  /-- DRAM blocks, by device address, known to hold an uncorrectable error (R329). -/
  badBlocks : List Nat
  /-- D of R324 in GiB: 0 while the DDR tier is not mapped. -/
  ddrGib : Nat
  cxl : CxlMem
  kudus : Sparse Kudu
  /-- Reduction and commit entries by stack × 64 + entry. -/
  reds : Sparse RedEntry
  coms : Sparse ComEntry
  links : Sparse Link
  lasers : Sparse Laser
  /-- What the module has given to its links, oldest first. -/
  outbox : List LinkOut
  quads : Sparse QuadDom
  /-- The spine domain's voltage step, and whether its rail has settled (R44). -/
  spineStep : Nat
  spineSettled : Bool
  chamois : Chamois
  period : Period
  boot : Boot
  flash : Flash
  power : Power
  /-- A hardware fault has been reported since reset (R491). -/
  hwFaulted : Bool
  deriving DecidableEq, Repr

/-- The module right after reset. -/
def State.reset : State where
  pending := []
  free := 0
  grade := .g384
  stepMajor := 2
  stepMinor := 1
  busData := []
  busNack := false
  time := 0
  tiles := []
  mem := []
  eccBad := []
  eccSoft := []
  herdCe := []
  syncs := []
  nextId := 0
  syncMsgs := []
  msgs := []
  puts := []
  sums := []
  crossings := []
  turns := []
  parts := []
  fw := .rom
  mailboxes := []
  boxTurn := 16
  lives := []
  jobs := []
  mcs := []
  badBlocks := []
  ddrGib := 0
  cxl := {}
  kudus := []
  reds := []
  coms := []
  links := []
  lasers := []
  outbox := []
  quads := []
  spineStep := 0
  spineSettled := true
  chamois := {}
  period := {}
  boot := {}
  flash := Flash.made Grade.g384.partNumber 0x090201 384
  power := {}
  hwFaulted := false

end Sys2Proof.Machine
end

