-- ==== Sys2Proof/Machine/Ops.lean ====
section
/-! DEFINITION. The named operations over tiles, registers, herd memory and sync references that every family uses:
reading and writing a register, an extent's checks in the order of R102, taking a tile fault, issuing and retiring an
instruction, completion tokens, Tahr traps and reservations. -/

namespace Sys2Proof.Machine

/-- The outcome of a command. -/
abbrev Out := Host.Outcome State Fault Refusal

/-! ## Grades and unit numbers -/

/-- Enabled herds of a grade (Table 0-1). -/
def Grade.herds : Grade → Nat
  | .g384 => 384
  | .g352 => 352
  | .g320 => 320
/-- The grade's herd count (R1). -/
def State.herdCount (s : State) : Nat := s.grade.herds
/-- The grade's tile count (R20). -/
def State.tileCount (s : State) : Nat := s.grade.herds * 32
/-- The grade's quad count (R23). -/
def State.quadCount (s : State) : Nat := s.grade.herds / 4
/-- The herds of one die (R17). -/
def State.herdsPerDie (s : State) : Nat := s.grade.herds / 4

/-- The herd of a tile (R20). -/
def herdOf (t : Nat) : Nat := t / 32
/-- The device address of a herd memory (Table 1-6). -/
def herdBase (h : Nat) : Nat := h * 0x1000000
/-- The device address of a herd-memory offset as tile `t` sees it (section 3.3). -/
def devAddr (t off : Nat) : Nat := herdBase (herdOf t) + off
/-- The first device address of HBM, of the DDR tier and of the host window (Table 1-6). -/
def hbmBase : Nat := 0x0010000000000
def ddrBase : Nat := 0x0040000000000
def hostBase : Nat := 0x8000000000000
/-- The first device address of control space (Table 1-6). -/
def ctrlBase : Nat := 0x0008000000000

/-! ## Tiles -/

/-- A tile's record. -/
def State.tile (s : State) (t : Nat) : Tile := Sparse.get Tile.reset s.tiles t
/-- Replace a tile's record. -/
def State.setTile (s : State) (t : Nat) (T : Tile) : State := { s with tiles := Sparse.set s.tiles t T }
/-- Change a tile's record. -/
def State.updTile (s : State) (t : Nat) (f : Tile → Tile) : State := s.setTile t (f (s.tile t))

/-- A register as read: s0 is 0 (R65). -/
def Tile.reg (T : Tile) (r : Reg) : Word := if r = 0 then 0 else T.regs[r.val]
/-- A register written: s0 discards (R65); an ARRIVE answer still awaited there is an earlier instruction's value, which a
reader still waits for and which no longer overwrites this one (R101). -/
def Tile.setReg (T : Tile) (r : Reg) (v : Word) : Tile :=
  if r = 0 then T
  else { T with
    regs := T.regs.set r.val v
    awaits := T.awaits.map (fun a => if a.reg = r.val then { a with stale := true } else a) }
/-- A register may be read `n` beats after the issue of the instruction that writes it (Table 4-11, Result). -/
def Tile.later (T : Tile) (r : Reg) (n : Nat) : Tile :=
  if r = 0 then T else { T with due := Sparse.set T.due r.val (max n (Sparse.get 0 T.due r.val)) }
/-- `n` beats of the scalar pipeline pass (R52): the beat counter, and the registers still to come. -/
def Tile.pass (T : Tile) (n : Nat) : Tile :=
  { T with
    beats := (T.beats + n) % 2 ^ 64
    due := (Sparse.mapVals (fun _ d => d - n) T.due).filter (fun e => 0 < e.2) }
/-- The odd register of an even pair (R107, R111). -/
def Reg.pair (r : Reg) : Reg := if h : r.val + 1 < 32 then ⟨r.val + 1, h⟩ else r

def Tile.window (T : Tile) (w : Nat) : Window := Sparse.get {} T.windows w
def Tile.setWindow (T : Tile) (w : Nat) (x : Window) : Tile := { T with windows := Sparse.set T.windows w x }
/-- Operations issued to a unit since load (R115). -/
def Tile.count (T : Tile) (u : Nat) : Nat := Sparse.get 0 T.issued u
def Tile.skip (T : Tile) (k : Nat) : SkipSlot := Sparse.get {} T.skips k
def Tile.setSkip (T : Tile) (k : Nat) (x : SkipSlot) : Tile := { T with skips := Sparse.set T.skips k x }

/-- Whether a tile is stopped, running, parked or halted, that is, has not faulted and can hold outstanding work. -/
def Tile.alive (T : Tile) : Bool := T.run = .running || T.run = .parked || T.run = .halted

/-- A command that names a tile acts on it where the grade has it, and is the model's fault otherwise. -/
def onTile (t : Nat) (s : State) (f : State → State) : Out :=
  if t < s.tileCount then .next (f s) else .fault .noSuchTile
/-- As `onTile`, for a herd. -/
def onHerd (h : Nat) (s : State) (f : State → State) : Out :=
  if h < s.herdCount then .next (f s) else .fault .noSuchHerd
/-- As `onTile`, for a quad. -/
def onQuad (q : Nat) (s : State) (f : State → State) : Out :=
  if q < s.quadCount then .next (f s) else .fault .noSuchQuad

/-! ## Partitions and flags -/

def State.part (s : State) (p : Nat) : Partition := Sparse.get {} s.parts p
def State.setPart (s : State) (p : Nat) (x : Partition) : State := { s with parts := Sparse.set s.parts p x }
def State.updPart (s : State) (p : Nat) (f : Partition → Partition) : State := s.setPart p (f (s.part p))
/-- The partition that owns a herd's quad, 0 for none (R470). -/
def State.partOfHerd (s : State) (h : Nat) : Nat :=
  ((List.range 17).find? (fun p => 0 < p && (s.part p).live && (s.part p).quads.contains (h / 4))).getD 0
/-- The partition of a tile. -/
def State.partOf (s : State) (t : Nat) : Nat := s.partOfHerd (herdOf t)
/-- Two tiles belong to one partition. -/
def State.samePart (s : State) (a b : Nat) : Bool := s.partOf a != 0 && s.partOf a == s.partOf b

/-- The FAULT flag of a partition rises (Table 11-5). -/
def raiseFault (p : Nat) (s : State) : State := if p = 0 then s else s.updPart p (fun x => { x with fault := true })
/-- The HALT flag of a partition rises (Table 11-5). -/
def raiseHalt (p : Nat) (s : State) : State := if p = 0 then s else s.updPart p (fun x => { x with halt := true })
/-- The NONFIN flag of a partition rises (Table 11-5). -/
def raiseNonfin (p : Nat) (s : State) : State := if p = 0 then s else s.updPart p (fun x => { x with nonfin := true })

/-! ## In-flight items -/

/-- Place a sync operation of a job in the network. -/
def sendSync (job : Nat) (m : SyncMsg) (s : State) : State :=
  { s with syncMsgs := Sparse.set s.syncMsgs s.nextId { job := job, op := m }, nextId := s.nextId + 1 }

/-- R561 for one message of a tile that has stopped or faulted: unsent requests are dropped, an answer still due is
awaited, and a request in a wait list is withdrawn. -/
def endMsg (m : Msg) : Msg :=
  match m.send with
  | .unsent | .retryWait => { m with send := .closed, recv := .closed }
  | .requested => { m with send := .orphaned }
  | .admitted => { m with send := .closed, withdrawal := true }
  | _ => m

/-- Nothing of a message is left to happen. -/
def Msg.gone (m : Msg) : Bool :=
  m.send == .closed && (m.recv == .closed || m.recv == .idle) && m.answers.isEmpty && !m.withdrawal

/-- The waits parked at an object become a part of those there: WAITERS falls by those that leave (R289). -/
def SyncObj.setParked (o : SyncObj) (l : List (Nat × Nat)) : SyncObj :=
  { o with parked := l, waiters := o.waiters - (o.parked.length - l.length) }

/-- The operations of a tile end, as a fault or a stop ends them (R94, R102, R156, R561): every unit's queue empties,
tokens never complete, the port withdraws, puts in the network no longer write a status word, waits leave their
objects, blocks of its transfers that no unit has taken leave the crossings, contributions that wait leave their Kudu, and
no answer to it is left to give for a commit request. -/
def endOps (t : Nat) (s : State) : State :=
  let s := s.updTile t (fun T => { T with
    blocks := [], mx := [], mxStore := {}, ftq := {}, mover := [], syncReady := none, syncTravel := false, awaits := [],
    vec := { T.vec with queue := [], relays := [], taken := [], chainLen := 0, chainExts := [] },
    port := { T.port with queue := [] } })
  { s with
    msgs := (Sparse.mapVals (fun _ m => if m.sender = t then endMsg m else m) s.msgs).filter (fun e => !e.2.gone)
    puts := Sparse.mapVals (fun _ p => if p.sender = t then { p with live := false } else p) s.puts
    crossings := Sparse.mapVals (fun _ x =>
      { out := x.out.filter (fun b => b.tile != t), back := x.back.filter (fun b => b.tile != t) }) s.crossings
    reds := Sparse.mapVals (fun _ x => { x with waiting := x.waiting.filter (fun w => w.tile != t) }) s.reds
    coms := Sparse.mapVals (fun _ c => { c with askers := c.askers.filter (fun a => a.1 != t) }) s.coms
    syncs := Sparse.mapVals (fun _ o => o.setParked (o.parked.filter (fun w => w.1 != t))) s.syncs }

/-- A tile stops at once without a fault (R93): STATE STOPPED, its operations end. -/
def stopTile (t : Nat) (s : State) : State :=
  endOps t (s.updTile t (fun T => { T with run := .stopped, park := .none, runBit := false }))

/-- A fault of a tile is recorded (R94, R102): STATE becomes FAULTED, outstanding operations end, and the FAULT flag rises. -/
def recordFault (t unit code : Nat) (pc : Word) (addr : Nat) (s : State) : State :=
  raiseFault (s.partOf t) (endOps t (s.updTile t (fun T => { T with
    run := .faulted, park := .none, faultUnit := unit, faultCode := code, faultPc := pc, faultAddr := addr })))

/-- A tile faults (R94, R102). A tile that is stopped or faulted already records nothing. -/
def faultTile (t unit code : Nat) (pc : Word) (addr : Nat) (s : State) : State :=
  if (s.tile t).alive then recordFault t unit code pc addr s else s

/-! ## Fault codes -/

namespace Code
def regionBound := 0x01
def misaligned := 0x02
def offsetHigh := 0x03
def codeWrite := 0x04
def blockArg := 0x05
def windowConfig := 0x06
def windowReopen := 0x07
def memoryUncorrectable := 0x08
def illegal := 0x10
def tokenInvalid := 0x11
def breakpoint := 0x12
def putArg := 0x13
def msgArg := 0x14
def syncScope := 0x15
def syncConfig := 0x16
def mxField := 0x20
def mxHeader := 0x21
def mxMeta := 0x22
def vxStream := 0x28
def vxOperand := 0x29
def vxRelay := 0x2A
def vxChain := 0x2B
def vxChunk := 0x2C
def vxMeta := 0x2D
def vxScale := 0x2E
def msgCheck := 0x30
def syncMisuse := 0x38
def syncTable := 0x39
def syncMode := 0x3A
def mvField := 0x40
def memRefused := 0x41
def memCrc := 0x42
def dramUncorrectable := 0x43
def hostError := 0x44
def tahrFull := 0x58
def trUnit := 0x59
def trWindow := 0x5A
def trRing := 0x5B
def trLanding := 0x5C
def trRefused := 0x5D
def trAbandon := 0x5E
def trKudu := 0x5F
end Code

/-! ## Extents and their checks (R102 steps 2 to 5) -/

/-- One herd-memory extent that an instruction names: offset, length, required alignment, and whether it is written. -/
structure Ext where
  off : Nat
  len : Nat
  align : Nat
  write : Bool
  deriving DecidableEq, Repr

/-- An extent's offset has bits 31:24 set (R68). -/
def Ext.high (e : Ext) : Bool := decide (0x1000000 ≤ e.off)
/-- An extent is not aligned. -/
def Ext.crooked (e : Ext) : Bool := e.off % e.align != 0
/-- An extent that is not empty leaves the region (R75). -/
def Ext.outside (T : Tile) (e : Ext) : Bool := 0 < e.len && !within e.off e.len T.regionBase T.regionSize
/-- A written extent overlaps the code range (R67). -/
def Ext.intoCode (T : Tile) (e : Ext) : Bool := e.write && overlaps e.off e.len T.codeBase T.codeSize

/-- A tile fault that a check finds: the code and FAULT_ADDR. -/
structure TileFault where
  code : Nat
  addr : Nat
  deriving DecidableEq, Repr

/-- The first failing check of steps 2 to 5 of R102 over an instruction's extents, each step over all of them. -/
def checkExts (t : Nat) (T : Tile) (es : List Ext) : Option TileFault :=
  match es.find? Ext.high with
  | some _ => some ⟨Code.offsetHigh, 0⟩
  | none =>
  match es.find? Ext.crooked with
  | some e => some ⟨Code.misaligned, devAddr t e.off⟩
  | none =>
  match es.find? (Ext.outside T) with
  | some e => some ⟨Code.regionBound, devAddr t e.off⟩
  | none =>
  match es.find? (Ext.intoCode T) with
  | some e => some ⟨Code.codeWrite, devAddr t e.off⟩
  | none => none

/-! ## Herd memory with its error-correcting code (R72) -/

/-- The uncorrectable words that a byte range of herd memory touches, lowest first found. -/
def firstBadWord (s : State) (a n : Nat) : Option Nat :=
  (s.eccBad.filter (fun w => overlaps (w * 8) 8 a n)).foldl
    (fun m w => match m with | none => some w | some v => some (min v w)) none

/-- A read on behalf of tile `t` corrects the correctable words it touches, counts them for the herd and sets ECC_SEEN; the
herd mover's and the network port's reads of the tile's own memory count as its reads (log 14). -/
def eccCorrect (t a n : Nat) (s : State) : State :=
  let hits := s.eccSoft.filter (fun w => overlaps (w * 8) 8 a n)
  if hits.isEmpty then s
  else
    let h := herdOf t
    let s := { s with
      eccSoft := s.eccSoft.filter (fun w => !overlaps (w * 8) 8 a n)
      herdCe := Sparse.set s.herdCe h (satAdd max32 (Sparse.get 0 s.herdCe h) hits.length) }
    s.updTile t (fun T => { T with eccSeen := true })

/-- What a unit's reads end in: a fault, with the state after the corrections made before it, or the state after all. -/
abbrev Checked := Except (TileFault × State) State

/-- A read of a herd-memory range by a unit of a tile: its words in rising order, each corrected or, at the first
uncorrectable one, the fault (R72). -/
def readCheck (t off n : Nat) (s : State) : Checked :=
  let a := devAddr t off
  match firstBadWord s a n with
  | some w => .error (⟨Code.memoryUncorrectable, w * 8⟩, eccCorrect t a (w * 8 - a) s)
  | none => .ok (eccCorrect t a n s)

/-- `readCheck` over several ranges in order. -/
def readChecks (t : Nat) : List (Nat × Nat) → State → Checked
  | [], s => .ok s
  | (off, n) :: r, s =>
    match readCheck t off n s with
    | .error e => .error e
    | .ok s => readChecks t r s

/-- The bytes of a herd-memory range. -/
def State.herdBytes (s : State) (t off n : Nat) : List Byte := readBytes s.mem (devAddr t off) n
/-- The number that a herd-memory range spells. -/
def State.herdNat (s : State) (t off n : Nat) : Nat := readNat s.mem (devAddr t off) n

/-- A write of bytes at a device address: words of herd memory and blocks of DRAM written whole lose any
error mark (R72, R329; log 14). -/
def State.writeMem (s : State) (a : Nat) (bs : List Byte) : State :=
  { s with
    mem := writeBytes s.mem a bs
    eccBad := s.eccBad.filter (fun w => !within (w * 8) 8 a bs.length)
    eccSoft := s.eccSoft.filter (fun w => !within (w * 8) 8 a bs.length)
    badBlocks := s.badBlocks.filter (fun b => !within b 64 a bs.length) }
/-- A write of a number's low `n` bytes into herd memory. -/
def State.writeHerd (s : State) (t off n v : Nat) : State := s.writeMem (devAddr t off) (leBytes n v)

/-! ## Issue and retirement (R98, R101, R102, R138) -/

/-- The tile can issue an instruction that reads the given registers: it is RUNNING, no SWAIT of it is on its way, and
no register it reads awaits an ARRIVE answer (R101). -/
def Tile.ready (T : Tile) (uses : List Reg) : Bool :=
  T.run = .running && !T.syncTravel && uses.all (fun r => !T.awaits.any (fun a => a.reg == r.val))

/-- Beats that an instruction waits for the registers it reads (R101, R138). -/
def Tile.stall (T : Tile) (uses : List Reg) : Nat := uses.foldl (fun m r => max m (Sparse.get 0 T.due r.val)) 0

/-- The interlock: the tile's pipeline cycles until every register that the instruction reads may be read (R52, R101). -/
def stallTile (t : Nat) (uses : List Reg) (s : State) : State :=
  let n := (s.tile t).stall uses
  if n = 0 then s else s.updTile t (fun T => T.pass n)

/-- The program counter lies in the code range (R67). -/
def Tile.fetchOk (T : Tile) : Bool := within T.pc.toNat 4 T.codeBase T.codeSize

/-- Issue of an instruction: nothing happens while the tile cannot issue; a fetch outside the code range faults
(R67); else the instruction acts once the registers it reads are there. -/
def issue (t : Nat) (uses : List Reg) (s : State) (k : State → State) : State :=
  let T := s.tile t
  if T.ready uses then
    if T.fetchOk then k (stallTile t uses s)
    else faultTile t 0 Code.regionBound T.pc (devAddr t T.pc.toNat) s
  else s

/-- The issued instruction faults: UNIT of R103, FAULT_PC its own offset. -/
def faultIssue (t unit : Nat) (f : TileFault) (s : State) : State :=
  faultTile t unit f.code (s.tile t).pc f.addr s

/-- The tile after an instruction: the next offset, the beats that passed, the one Tahr pass used (R98, R52, R465). -/
def Tile.advance (T : Tile) (pc : Word) (n : Nat) : Tile :=
  { T.pass n with pc := pc, tahr := { T.tahr with pass := none } }

/-- The free counter moves on by one draw (log 5). -/
def State.drawn (s : State) : State := { s with free := s.free + 1 }

/-- Beats beyond an issue's minimum: what R8 leaves open, and at least 6 where the fetch misses the instruction cache
(R138; log 7). -/
def slackBeats (n : Nat) : Nat := Config.extraBeats n + (if Config.fetchMiss n then 6 else 0)

/-- The instruction retires: `f` is its effect on the tile, `pc` the next offset, `cost` the issue beats of Table 4-11;
the beat counter moves on by at least that (R52, R138; log 7). -/
def retireAt (t cost : Nat) (pc : Word) (s : State) (f : Tile → Tile) : State :=
  (s.updTile t (fun T => (f T).advance pc (cost + slackBeats s.free))).drawn

/-- Beats that Tahr adds to a load, a store and an instruction of R463 (R467). -/
def Tile.tahrBeats (T : Tile) : Nat := if T.tahrMode then 2 else 0

/-- The instruction retires to the next word (R98). -/
def retire (t cost : Nat) (s : State) (f : Tile → Tile) : State :=
  retireAt t cost ((s.tile t).pc + 4) s f

/-- The tile parks at the instruction; the program counter stays on it until it completes or is issued again. -/
def parkTile (t : Nat) (p : Park) (s : State) : State := s.updTile t (fun T => { T with run := .parked, park := p })

/-! ## Completion tokens (R114 to R117) -/

/-- The lowest number of an operation outstanding in a unit's queue. -/
def Tile.outstanding (T : Tile) (u : Nat) : List Nat :=
  match u with
  | 1 => T.mx.map (·.num)
  | 2 => T.vec.queue.filterMap (fun e => match e with | .op o => some o.num | _ => none)
  | 3 => T.blocks.map (·.num)
  | 4 => T.port.queue.map (·.num)
  | 5 => T.mover.map (·.num)
  | _ => []

/-- Entries in use of a unit's queue (Table 4-5); VSTR bindings hold vector entries (R117), an FTQ_CLR does not. -/
def Tile.depth (T : Tile) (u : Nat) : Nat :=
  if u = 2 then (T.vec.queue.filter (fun e => match e with | .ftqClr => false | _ => true)).length
  else (T.outstanding u).length
/-- Entries of a unit's queue (Table 4-5). -/
def unitDepth (u : Nat) : Nat :=
  match u with
  | 1 => 4
  | 2 => 16
  | 3 => 4
  | 4 => 16
  | _ => 8

/-- The token of operation number `n` of a unit (R114, R115). -/
def tokenOf (u n : Nat) : Word := word (u * 2 ^ 29 + n % 2 ^ 29)

/-- Every operation of the unit up to number `n` has completed (R115). -/
def Tile.done (T : Tile) (u n : Nat) : Bool := (T.outstanding u).all (fun m => n < m)

/-- The operation number that a token names, or none where it is TOKEN_INVALID (R116): no such unit, or a SEQ newer
than the last issued. Half the circle counts as newer here, as R116 says of a token held across 2^28 operations. -/
def Tile.tokenNum (T : Tile) (w : Word) : Option (Nat × Nat) :=
  let u := w.toNat / 2 ^ 29
  let q := w.toNat % 2 ^ 29
  let n := T.count u
  let ahead := (q + 2 ^ 29 - n % 2 ^ 29) % 2 ^ 29
  if u = 0 || 5 < u then none
  else if 0 < ahead && ahead ≤ 2 ^ 28 then none
  else some (u, n - (2 ^ 29 - ahead) % 2 ^ 29)

/-- A new operation of a unit is numbered (R115). -/
def Tile.number (T : Tile) (u : Nat) : Tile := { T with issued := Sparse.set T.issued u (T.count u + 1) }

/-! ## Sync references (R133, R282) -/

/-- The key of herd object `k` of herd `h`, and of a device object. -/
def herdObj (h k : Nat) : Nat := h * 256 + k
def devObj (d : Nat) : Nat := 0x20000 + d
/-- The device address of an object by its key (R282). -/
def objAddr (o : Nat) : Nat :=
  if o < 0x20000 then ctrlBase + 0x10000000 + o / 256 * 0x2000 + o % 256 * 0x20
  else ctrlBase + 0x20000000 + (o - 0x20000) * 0x20

/-- The object that a sync reference names for a partition (R133): none where it is SYNC_SCOPE. -/
def State.refObj (s : State) (p : Nat) (w : Word) : Option Nat :=
  let v := w.toNat
  if bits v 25 6 != 0 || bits v 10 6 != 0 then none
  else if bit v 31 then
    if bits v 16 9 != 0 then none
    else if (s.part p).devObjs.contains (bits v 0 10) && p != 0 then some (devObj (bits v 0 10)) else none
  else
    let h := bits v 16 9
    if bits v 8 2 != 0 then none
    else if h < s.herdCount && p != 0 && s.partOfHerd h == p then some (herdObj h (bits v 0 8)) else none

def State.sync (s : State) (o : Nat) : SyncObj := Sparse.get {} s.syncs o
def State.setSync (s : State) (o : Nat) (x : SyncObj) : State := { s with syncs := Sparse.set s.syncs o x }

/-! ## Tahr (R463 to R467) -/

/-- A conflict that Tahr finds: trap code, first conflicting byte's device address, TAHR_OTHER. -/
structure TahrHit where
  code : Nat
  addr : Nat
  other : Word
  deriving DecidableEq, Repr

/-- The first byte that two ranges share. -/
def meetAt (a b : Nat) : Nat := max a b

/-- The conflict with the lowest byte (TAHR_ADDR holds the first conflicting byte, Table 17-11). -/
def firstHit (l : List TahrHit) : Option TahrHit :=
  l.foldl (fun m h => match m with | none => some h | some g => if h.addr < g.addr then some h else some g) none

/-- TR_UNIT: an extent overlaps a reservation of another unit and one of the two writes (R463). -/
def tahrUnitHit (t unit : Nat) (T : Tile) (es : List Ext) : Option TahrHit :=
  firstHit (es.flatMap (fun e => T.tahr.res.filterMap (fun r =>
    if r.unit != unit && overlaps e.off e.len r.lo r.len && (e.write || r.write)
    then some ⟨Code.trUnit, devAddr t (meetAt e.off r.lo), tokenOf r.unit r.num⟩ else none)))

/-- TR_WINDOW at issue: an extent touches a window that is receiving (R464). -/
def tahrWindowHit (t : Nat) (T : Tile) (es : List Ext) : Option TahrHit :=
  firstHit (es.flatMap (fun e => T.windows.filterMap (fun (_, w) =>
    let lo := w.base.toNat
    if w.opened && !w.settled && overlaps e.off e.len lo (w.wend.toNat - lo)
    then some ⟨Code.trWindow, devAddr t (meetAt e.off lo), 0⟩ else none)))

/-- TR_RING: a write into the tile's own inbound ring (Table 17-10). -/
def tahrRingHit (t : Nat) (T : Tile) (es : List Ext) : Option TahrHit :=
  firstHit (es.filterMap (fun e =>
    if e.write && overlaps e.off e.len T.ringBase T.ringSize
    then some ⟨Code.trRing, devAddr t (meetAt e.off T.ringBase), 0⟩ else none))

/-- The issue traps on an access's extents, without the one check that a resume lets pass (R465). -/
def tahrHit (t unit : Nat) (T : Tile) (es : List Ext) : Option TahrHit :=
  let but (code : Nat) (h : Option TahrHit) : Option TahrHit := if T.tahr.pass = some code then none else h
  (but Code.trUnit (tahrUnitHit t unit T es)).orElse (fun _ =>
    (but Code.trWindow (tahrWindowHit t T es)).orElse (fun _ => but Code.trRing (tahrRingHit t T es)))

/-- A trap halts the tile and is recorded and counted; on a halted tile it is only counted (R465). -/
def trapTile (t : Nat) (arrival : Bool) (hit : TahrHit) (s : State) : State :=
  let T := s.tile t
  let n := satAdd max32 T.tahr.count 1
  let sat := satHits max32 T.tahr.count 1
  if T.run = .halted then
    s.updTile t (fun T => { T with tahr := { T.tahr with count := n }, countSat := T.countSat || sat })
  else
    raiseHalt (s.partOf t) (s.updTile t (fun T => { T with
      run := .halted, park := .none, haltNew := T.haltNew ++ [⟨6, hit.code, T.pc.toNat, hit.addr⟩]
      countSat := T.countSat || sat
      tahr := { T.tahr with count := n, valid := true, arrival := arrival, code := BitVec.ofNat 8 hit.code,
                            pc := T.pc, addr := BitVec.ofNat 64 hit.addr, other := hit.other } }))

/-- An arrival trap (R465): at the next instruction boundary, which a tile that is not parked stands at. A tile not in
Tahr mode is not trapped. -/
def arrivalTrap (t code addr sender : Nat) (s : State) : State :=
  let T := s.tile t
  if !T.tahrMode then s
  else
    let later := s.updTile t (fun T => { T with tahr := { T.tahr with waiting := T.tahr.waiting ++ [(code, addr, sender)] } })
    match T.run with
    | .running => if T.syncTravel then later else trapTile t true ⟨code, addr, word sender⟩ s
    | .halted => trapTile t true ⟨code, addr, word sender⟩ s
    | .parked => later
    | _ => s

/-- Take the waiting arrival traps at an instruction boundary: the first halts the tile, the others meet it HALTED and are
only counted (R465). -/
def takeWaitingTrap (t : Nat) (s : State) : State :=
  (s.tile t).tahr.waiting.foldl (fun s (c, a, w) => trapTile t true ⟨c, a, word w⟩ s)
    (s.updTile t (fun T => { T with tahr := { T.tahr with waiting := [] } }))

/-- Step 6 of R102 for Tahr: outside Tahr mode the instruction acts; a conflict traps it, but for the check that a resume
lets pass once. -/
def tahrGate (t unit : Nat) (es : List Ext) (s : State) (k : State → State) : State :=
  let T := s.tile t
  if T.tahrMode then
    match tahrHit t unit T es with
    | some hit => trapTile t false hit s
    | none => k s
  else k s

/-- A check of Tahr's that one instruction makes of its own, by its trap code: `hit` is looked for in Tahr mode, unless the
resume lets this check pass once (R465). -/
def tahrOwn (T : Tile) (code : Nat) {α : Type} (hit : Option α) : Option α :=
  if T.tahrMode && T.tahr.pass != some code then hit else none

/-- As `tahrGate` for an issue that also reads `look` and reserves the extents `es` for its operation, number `num` of
`unit`; TAHR_FULL, a fault, comes before a trap, and a trap of the instruction's own check, `own`, reserves nothing (R463,
R465, R467). -/
def tahrReserveOwn (t unit num : Nat) (look es : List Ext) (own : Option TahrHit) (s : State) (k : State → State) : State :=
  let T := s.tile t
  let new := (es.filter (fun e => 0 < e.len)).map (fun e => (⟨unit, num, e.off, e.len, e.write⟩ : TahrRes))
  if T.tahrMode && decide (256 < T.tahr.res.length + new.length) then faultTile t 6 Code.tahrFull T.pc 0 s
  else
    tahrGate t unit (look ++ es) s (fun s =>
      match own with
      | some hit => trapTile t false hit s
      | none =>
        if T.tahrMode then k (s.updTile t (fun T => { T with tahr := { T.tahr with res := T.tahr.res ++ new } }))
        else k s)

/-- As `tahrReserveOwn` for an instruction without a check of its own. -/
def tahrReserve (t unit num : Nat) (look es : List Ext) (s : State) (k : State → State) : State :=
  tahrReserveOwn t unit num look es none s k

/-- The program observes a token as seen: the reservations it covers end (R463). -/
def Tile.observe (T : Tile) (u n : Nat) : Tile :=
  { T with tahr := { T.tahr with res := T.tahr.res.filter (fun r => !(r.unit == u && r.num ≤ n)) } }

end Sys2Proof.Machine
end

