-- ==== Sys2Proof/Machine/Operands.lean ====
section
/-! DEFINITION. The operand forms and value functions of the scalar instructions (spec/04 section 4.3): immediates,
effective offsets, shift amounts, the ALU results of Table 4-4, division (R105), loads' extensions (R107), branch
conditions and targets (R108). -/

namespace Sys2Proof.Machine

/-- The effective offset RA + sign-extended IMM, modulo 2^32 (R107, R108, R112). -/
def effOff (a : Word) (imm : BitVec 16) : Word := a + sx imm
/-- A shift amount: bits 4:0 (R104). -/
def shAmt (b : Word) : Nat := b.toNat % 32

def aluShl (a b : Word) : Word := a <<< shAmt b
def aluShr (a b : Word) : Word := a >>> shAmt b
def aluShra (a b : Word) : Word := a.sshiftRight (shAmt b)
def aluLts (a b : Word) : Word := Word.ofBool (a.slt b)
def aluLtu (a b : Word) : Word := Word.ofBool (a.ult b)
def aluMin (a b : Word) : Word := if a.slt b then a else b
def aluMinu (a b : Word) : Word := if a.ult b then a else b
def aluMax (a b : Word) : Word := if a.slt b then b else a
def aluMaxu (a b : Word) : Word := if a.ult b then b else a
/-- Bits 63:32 of the signed product. -/
def aluMulhs (a b : Word) : Word := BitVec.ofInt 32 (a.toInt * b.toInt / 2 ^ 32)
/-- Bits 63:32 of the unsigned product. -/
def aluMulhu (a b : Word) : Word := BitVec.ofNat 32 (a.toNat * b.toNat / 2 ^ 32)
/-- Signed quotient toward zero; divisor 0 gives all ones, and the overflow wraps to 0x8000_0000 (R105). -/
def aluDivs (a b : Word) : Word := if b = 0 then BitVec.allOnes 32 else a.sdiv b
/-- Unsigned quotient; divisor 0 gives all ones (R105). -/
def aluDivu (a b : Word) : Word := if b = 0 then BitVec.allOnes 32 else a / b
/-- Signed remainder with the sign of RA; divisor 0 gives RA (R105). -/
def aluRems (a b : Word) : Word := if b = 0 then a else a.srem b
/-- Unsigned remainder; divisor 0 gives RA (R105). -/
def aluRemu (a b : Word) : Word := if b = 0 then a else a % b

/-- A loaded number of `n` bytes, sign- or zero-extended into a word (R107). -/
def loadExt (signed : Bool) (n v : Nat) : Word :=
  if signed then BitVec.ofInt 32 (signedOf (8 * n) v) else word v

/-- The target of a branch or of JMPL: its own offset + 4 × sign-extended displacement (R108). -/
def branchTarget {n : Nat} (pc : Word) (disp : BitVec n) : Word := pc + (sx disp <<< 2)

end Sys2Proof.Machine
end

