-- ==== Sys2Proof/Machine/Alu.lean ====
section
/-! DEFINITION. The ALU group and the immediate instructions (spec/04 R104 to R106). -/

namespace Sys2Proof.Machine

/-- A register-form ALU instruction: RD receives `f` of RA and RB (R104). -/
def aluOp (t : Nat) (rd ra rb : Reg) (cost : Nat) (f : Word → Word → Word) (s : State) : State :=
  issue t [ra, rb] s (fun s => retire t cost s (fun T => T.setReg rd (f (T.reg ra) (T.reg rb))))

/-- As `aluOp` for the multiply group: issue 1, result 3 (Table 4-11). -/
def mulOp (t : Nat) (rd ra rb : Reg) (f : Word → Word → Word) (s : State) : State :=
  issue t [ra, rb] s (fun s => retire t 1 s (fun T => (T.setReg rd (f (T.reg ra) (T.reg rb))).later rd 3))

/-- An immediate-form instruction: RD receives `f` of RA (R106). -/
def immOp (t : Nat) (rd ra : Reg) (f : Word → Word) (s : State) : State :=
  issue t [ra] s (fun s => retire t 1 s (fun T => T.setReg rd (f (T.reg ra))))

/-- A word that breaks a field rule of its own section: ILLEGAL_INSTRUCTION (R100). -/
def illegal (t unit : Nat) (s : State) : State := faultIssue t unit ⟨Code.illegal, 0⟩ s

/-- A shift by an immediate: IMM bits 15:5 must be 0 (R106). -/
def immShift (t : Nat) (rd ra : Reg) (imm : BitVec 16) (f : Word → Word → Word) (s : State) : State :=
  if imm.toNat < 32 then immOp t rd ra (fun a => f a (zx imm)) s else issue t [ra] s (illegal t 0)

/-- ADD (R104). -/
def execAdd (t : Nat) (rd ra rb : Reg) (s : State) : Out :=
  onTile t s (aluOp t rd ra rb 1 (· + ·))

/-- SUB (R104). -/
def execSub (t : Nat) (rd ra rb : Reg) (s : State) : Out :=
  onTile t s (aluOp t rd ra rb 1 (· - ·))

/-- AND (R104). -/
def execAnd (t : Nat) (rd ra rb : Reg) (s : State) : Out :=
  onTile t s (aluOp t rd ra rb 1 (· &&& ·))

/-- OR (R104). -/
def execOr (t : Nat) (rd ra rb : Reg) (s : State) : Out :=
  onTile t s (aluOp t rd ra rb 1 (· ||| ·))

/-- XOR (R104). -/
def execXor (t : Nat) (rd ra rb : Reg) (s : State) : Out :=
  onTile t s (aluOp t rd ra rb 1 (· ^^^ ·))

/-- SHL (R104). -/
def execShl (t : Nat) (rd ra rb : Reg) (s : State) : Out :=
  onTile t s (aluOp t rd ra rb 1 aluShl)

/-- SHR (R104). -/
def execShr (t : Nat) (rd ra rb : Reg) (s : State) : Out :=
  onTile t s (aluOp t rd ra rb 1 aluShr)

/-- SHRA (R104). -/
def execShra (t : Nat) (rd ra rb : Reg) (s : State) : Out :=
  onTile t s (aluOp t rd ra rb 1 aluShra)

/-- LTS (R104). -/
def execLts (t : Nat) (rd ra rb : Reg) (s : State) : Out :=
  onTile t s (aluOp t rd ra rb 1 aluLts)

/-- LTU (R104). -/
def execLtu (t : Nat) (rd ra rb : Reg) (s : State) : Out :=
  onTile t s (aluOp t rd ra rb 1 aluLtu)

/-- MIN (R104). -/
def execMin (t : Nat) (rd ra rb : Reg) (s : State) : Out :=
  onTile t s (aluOp t rd ra rb 1 aluMin)

/-- MINU (R104). -/
def execMinu (t : Nat) (rd ra rb : Reg) (s : State) : Out :=
  onTile t s (aluOp t rd ra rb 1 aluMinu)

/-- MAX (R104). -/
def execMax (t : Nat) (rd ra rb : Reg) (s : State) : Out :=
  onTile t s (aluOp t rd ra rb 1 aluMax)

/-- MAXU (R104). -/
def execMaxu (t : Nat) (rd ra rb : Reg) (s : State) : Out :=
  onTile t s (aluOp t rd ra rb 1 aluMaxu)

/-- MUL (R104). -/
def execMul (t : Nat) (rd ra rb : Reg) (s : State) : Out :=
  onTile t s (mulOp t rd ra rb (· * ·))

/-- MULHS (R104). -/
def execMulhs (t : Nat) (rd ra rb : Reg) (s : State) : Out :=
  onTile t s (mulOp t rd ra rb aluMulhs)

/-- MULHU (R104). -/
def execMulhu (t : Nat) (rd ra rb : Reg) (s : State) : Out :=
  onTile t s (mulOp t rd ra rb aluMulhu)

/-- DIVS (R105). -/
def execDivs (t : Nat) (rd ra rb : Reg) (s : State) : Out :=
  onTile t s (aluOp t rd ra rb 33 aluDivs)

/-- DIVU (R105). -/
def execDivu (t : Nat) (rd ra rb : Reg) (s : State) : Out :=
  onTile t s (aluOp t rd ra rb 33 aluDivu)

/-- REMS (R105). -/
def execRems (t : Nat) (rd ra rb : Reg) (s : State) : Out :=
  onTile t s (aluOp t rd ra rb 33 aluRems)

/-- REMU (R105). -/
def execRemu (t : Nat) (rd ra rb : Reg) (s : State) : Out :=
  onTile t s (aluOp t rd ra rb 33 aluRemu)

/-- ADDI (R106). -/
def execAddi (t : Nat) (rd ra : Reg) (imm : BitVec 16) (s : State) : Out :=
  onTile t s (immOp t rd ra (fun a => a + sx imm))

/-- ANDI (R106). -/
def execAndi (t : Nat) (rd ra : Reg) (imm : BitVec 16) (s : State) : Out :=
  onTile t s (immOp t rd ra (fun a => a &&& zx imm))

/-- ORI (R106). -/
def execOri (t : Nat) (rd ra : Reg) (imm : BitVec 16) (s : State) : Out :=
  onTile t s (immOp t rd ra (fun a => a ||| zx imm))

/-- XORI (R106). -/
def execXori (t : Nat) (rd ra : Reg) (imm : BitVec 16) (s : State) : Out :=
  onTile t s (immOp t rd ra (fun a => a ^^^ zx imm))

/-- LTSI (R106). -/
def execLtsi (t : Nat) (rd ra : Reg) (imm : BitVec 16) (s : State) : Out :=
  onTile t s (immOp t rd ra (fun a => aluLts a (sx imm)))

/-- LTUI (R106). -/
def execLtui (t : Nat) (rd ra : Reg) (imm : BitVec 16) (s : State) : Out :=
  onTile t s (immOp t rd ra (fun a => aluLtu a (zx imm)))

/-- SHLI (R106). -/
def execShli (t : Nat) (rd ra : Reg) (imm : BitVec 16) (s : State) : Out :=
  onTile t s (immShift t rd ra imm aluShl)

/-- SHRI (R106). -/
def execShri (t : Nat) (rd ra : Reg) (imm : BitVec 16) (s : State) : Out :=
  onTile t s (immShift t rd ra imm aluShr)

/-- SHRAI (R106). -/
def execShrai (t : Nat) (rd ra : Reg) (imm : BitVec 16) (s : State) : Out :=
  onTile t s (immShift t rd ra imm aluShra)

/-- LDHI: RD := IMM × 0x1_0000; the RA field must be 0 (R106). -/
def execLdhi (t : Nat) (rd ra : Reg) (imm : BitVec 16) (s : State) : Out :=
  onTile t s (if ra = 0 then immOp t rd ra (fun _ => zx imm <<< 16) else fun s => issue t [] s (illegal t 0))

end Sys2Proof.Machine
end

