-- ==== Sys2Proof/Machine/Special.lean ====
section
/-! DEFINITION. The special functions of spec/07 R206. The reference tables that fix their bits are not part of the
spec; what it states is the error bound and the special inputs. Each result is the free choice of `Config.specialBits`
wherever that choice lies within the bound of the exact value (found here to about 2^-160), else the nearest value
(log 10). -/

namespace Sys2Proof.Machine

/-- Fraction bits of the fixed-point numbers below. -/
def fixP : Nat := 192
/-- ln 2 and √(2/π) in that fixed point. -/
def fixLn2 : Int := 4350955369971217654477563090224794165364344896676135745069
def fixRoot : Int := 5008402561253905729789098622498677126536126712276965002673

/-- A finite value as fixed point, rounded toward −∞. -/
def toFix (n : Bool) (m : Nat) (e : Int) : Int :=
  let k := e + fixP
  let x : Int := if 0 ≤ k then (m <<< k.toNat : Nat) else (m >>> (-k).toNat : Nat)
  if n then -x else x

/-- The Taylor sum of e^r for 0 ≤ r < ln 2: term `i` onward, with `term` = r^i / i!. -/
def expSeries (r : Nat) : Nat → Nat → Nat → Nat → Nat
  | 0, _, _, acc => acc
  | fuel + 1, i, term, acc =>
    let next := ((term * r) >>> fixP) / (i + 1)
    expSeries r fuel (i + 1) next (acc + next)

/-- e^x for a fixed-point x, as m × 2^e with a relative error near 2^-180. -/
def expFix (x : Int) : FVal :=
  if x < -(2000 <<< fixP : Nat) then .fin false 1 (-2000)
  else if (2000 <<< fixP : Nat) < x then .fin false 1 2000
  else
    let k := x / fixLn2
    let r := (x - k * fixLn2).toNat
    .fin false (expSeries r 48 0 (1 <<< fixP) (1 <<< fixP)) (k - fixP)

/-- The odd series 2 Σ z^(2i+1)/(2i+1) in fixed point. -/
def atanhSeries (z2 : Nat) : Nat → Nat → Nat → Nat → Nat
  | 0, _, _, acc => 2 * acc
  | fuel + 1, i, pow, acc => atanhSeries z2 fuel (i + 1) ((pow * z2) >>> fixP) (acc + pow / (2 * i + 1))

/-- ln of m × 2^e, m not 0, in fixed point. -/
def logFix (m : Nat) (e : Int) : Int :=
  let bl := bitLen m
  let y := (m <<< fixP) >>> (bl - 1)
  let one := 1 <<< fixP
  let z := ((y - one) <<< fixP) / (y + one)
  (e + bl - 1) * fixLn2 + (atanhSeries ((z * z) >>> fixP) 64 0 z 0 : Nat)

/-- A fixed-point number as a value. -/
def ofFix (x : Int) : FVal := .fin (decide (x < 0)) x.natAbs (-(fixP : Int))

/-- 1 / (1 + e^−u) for a fixed-point u. -/
def sigmFix (u : Int) : FVal :=
  match expFix (-(u.natAbs : Int)) with
  | .fin _ s k =>
    let low := if 0 ≤ k + fixP then s <<< (k + fixP).toNat else s >>> (-(k + fixP)).toNat
    let d := (1 <<< fixP) + low
    if 0 ≤ u then .fin false ((1 <<< (2 * fixP)) / d) (-(fixP : Int))
    else .fin false ((s <<< fixP) / d) k
  | v => v

/-- tanh of a finite value that is not 0. -/
def tanhVal (n : Bool) (m : Nat) (e : Int) : FVal :=
  let one := 1 <<< fixP
  if (bitLen m : Int) + e < -20 then
    let sq := (toFix false (m * m) (2 * e)).toNat
    FVal.mul (.fin n m e) (.fin false (one - sq / 3) (-(fixP : Int)))
  else
    match expFix (-(2 * toFix false m e)) with
    | .fin _ s k =>
      let low := if 0 ≤ k + fixP then s <<< (k + fixP).toNat else s >>> (-(k + fixP)).toNat
      .fin n (((one - low) <<< fixP) / (one + low)) (-(fixP : Int))
    | v => v

/-- The fixed-point argument 2 √(2/π) (A + 0.044715 A³) of the GELU's sigmoid form. -/
def geluArg (n : Bool) (m : Nat) (e : Int) : Int :=
  let a := toFix n m e
  let c := toFix n (m * m * m) (3 * e)
  (2 * fixRoot * (a + 44715 * c / 1000000)) / (2 ^ fixP : Nat)

/-- The exact value, to about 2^-160, of a special function (VOP value) at a finite operand that is not 0. -/
def specialExact (vop : Nat) (n : Bool) (m : Nat) (e : Int) : FVal :=
  let a : FVal := .fin n m e
  match vop with
  | 0x10 => expFix (toFix n m e)
  | 0x11 => expFix ((toFix n m e * fixLn2) / (2 ^ fixP : Nat))
  | 0x12 => if n then .nan else ofFix (logFix m e)
  | 0x13 => FVal.div (.fin false 1 0) a
  | 0x14 => if n then .nan else FVal.div (.fin false 1 0) (FVal.sqrt a)
  | 0x15 => tanhVal n m e
  | 0x16 => sigmFix (toFix n m e)
  | 0x17 => if 12 < (bitLen m : Int) + e then (if n then .fin true 1 (-2000) else a) else a.mul (sigmFix (geluArg n m e))
  | _ => if 12 < (bitLen m : Int) + e then (if n then .fin true 1 (-2000) else a) else a.mul (sigmFix (toFix n m e))

/-- The result at a NaN, an infinity or a zero (R206). -/
def specialLimit (vop : Nat) (a : FVal) : FVal :=
  match vop, a with
  | _, .nan => .nan
  | 0x10, .inf n => if n then fzero else .inf false
  | 0x10, _ => .fin false 1 0
  | 0x11, .inf n => if n then fzero else .inf false
  | 0x11, _ => .fin false 1 0
  | 0x12, .inf n => if n then .nan else .inf false
  | 0x12, _ => .inf true
  | 0x13, .inf n => .fin n 0 0
  | 0x13, _ => .inf a.isNeg
  | 0x14, .inf n => if n then .nan else fzero
  | 0x14, _ => .inf a.isNeg
  | 0x15, .inf n => .fin n 1 0
  | 0x15, _ => a
  | 0x16, .inf n => if n then fzero else .fin false 1 0
  | 0x16, _ => .fin false 1 (-1)
  | _, .inf n => if n then .fin true 0 0 else .inf false
  | _, _ => a

/-- The ulp bound of a special function: 1 for VEXP2, VRCP and VRSQRT, 2 for the others (R206). -/
def specialUlps (vop : Nat) : Nat := if vop = 0x11 || vop = 0x13 || vop = 0x14 then 1 else 2

/-- The exponent of the unit in the last place at m × 2^e. -/
def ulpExp (m : Nat) (e : Int) : Int := max ((bitLen m : Int) - 1 + e - 23) (-149)

/-- The distance of two finite values in units of 2^u, where both are multiples of it. -/
def unitsApart (u : Int) (n : Bool) (m : Nat) (e : Int) (k : Bool) (p : Nat) (q : Int) : Nat :=
  (FVal.units n m e u - FVal.units k p q u).natAbs

/-- The exact value, from the value found to about 2^-160. VTANH, VSIGM, VGELU and VSILU of a finite value that is not 0 never
reach a binary32 number that the value found falls on: they lie just below it in magnitude. VEXP2 of an integer is exact. -/
def exactOf (vop : Nat) (a y : FVal) : FVal :=
  match y with
  | .fin n m e =>
    if 0x15 ≤ vop then
      if FVal.eq (f32 (rne32 y)) y then .fin n (m * 2 ^ 200 - 1) (e - 200) else y
    else if vop = 0x11 then
      match a with
      | .fin k p q =>
        let i := if 0 ≤ q then p * 2 ^ q.toNat else p / 2 ^ (-q).toNat
        if decide (q < 0) && p % 2 ^ (-q).toNat != 0 then y
        else if 2000 < i then y
        else .fin false 1 (if k then -(i : Int) else i)
      | _ => y
    else y
  | _ => y

/-- A candidate code lies within `k` units in the last place of a finite exact value. An infinity stands for 2^128. -/
def withinUlps (k code : Nat) (y : FVal) : Bool :=
  match y with
  | .fin ny my ey =>
    let q := ulpExp my ey
    let near (n : Bool) (m : Nat) (e : Int) : Bool :=
      let u := min (min e ey) q
      n == ny && decide (unitsApart u n m e ny my ey ≤ k * 2 ^ (q - u).toNat)
    match f32 code with
    | .nan => false
    | .inf n => near n 1 128
    | .fin n m e => near n m e
  | _ => false

/-- A special function of a binary32 value (R206). -/
def special (vop : Nat) (a : FVal) : FVal :=
  match a with
  | .fin n m e =>
    if m = 0 then specialLimit vop a
    else
      match specialExact vop n m e with
      | .fin ny my ey =>
        if my = 0 then .fin ny 0 0
        else
          let y := exactOf vop a (.fin ny my ey)
          let free := (Config.specialBits vop (BitVec.ofNat 32 (fmtF32.ieee a))).toNat
          if withinUlps (specialUlps vop) free y then f32 free else f32 (rne32 y)
      | y => y
  | _ => specialLimit vop a

end Sys2Proof.Machine
end

