-- ==== Sys2Proof/Machine/Flags.lean ====
section
/-! DEFINITION. Every sticky flag and saturating event counter of a tile's register block: the core has no condition
flags (R65); these are TILE_STATUS bits 21 to 16 and the counters that set them (Table 3-7, R97, R91). -/

namespace Sys2Proof.Machine

/-- REMOTE_REJECT + 1 and REJECT_SEEN (R89), saturating into COUNT_SAT (R97). -/
def Tile.countReject (T : Tile) : Tile :=
  { T with remoteReject := satAdd max32 T.remoteReject 1, rejectSeen := true,
           countSat := T.countSat || satHits max32 T.remoteReject 1 }
/-- ORPHAN_COUNT + `k` and ORPHAN_SEEN (R257, R261, R270). -/
def Tile.countOrphan (T : Tile) (k : Nat) : Tile :=
  if k = 0 then T else
  { T with orphanCount := satAdd max32 T.orphanCount k, orphanSeen := true,
           countSat := T.countSat || satHits max32 T.orphanCount k }
/-- REWIND_COUNT + 1 and REWIND_SEEN (R263). -/
def Tile.countRewind (T : Tile) : Tile :=
  { T with rewindCount := satAdd max32 T.rewindCount 1, rewindSeen := true,
           countSat := T.countSat || satHits max32 T.rewindCount 1 }
/-- SUM_ABANDON + `k` (R311). -/
def Tile.countAbandon (T : Tile) (k : Nat) : Tile :=
  if k = 0 then T else
  { T with sumAbandon := satAdd max32 T.sumAbandon k,
           countSat := T.countSat || satHits max32 T.sumAbandon k }
/-- WIN_COUNT of window `w` + `k`, saturating into WIN_SAT (R88, R91, R310). -/
def Tile.countWindow (T : Tile) (w k : Nat) : Tile :=
  let x := T.window w
  { T.setWindow w { x with count := satAdd max32 x.count k } with
    winSat := T.winSat || satHits max32 x.count k }

/-- TILE_STATUS bits 21:16 as a number (Table 3-7). -/
def Tile.sticky (T : Tile) : Nat :=
  (if T.countSat then 2 ^ 21 else 0) + (if T.winSat then 2 ^ 20 else 0) + (if T.eccSeen then 2 ^ 19 else 0) +
  (if T.rewindSeen then 2 ^ 18 else 0) + (if T.orphanSeen then 2 ^ 17 else 0) + (if T.rejectSeen then 2 ^ 16 else 0)
/-- A write to TILE_STATUS: W1C bits clear where 1 is written, the rest ignores the write (R9). -/
def Tile.clearSticky (T : Tile) (v : Nat) : Tile :=
  { T with
    countSat := T.countSat && !bit v 21, winSat := T.winSat && !bit v 20, eccSeen := T.eccSeen && !bit v 19,
    rewindSeen := T.rewindSeen && !bit v 18, orphanSeen := T.orphanSeen && !bit v 17,
    rejectSeen := T.rejectSeen && !bit v 16 }

/-- TILE_STATUS.STATE (Table 3-7). -/
def TileRun.code : TileRun → Nat
  | .stopped => 0
  | .running => 1
  | .parked => 2
  | .faulted => 3
  | .halted => 4
/-- TILE_STATUS.PARK_CAUSE (Table 3-7). -/
def Park.cause : Park → Nat
  | .none => 0x00
  | .sync _ _ => 0x01
  | .quiesce => 0x01
  | .token _ _ => 0x02
  | .endUnits => 0x02
  | .credit => 0x03
  | .full u => if u = 3 then 0x04 else 0x06
  | .drain _ => 0x05
  | .endDrain => 0x05

end Sys2Proof.Machine
end

