-- ==== Sys2Proof/Machine/PortOps.lean ====
section
/-! DEFINITION. The receive port and its inbound ring (spec/09 sections 9.3, 9.4 and 9.6): allocation, skip markers and
void records, the wait list, and a state change with its flush. -/

namespace Sys2Proof.Machine

/-! ## Messages in flight -/

def State.msg (s : State) (id : Nat) : Option Msg := Sparse.find s.msgs id
def State.setMsg (s : State) (id : Nat) (m : Msg) : State := { s with msgs := Sparse.set s.msgs id m }
/-- Change a message in flight. -/
def State.updMsg (s : State) (id : Nat) (f : Msg → Msg) : State :=
  match s.msg id with
  | some m => s.setMsg id (f m)
  | none => s

/-- LENGTH, JOB, HANDLER and DST_TILE of a header (Table 9-1). -/
def Msg.length (m : Msg) : Nat := bits m.hdr 32 16
def Msg.job (m : Msg) : Nat := bits m.hdr 24 8
def Msg.index (m : Msg) : Nat := bits m.hdr 16 8
def Msg.dst (m : Msg) : Nat := bits m.hdr 0 14
/-- The footprint of a message's record: 16 + LENGTH rounded up to 16 (R264). -/
def Msg.footprint (m : Msg) : Nat := ceilDiv (16 + m.length) 16 * 16
/-- An answer starts on its way to the sender. -/
def Msg.reply (m : Msg) (a : PortAns) : Msg := { m with answers := m.answers ++ [a] }

/-! ## The ring (R264 to R267) -/

def RingRec.size : RingRec → Nat
  | .msg _ _ n _ => n
  | .marker _ n => n
  | .void _ n => n
def RingRec.off : RingRec → Nat
  | .msg _ o _ _ => o
  | .marker o _ => o
  | .void o _ => o

/-- Bytes that the ring's records cover. -/
def PortUnit.used (P : PortUnit) : Nat := P.ring.foldl (fun a r => a + r.size) 0
/-- Free space (R265, R275). -/
def Tile.ringFree (T : Tile) : Nat := T.ringSize - T.port.used

/-- Where a record of `f` bytes goes: the skip marker written first, the offset, the new write position (R265). -/
structure RingPlace where
  marker : Option RingRec
  off : Nat
  write : Nat
  deriving DecidableEq, Repr

/-- The positions as an allocation first sets them (R265): an empty ring starts over, and a write position at the ring's end
wraps. -/
def Tile.ringStart (T : Tile) : Tile :=
  if T.port.ring.isEmpty then { T with port := { T.port with readPos := T.ringBase, writePos := T.ringBase } }
  else if T.port.writePos = T.ringBase + T.ringSize then { T with port := { T.port with writePos := T.ringBase } }
  else T

/-- The allocation of R265; none where the request does not fit. -/
def Tile.ringPlace (T : Tile) (f : Nat) : Option RingPlace :=
  let last := T.ringBase + T.ringSize
  let w := if T.port.ring.isEmpty then T.ringBase else T.port.writePos
  let w := if last - w = 0 then T.ringBase else w
  let tail := last - w
  if f ≤ tail ∧ f ≤ T.ringFree then some ⟨none, w, w + f⟩
  else if tail < f ∧ f + tail ≤ T.ringFree then some ⟨some (.marker w tail), T.ringBase, T.ringBase + f⟩
  else none

/-- The 16-byte header of a skip marker, and of a void record of `n` bytes (R266). -/
def markerHead : List Byte := leBytes 16 0xC000
def voidHead (n : Nat) : List Byte := leBytes 16 ((n - 16) * 2 ^ 32 + 0x8000)

/-- A ring grant for message `id` of tile `r`'s port, where it fits (R257 order 5, R258). -/
def ringGrant (r id : Nat) (s : State) : Option State :=
  match s.msg id with
  | none => none
  | some m =>
    match (s.tile r).ringPlace m.footprint with
    | none => none
    | some p =>
      let s := s.updTile r (fun T => { T with port := { T.port with
        readPos := if T.port.ring.isEmpty then (match p.marker with | some k => k.off | none => p.off) else T.port.readPos
        writePos := p.write
        ring := T.port.ring ++ p.marker.toList ++ [.msg id p.off m.footprint false] } })
      let s := match p.marker with
        | some k => s.writeMem (devAddr r k.off) markerHead
        | none => s
      some (s.updMsg id (fun m => { m.reply .grant with recv := .granted, landed := p.off, direct := false }))

/-- Skip markers and void records at the read position are passed at once (R266). DESIGN CHOICE (log 96): past a void record that
ends exactly at the ring's end the read position is RING_BASE at once, where R266 says the record's end. -/
def PortUnit.pass (base last : Nat) : Nat → List RingRec → Nat × List RingRec
  | _, .marker o n :: r => PortUnit.pass base last (if last ≤ o + n then base else o + n) r
  | _, .void o n :: r => PortUnit.pass base last (if last ≤ o + n then base else o + n) r
  | pos, r => (pos, r)

/-- The read position moves past what stands there as passed. -/
def Tile.ringPass (T : Tile) : Tile :=
  let x := PortUnit.pass T.ringBase (T.ringBase + T.ringSize) T.port.readPos T.port.ring
  { T with port := { T.port with readPos := x.1, ring := x.2 } }

/-- Requests are granted from the head of the wait list for as long as the head fits (R258). -/
def serveWaiters (r : Nat) : List Nat → State → State
  | [], s => s
  | id :: rest, s =>
    let s := s.updTile r Tile.ringStart
    match ringGrant r id s with
    | none => s
    | some s => serveWaiters r rest (s.updTile r (fun T => { T with port := { T.port with waitList := rest } }))

/-- Freed space: records passed, then waiting requests granted. DESIGN CHOICE (log 106): R258 names RQPOP; requests are granted
too where space is freed by a void record that is passed, or where a withdrawal takes the head of the wait list away. -/
def ringAdvance (r : Nat) (s : State) : State :=
  let s := s.updTile r Tile.ringPass
  serveWaiters r (s.tile r).port.waitList s

/-- A record of the ring is a message's. -/
def RingRec.isMsg (id : Nat) : RingRec → Bool
  | .msg i _ _ _ => i == id
  | _ => false

/-- A credit returns without a committed message: a ring credit leaves a void record; a direct credit leaves its handler
busy (R252, R256, R266). -/
def returnCredit (r id : Nat) (s : State) : State :=
  match (s.tile r).port.ring.find? (RingRec.isMsg id) with
  | none => s
  | some k =>
    let s := s.writeMem (devAddr r k.off) (voidHead k.size)
    ringAdvance r (s.updTile r (fun T => { T with port := { T.port with
      ring := T.port.ring.map (fun e => if e.isMsg id then .void e.off e.size else e) } }))

/-- The oldest committed message at the read position: its record (R267). -/
def Tile.ringHead (T : Tile) : Option RingRec :=
  match T.port.ring with
  | .msg id o n true :: _ => some (.msg id o n true)
  | _ => none

/-- RING_USE.MSGS: committed records not yet popped (Table 9-7). -/
def PortUnit.committed (P : PortUnit) : Nat :=
  (P.ring.filter (fun e => match e with | .msg _ _ _ c => c | _ => false)).length

/-! ## State changes (R261, R270) -/

/-- Every waiting request is discarded with a status and counted (R261). -/
def flushWaiters (r status : Nat) (s : State) : State :=
  let w := (s.tile r).port.waitList
  let s := w.foldl (fun s id => s.updMsg id (fun m => { m.reply (.outcome status 0 false) with recv := .closed })) s
  s.updTile r (fun T => { T.countOrphan w.length with port := { T.port with waitList := [] } })

/-- The port becomes closed (R132, R261, R270). -/
def closePort (r : Nat) (s : State) : State :=
  flushWaiters r 2 (s.updTile r (fun T => { T with port := { T.port with state := .closed } }))

/-- The port is reset (R261, R268, R270): the ring empties and waiting requests end. -/
def resetPort (r : Nat) (s : State) : State :=
  flushWaiters r 3 (s.updTile r (fun T => { T with port := { T.port with
    state := .reset, ring := [], readPos := T.ringBase, writePos := T.ringBase } }))

end Sys2Proof.Machine
end

