-- ==== Sys2Proof/Machine/Post.lean ====
section
/-! DEFINITION. Completion records and events (spec/16 sections 16.5 and 16.7): writing a record to its ring or holding
it, merging a held event, a command's interim and final records. -/

namespace Sys2Proof.Machine

/-- The host reaches the module's registers and memory, and the module the host's, over a trained CXL port (R550). -/
def Power.reaches (p : Power) : Bool := p.control && p.cxlWidth != 0

def State.mb (s : State) (m : Nat) : Mailbox := Sparse.get {} s.mailboxes m
def State.setMb (s : State) (m : Nat) (x : Mailbox) : State := { s with mailboxes := Sparse.set s.mailboxes m x }
def State.updMb (s : State) (m : Nat) (f : Mailbox → Mailbox) : State := s.setMb m (f (s.mb m))

/-- Records that the ring of a mailbox holds. -/
def Mailbox.ringLen (x : Mailbox) : Nat := 2 ^ x.crSize
/-- The ring has room (R433). -/
def Mailbox.room (x : Mailbox) : Bool := decide ((x.tail + 65536 - x.head) % 65536 < x.ringLen)

/-- The 64 bytes of a record with its PHASE (Table 16-4). -/
def Record.bytes (r : Record) (phase : Nat) : List Byte :=
  leBytes 32 (phase % 2 + (if r.final then 2 else 0) + (if r.event then 8 else 4) + r.status * 2 ^ 8
      + r.stamp % 2 ^ 64 * 2 ^ 64 + r.seq % 2 ^ 16 * 2 ^ 128 + r.opcode % 2 ^ 16 * 2 ^ 144 + r.tag % 2 ^ 32 * 2 ^ 160
      + r.applied % 2 ^ 16 * 2 ^ 192 + r.failItem % 2 ^ 16 * 2 ^ 208 + r.aux % 2 ^ 32 * 2 ^ 224)
    ++ leBytes 32 (leNat r.detail)

/-- A record is written into its ring's next slot and TAIL advances (R433). -/
def ringWrite (m : Nat) (r : Record) (s : State) : State :=
  let x := s.mb m
  let slot := x.tail % x.ringLen
  let phase := 1 - x.tail / x.ringLen % 2
  let s := s.writeMem (hostBase + x.crBase + slot * 64) (r.bytes phase)
  s.updMb m (fun x => { x with tail := (x.tail + 1) % 65536, last := some r })

/-- A record is written where ENABLE is 1, the ring has room and no earlier record is held, and is held otherwise. A write
to the ring may fail, and does while the CXL port is down: RING_ERR is set, ENABLE clears and the record is held (R433,
R434, R550; log 85). -/
def emit (m : Nat) (r : Record) (s : State) : State :=
  let x := s.mb m
  let t := { s with free := s.free + 1 }
  if !(x.enable && x.room && x.held.isEmpty) then s.updMb m (fun x => { x with held := x.held ++ [r] })
  else if !s.power.reaches || Config.ringFails s.free then
    t.updMb m (fun x => { x with held := x.held ++ [r], ringErr := true, enable := false })
  else ringWrite m r t

/-- The status codes of Table 16-5. -/
inductive Status where
  | ok | deferred | busy | rejectedState | rejectedArg | noResource | authFail | faulted
  deriving DecidableEq, Repr

def Status.code : Status → Nat
  | .ok => 0
  | .deferred => 1
  | .busy => 2
  | .rejectedState => 3
  | .rejectedArg => 4
  | .noResource => 5
  | .authFail => 6
  | .faulted => 7

/-- An event is posted to a ring, or merged into a held event of the same code and source (R435, R444). -/
def postEvent (m code src : Nat) (detail : List Byte) (s : State) : State :=
  let x := s.mb m
  let same (r : Record) : Bool := r.event && r.opcode == code && r.src == src
  if x.held.any same then
    s.updMb m (fun x => { x with
      held := x.held.map (fun r => if same r then { r with aux := r.aux + 1 } else r)
      evMerged := satAdd max32 x.evMerged 1 })
  else
    emit m { detail := detail, aux := 1, opcode := code, stamp := s.time, event := true, src := src } s

/-- The live partitions. -/
def State.liveParts (s : State) : List Nat := (List.range 17).filter (fun p => decide (0 < p) && (s.part p).live)

/-- An event goes to ring 0 and to every live partition's ring (Table 16-12). -/
def postAll (code src : Nat) (detail : List Byte) (s : State) : State :=
  (0 :: s.liveParts).foldl (fun s m => postEvent m code src detail s) s

namespace Ev
def contextFault := 0x8001
def jobEnd := 0x8002
def linkState := 0x8003
def hwFault := 0x8004
def memEvent := 0x8005
def ledgerBreak := 0x8006
def optics := 0x8007
def health := 0x8008
end Ev

/-- A HW_FAULT detail (Table 16-12a). -/
def hwDetail (cls idx : Nat) (stopped : Bool) (value : Nat) : List Byte :=
  leBytes 1 cls ++ leBytes 1 0 ++ leBytes 2 idx ++ leBytes 1 (if stopped then 1 else 0) ++ leBytes 3 0 ++ leBytes 8 value

/-- A hardware fault is reported to every ring, and ledger checks are suspended (R444, R491). -/
def postHw (cls idx : Nat) (stopped : Bool) (value : Nat) (s : State) : State :=
  postAll Ev.hwFault (cls * 2 ^ 16 + idx) (hwDetail cls idx stopped value) { s with hwFaulted := true }

/-- A taken command of a mailbox by SEQ. -/
def State.cmd (s : State) (m q : Nat) : Option Cmd := (s.mb m).cmds.find? (fun c => c.seq == q)
/-- Change a taken command. -/
def State.updCmd (s : State) (m q : Nat) (f : Cmd → Cmd) : State :=
  s.updMb m (fun x => { x with cmds := x.cmds.map (fun c => if c.seq == q then f c else c) })

/-- The record of a command (Table 16-4). -/
def cmdRecord (s : State) (c : Cmd) (st : Status) (failItem aux : Nat) (detail : List Byte) (final : Bool) : Record :=
  { detail := detail, aux := aux, failItem := failItem, applied := c.applied, tag := c.tag, opcode := c.opcode,
    seq := c.seq, stamp := s.time, status := st.code, final := final }

/-- A command's final record; it is no longer outstanding (R436). -/
def finish (m q : Nat) (st : Status) (failItem aux : Nat) (detail : List Byte) (s : State) : State :=
  match s.cmd m q with
  | none => s
  | some c =>
    emit m (cmdRecord s c st failItem aux detail true)
      (s.updMb m (fun x => { x with cmds := x.cmds.filter (fun d => d.seq != q) }))

/-- The final record with no failing item and no detail. -/
def finishPlain (st : Status) (s : State) (w : Nat × Nat) : State := finish w.1 w.2 st 0xFFFF 0 [] s

/-- A command's interim record, DEFERRED (R436). -/
def deferCmd (m q : Nat) (s : State) : State :=
  match s.cmd m q with
  | none => s
  | some c => emit m (cmdRecord s c .deferred 0xFFFF 0 [] false) (s.updCmd m q (fun c => { c with phase := .deferred }))

end Sys2Proof.Machine
end

