-- ==== Sys2Proof/Machine/Steps.lean ====
section
/-! DEFINITION. Voltage steps (spec/02 R40 to R45) and the step that Chamois chooses for a superstep (spec/19 R495 to
R497). -/

namespace Sys2Proof.Machine

/-- The logical herds of a partition by partition herd index (R451). -/
def Partition.herds (P : Partition) : List Nat := P.quads.flatMap (fun q => (List.range 4).map (fun i => 4 * q + i))
/-- Partition herd count H (R451). -/
def Partition.herdCount (P : Partition) : Nat := 4 * P.quads.length

def State.quad (s : State) (q : Nat) : QuadDom := Sparse.get {} s.quads q
def State.updQuad (s : State) (q : Nat) (f : QuadDom → QuadDom) : State :=
  { s with quads := Sparse.set s.quads q (f (s.quad q)) }
def State.ppower (s : State) (p : Nat) : PartPower := Sparse.get {} s.chamois.parts p
def State.updCham (s : State) (f : Chamois → Chamois) : State := { s with chamois := f s.chamois }
def State.updPpower (s : State) (p : Nat) (f : PartPower → PartPower) : State :=
  s.updCham (fun c => { c with parts := Sparse.set c.parts p (f (s.ppower p)) })

/-- The partition that owns a quad, 0 for none. -/
def State.partOfQuad (s : State) (q : Nat) : Nat := s.partOfHerd (4 * q)

/-! ## Activity and block counts (R479, R492) -/

/-- The key under which a herd's activity counts: with the job that holds the herd (R488). -/
def State.actKey (s : State) (h : Nat) : Nat := (s.part (s.partOfHerd h)).holding * 65536 + h
/-- A herd's activity counters change. -/
def State.noteAct (s : State) (h : Nat) (f : HerdActivity → HerdActivity) : State :=
  s.updCham (fun c => { c with acts := Sparse.set c.acts (s.actKey h) (f (Sparse.get {} c.acts (s.actKey h))) })
/-- Accesses or link blocks on behalf of job `j`, 0 for none, are counted. -/
def State.noteUse (s : State) (j : Nat) (f : BlockUse → BlockUse) : State :=
  s.updCham (fun c => { c with uses := Sparse.set c.uses j (f (Sparse.get {} c.uses j)) })
/-- The key of a partition's own traffic, which no job pays (R479, R488). -/
def partUse (p : Nat) : Nat := 65536 + p
/-- `n` block accesses of the DDR tier, or of HBM. -/
def State.noteBlocks (s : State) (j : Nat) (ddr : Bool) (n : Nat) : State :=
  s.noteUse j (fun u => if ddr then { u with ddr := u.ddr + n } else { u with hbm := u.hbm + n })
/-- 64-byte blocks of some byte ranges, of the tier that each lies in, accessed on behalf of job `j`. -/
def State.noteRanges (s : State) (j : Nat) (rs : List (Nat × Nat)) : State :=
  rs.foldl (fun s r => s.noteBlocks j (decide (ddrBase ≤ r.1)) (ceilDiv r.2 64)) s
/-- `n` link blocks sent or received. -/
def State.noteLink (s : State) (j n : Nat) : State := s.noteUse j (fun u => { u with link := u.link + n })

/-! ## Voltage steps (R40 to R45) -/

/-- The core voltage of a step in mV (Table 2-1). -/
def stepVolt (step : Nat) : Nat := 550 + 25 * step

/-- A quad domain is commanded to a step; the spine is raised first where it must be (R44). -/
def commandQuad (q step : Nat) (s : State) : State :=
  let s := if s.spineStep < step then { s with spineStep := step, spineSettled := false } else s
  s.updQuad q (fun x => { x with settled := x.settled && x.step == step, step := step })
/-- Every quad of a partition (R41). -/
def commandStep (p step : Nat) (s : State) : State := (s.part p).quads.foldl (fun s q => commandQuad q step s) s
/-- The step in force of a partition. -/
def State.stepOf (s : State) (p : Nat) : Nat := (s.quad ((s.part p).quads.headD 0)).step

/-! ## The step for a superstep (R495 to R497) -/

/-- Planning power of a class in W, and the step factors × 100 (Table 19-2). -/
def classWatts (c : Nat) : Nat := [12, 12, 24, 36, 51].getD c 51
def stepFactor (k : Nat) : Nat := [28, 35, 42, 49, 58, 68, 77, 89, 100, 112, 125, 139, 154].getD k 154

/-- The class nearest to a power per quad (Table 19-2). -/
def nearestClass (w : Rat) : Nat :=
  let d (c : Nat) : Rat := if w < (classWatts c : Rat) then (classWatts c : Rat) - w else w - (classWatts c : Rat)
  [2, 3, 4].foldl (fun b c => if d c < d b then c else b) 1

/-- The class hinted for the coming superstep by any tile, 0 for none. -/
def Partition.hinted (P : Partition) : Nat :=
  (P.hintAt.filter (fun e => e.1 / 65536 == 1)).foldl (fun m e => max m e.2) 0
/-- The class that the activity of the superstep just ended measured (R495). -/
def State.measuredClass (s : State) (p : Nat) : Nat :=
  let x := s.ppower p
  let n := x.ticks * 4 * (s.part p).quads.length
  if n = 0 then 1 else nearestClass ((x.act : Rat) / ((n : Rat) * 1000000))
/-- The class of the coming superstep. -/
def State.comingClass (s : State) (p : Nat) : Nat :=
  let c := (s.part p).hinted
  if c = 0 then s.measuredClass p else c

/-- The ceiling in force: below the lowest barred step of any quad of the partition (R497). -/
def State.ceiling (s : State) (p : Nat) : Nat :=
  (s.part p).quads.foldl (fun m q => match (s.quad q).barred with | some b => min m (b - 1) | none => m) (s.ppower p).ceiling

/-- The core allowance of the module, in W (R496). -/
def State.allowance (s : State) : Rat :=
  let c := s.chamois
  ((c.budget : Rat) - c.carry / 1000) / (1073 / 1000) - c.fixed
/-- A partition's share: by herds among the partitions whose herds a job holds (R496). -/
def State.powerShare (s : State) (p : Nat) : Rat :=
  let held := s.liveParts.filter (fun m => m == p || (s.part m).holding != 0)
  let total := (held.map (fun m => (s.part m).herdCount)).sum
  s.allowance * ((s.part p).herdCount : Rat) / (total : Rat)

/-- The greatest step at or below `k` that the share allows. -/
def fitStep (quads cls : Nat) (share : Rat) : Nat → Nat
  | 0 => 0
  | k + 1 =>
    if share < ((quads * classWatts cls * stepFactor (k + 1) : Nat) : Rat) / 100 then fitStep quads cls share k else k + 1

/-- The step that Chamois chooses for a partition's next superstep (R496). -/
def State.chooseStep (s : State) (p : Nat) : Nat :=
  let cls := s.comingClass p
  let top := s.ceiling p
  fitStep (s.part p).quads.length cls (s.powerShare p) (if cls = 4 then min top 11 else top)

end Sys2Proof.Machine
end

