-- ==== Sys2Proof/Machine/JobOps.lean ====
section
/-! DEFINITION. Operations over jobs: their herds and tiles (R451, R453), taking and freeing the herds (R480), a tile's
END counted for the job (R445), charges (R488). -/

namespace Sys2Proof.Machine

def State.job (s : State) (j : Nat) : Job := Sparse.get {} s.jobs j
def State.setJob (s : State) (j : Nat) (x : Job) : State := { s with jobs := Sparse.set s.jobs j x }
def State.updJob (s : State) (j : Nat) (f : Job → Job) : State := s.setJob j (f (s.job j))
/-- A job id in use (R249). -/
def State.jobUsed (s : State) (j : Nat) : Bool := decide (0 < j) && (Sparse.find s.jobs j).isSome
/-- The job ids in use of a partition. -/
def State.jobsOf (s : State) (p : Nat) : List Nat := (s.jobs.filter (fun e => e.2.part == p)).map (·.1)

/-- The role of tile-in-herd `i`. -/
def Job.role (J : Job) (i : Nat) : Role := J.roles.getD i {}
/-- The region offset of tile-in-herd `i` in its herd (R453). -/
def Job.regionBase (J : Job) (i : Nat) : Nat := (J.roles.take i).foldl (fun a r => a + r.size) 0
/-- The used tiles of one herd, as tile ids (R73). -/
def Job.tilesIn (J : Job) (h : Nat) : List Nat :=
  ((List.range 32).filter (fun i => decide (0 < (J.role i).size))).map (fun i => h * 32 + i)
/-- The used tiles of a job, by rising partition herd index. -/
def State.usedTiles (s : State) (j : Nat) : List Nat :=
  let J := s.job j
  (s.part J.part).herds.flatMap J.tilesIn

/-- The job that holds a tile's herds, 0 for none. -/
def State.jobOfTile (s : State) (t : Nat) : Nat := (s.part (s.partOf t)).holding
/-- The closing object of a job, by object key (R277). -/
def State.closing (s : State) (j : Nat) : Option Nat :=
  let J := s.job j
  (J.syncs.find? (fun d => d.closing && d.dev)).map (fun d => devObj ((s.part J.part).devObjs.getD d.obj 0))

/-- The pass of a job (R480). -/
def Job.pass (J : Job) : Rat := J.passBase + (J.heldNs : Rat) / (J.weight : Rat)

/-- The ready job with the smallest pass; ties go to the lowest id (R480). -/
def State.nextReady (s : State) (p : Nat) : Option Nat :=
  ((s.jobsOf p).filter (fun j => (s.job j).state = .ready)).foldl
    (fun b j => match b with
      | none => some j
      | some k => if (s.job j).pass < (s.job k).pass then some j else some k) none

/-- A tile's period counters (Table 20-1). -/
def Tile.counters (T : Tile) : List Nat :=
  [T.remoteReject, T.orphanCount, T.rewindCount, T.sumAbandon, T.tahr.count, T.vec.nonfinCnt, T.vec.satCnt]
    ++ (List.range 32).flatMap (fun k => [(T.skip k).elems, (T.skip k).sampled, (T.skip k).miss])
/-- A sync object of a partition's herds or of its device objects. -/
def Partition.ownsObj (P : Partition) (o : Nat) : Bool :=
  if o < 0x20000 then P.herds.contains (o / 256) else P.devObjs.contains (o - 0x20000)

/-- The NONFIN and SAT counts of some tiles (Table 20-1). -/
def State.vecSums (s : State) (ts : List Nat) : Nat × Nat :=
  ((ts.map (fun t => (s.tile t).vec.nonfinCnt)).sum, (ts.map (fun t => (s.tile t).vec.satCnt)).sum)
/-- What a job's tiles counted in this period while the job was in its herds (Table 20-1). -/
def State.vecOf (s : State) (j : Nat) : Nat × Nat :=
  let J := s.job j
  if (s.part J.part).resident = j then
    let n := s.vecSums (s.usedTiles j)
    (J.vecGone.1 + (n.1 - J.vecFrom.1), J.vecGone.2 + (n.2 - J.vecFrom.2))
  else J.vecGone
/-- The units in a job's herds of which a period counter has saturated: a tile by its id, a sync object by its key above 2^20. -/
def State.saturatedNow (s : State) (j : Nat) : List Nat :=
  let P := s.part (s.job j).part
  (s.usedTiles j).filter (fun t => (s.tile t).counters.any (· == max32))
    ++ (s.syncs.filter (fun e => P.ownsObj e.1 && e.2.relSat)).map (fun e => 2 ^ 20 + e.1)
/-- A counter has saturated in this period while the job was in its herds (R491). -/
def State.satOf (s : State) (j : Nat) : Bool :=
  let J := s.job j
  J.satGone || ((s.part J.part).resident == j && (s.saturatedNow j).any (fun k => !J.satFrom.contains k))
/-- The job that lies in a partition's herds is to be overwritten: what its tiles counted, and that a counter has saturated,
stays with it. -/
def vecLeave (p : Nat) (s : State) : State :=
  let r := (s.part p).resident
  if s.jobUsed r then s.updJob r (fun J => { J with vecGone := s.vecOf r, satGone := s.satOf r }) else s
/-- A job has been put into its herds: its counts begin at what its tiles show. -/
def vecEnter (j : Nat) (s : State) : State :=
  s.updJob j (fun J => { J with vecFrom := s.vecSums (s.usedTiles j), satFrom := s.saturatedNow j })

/-- 64-byte blocks of a job's state in a context area: its regions and its used tiles' operand caches of 32 KiB (Table 18-2). -/
def Job.ctxBlocks (J : Job) (herds : List Nat) : Nat :=
  herds.length * ceilDiv (J.regionBase 32) 64 + (herds.flatMap J.tilesIn).length * 512

/-- RUN = 1 for one tile: it starts at its entry (R66, R93); a tile without a region is held stopped (R73). -/
def startTile (t : Nat) (s : State) : State :=
  s.updTile t (fun T => if T.run = .stopped ∧ 0 < T.regionSize
    then { T with run := .running, runBit := true, pc := T.entry, ended := false } else T)

/-- The first start of a job whose context lies in the herds: every used tile runs in the same release, and superstep 0
begins (R458). -/
def startJobTiles (j : Nat) (s : State) : State :=
  let s := (s.usedTiles j).foldl (fun s t => startTile t s) s
  s.updJob j (fun J => { J with started := true, everHeld := true, state := .holding, sliceNs := 0,
                                acct := { J.acct with now := { J.acct.now with switches := J.acct.now.switches + 1 } } })

/-- The partition is in STOPPING (Table 16-6). -/
def State.stopping (s : State) (p : Nat) : Bool := (Sparse.get {} s.lives (65536 + p) : Life).run == .stopping

/-- A flag of a partition has reached Ibex: the release reports behind it no longer wait for it (R316). -/
def flagReached (p : Nat) (f : Report → Report) (s : State) : State :=
  { s with jobs := Sparse.mapVals (fun _ J => if J.part = p then { J with reports := J.reports.map f } else J) s.jobs }

/-- A quad of the partition has step 0 barred: there is no step that Chamois could choose for it (R504). -/
def State.noStep (s : State) (p : Nat) : Bool := (s.part p).quads.any (fun q => (s.quad q).barred == some 0)

/-- Free herds go to the ready job with the smallest pass: it starts at once where its context lies in the herds, and is
switched in otherwise (R480, R483). Chamois commands the step that it chooses for a first superstep 0, or the one
saved with the job (R44). A partition in STOPPING gives its herds to none (R440), nor one that Ibex firmware has
stopped (R48), nor one with a quad for which every step is barred (R504). -/
def takeHerds (p : Nat) (s : State) : State :=
  let P := s.part p
  if P.holding != 0 || P.incoming != 0 || s.stopping p || s.fw == .stopped || s.noStep p then s
  else match s.nextReady p with
    | none => s
    | some j =>
      let first := !(s.job j).everHeld
      let s := commandStep p (if first then s.chooseStep p else (s.job j).step) s
      if P.resident = j && first then startJobTiles j (s.updPart p (fun P => { P with holding := j }))
      else s.updPart p (fun P => { P with incoming := j })

/-- The holding job gives up the herds (R480). -/
def freeHerds (p : Nat) (s : State) : State :=
  takeHerds p (s.updPart p (fun P => { P with holding := 0, armed := false, leaving := false, asked := [] }))

/-- The JOB_END detail (Table 16-12a). -/
def jobEndDetail (j : Nat) (J : Job) : List Byte :=
  leBytes 2 j ++ leBytes 2 (J.superstep % 65536) ++ leBytes 4 J.linkStep

/-- A used tile has executed END: the job ends with its last one (R445, R480). -/
def jobTileEnded (t : Nat) (s : State) : State :=
  let j := s.jobOfTile t
  if j = 0 || !(s.usedTiles j).all (fun u => (s.tile u).ended) then s
  else
    let J := s.job j
    let s := postEvent J.part Ev.jobEnd j (jobEndDetail j J) s
    freeHerds J.part (s.updJob j (fun J => { J with state := .ended }))

/-- Bytes delivered on behalf of a tile's job (R488). -/
def chargeBytes (j n : Nat) (s : State) : State :=
  if !s.jobUsed j then s else
  s.updJob j (fun J => { J with acct := { J.acct with
    now := { J.acct.now with bytes := J.acct.now.bytes + n }, lifeBytes := J.acct.lifeBytes + n } })

/-- The beats that a tile's matrix operation of input format `fmt` ran are charged to its job, and counted by its herd: at least
`least` (R161, R487, R492; log 7). Where cells of skipped columns did no multiplication, `lowered`, the activity counters see
less than the beats, by an amount that R180 leaves open (log 99). -/
def chargeMx (t fmt least : Nat) (lowered : Bool) (s : State) : State :=
  let j := s.jobOfTile t
  let n := least + Config.runBeats s.free
  let act := if lowered then Config.idleCells s.free % n else n
  let s := ({ s with free := s.free + 1 } : State).noteAct (herdOf t) (fun a =>
    if fmt = 0 then { a with mx4 := a.mx4 + act } else if fmt = 3 then { a with mx16 := a.mx16 + act }
    else { a with mx8 := a.mx8 + act })
  if !s.jobUsed j then s else
  s.updJob j (fun J => { J with acct := { J.acct with
    now := { J.acct.now with mxBeats := J.acct.now.mxBeats + n }, lifeBeats := J.acct.lifeBeats + n } })
/-- The vector engine of a tile runs for `n` beats, which its job's account counts (R487). -/
def addVx (t n : Nat) (s : State) : State :=
  let j := s.jobOfTile t
  if !s.jobUsed j then s else
  s.updJob j (fun J => { J with acct := { J.acct with
    now := { J.acct.now with vxBeats := J.acct.now.vxBeats + n }, lifeBeats := J.acct.lifeBeats + n } })
/-- As `chargeMx`, for a chain of vector operations that processes `groups` groups (R190, R218, R212). -/
def chargeVx (t groups least : Nat) (s : State) : State :=
  addVx t (least + Config.runBeats s.free)
    (({ s with free := s.free + 1 } : State).noteAct (herdOf t) (fun a => { a with vx := a.vx + groups }))

end Sys2Proof.Machine
end

