-- ==== Sys2Proof/Machine/Scale.lean ====
section
/-! DEFINITION. Scale records: their layout, rolling a record to a step, deriving its exponent, merging a binding's
counters (spec/08 R224 to R229, spec/07 R214). -/

namespace Sys2Proof.Machine

/-- A binding's record is in use (Table 7-1, SCALE): E4M3, E5M2, bfloat16, or stochastic rounding. -/
def StreamDesc.recordUsed (d : StreamDesc) : Bool := d.fmt == 1 || d.fmt == 2 || d.fmt == 3 || d.rnd == 1

/-- The narrow format of a stream format code (Table 7-2). -/
def streamFmt (fmt : Nat) : FFmt :=
  match fmt with
  | 0 => fmtE2M1
  | 1 => fmtE4M3
  | 2 => fmtE5M2
  | 3 => fmtBf16
  | 5 => fmtF64
  | 6 => fmtW48
  | _ => fmtF32

namespace ScaleRec
/-- Fields of a record as a 512-bit number (Table 8-2). -/
def hist (r i : Nat) : Nat := bits r (16 * i) 16
def amax (r : Nat) : Nat := bits r 256 32
def step (r : Nat) : Nat := bits r 288 32
def sat (r : Nat) : Nat := bits r 320 32
def nonfin (r : Nat) : Nat := bits r 352 32
def elemBase (r : Nat) : Nat := bits r 384 48
def scaleExp (r : Nat) : Int := signedOf 8 (bits r 432 8)
def initExp (r : Nat) : Int := signedOf 8 (bits r 440 8)
def fmt (r : Nat) : Nat := bits r 448 4
def margin (r : Nat) : Nat := bits r 452 2
def fixed (r : Nat) : Bool := bit r 454
def head (r : Nat) : Nat := bits r 456 4
/-- Every reserved field is 0. -/
def reservedOk (r : Nat) : Bool := !bit r 455 && bits r 460 52 == 0
/-- A bfloat16 or binary32 code that is +0 or positive and finite. -/
def plain (top c : Nat) : Bool := decide (c ≤ top)
/-- The conditions of R229 that do not depend on the step: reserved fields, FMT listed, exponents and maxima. -/
def wellFormed (r : Nat) : Bool :=
  reservedOk r && (fmt r == 0 || fmt r == 1 || fmt r == 2 || fmt r == 3 || fmt r == 4 || fmt r == 6)
    && decide (-60 ≤ scaleExp r ∧ scaleExp r ≤ 60 ∧ -60 ≤ initExp r ∧ initExp r ≤ 60)
    && (List.range 16).all (fun i => plain fmtBf16.top (hist r i)) && plain fmtF32.top (amax r)

/-- bf16_up of a binary32 code: toward +∞, at most the largest finite value (R226). -/
def bf16Up (c : Nat) : Nat :=
  match f32 c with
  | .fin _ m e => min fmtBf16.top (fmtBf16.roundMag .up m e)
  | _ => fmtBf16.top

/-- derive() (R227). -/
def derive (r : Nat) : Int :=
  let h := (List.range 16).foldl (fun m i => max m (hist r i)) 0
  if h = 0 then initExp r
  else
    let top := (streamFmt (fmt r)).decode (streamFmt (fmt r)).top
    let ok (e : Int) : Bool := !FVal.lt false (top.scale (e - margin r)) (fmtBf16.decode h)
    match (List.range 121).find? (fun (i : Nat) => ok ((i : Int) - 60)) with
    | some i => (i : Int) - 60
    | none => 60

/-- Write the next HIST entry. -/
def push (r v : Nat) : Nat :=
  let h := head r
  setBits (setBits r (16 * h) 16 v) 456 4 ((h + 1) % 16)

/-- The roll of R226 from STEP to a newer step `c`. -/
def roll (r c : Nat) : Nat :=
  let k := (c + 2 ^ 32 - step r) % 2 ^ 32
  let first := if k ≤ 16 then bf16Up (amax r) else 0
  let r := push r first
  let r := (List.range (min k 16 - 1)).foldl (fun r _ => push r 0) r
  let r := setBits (setBits r 256 32 0) 288 32 c
  if !fixed r && (fmt r == 1 || fmt r == 2) then setBits r 432 8 (wrapInt 8 (derive r)) else r

/-- Bring a record up to date for a binding's format and copied step: none where VX_SCALE is raised (R226, R229). -/
def upToDate (r fmtOf c : Nat) : Option Nat :=
  if !wellFormed r || fmt r != fmtOf then none
  else if c = step r then some r
  else if newer 32 c (step r) then some (roll r c) else none

/-- The merge of R228. -/
def merge (r : Nat) (amaxBits sat' nonfin' : Nat) : Nat :=
  let a := if FVal.lt false (f32 (amax r)) (f32 amaxBits) then amaxBits else amax r
  setBits (setBits (setBits r 256 32 a) 320 32 (satAdd max32 (sat r) sat')) 352 32 (satAdd max32 (nonfin r) nonfin')
end ScaleRec

/-- The record that a binding names, as a number. -/
def State.record (s : State) (t : Nat) (d : StreamDesc) : Nat := s.herdNat t d.scale 64

/-- A slot's AMAX as its register and a record take it (R213). Of a magnitude that binary32 does not hold it is one of the two
neighbours, and R213 does not say which: a free choice, up to the largest finite value, since AMAX is the maximum of finite
elements and a record's is finite (R229; log 16). -/
def amaxWord (v : FVal) : Word :=
  match v with
  | .fin _ m e => word (min fmtF32.top (fmtF32.roundMag (if Config.amaxUp m e then .up else .stochastic (2 ^ 32)) m e))
  | _ => 0

/-- The old binding of a slot is merged into its record where it qualifies (R214, R228), which takes at least 4 beats of the
vector engine (R242; log 93): an uncorrectable word of the record is the vector engine's fault. -/
def mergeSlot (t : Nat) (x : ExecSlot) (s : State) : Checked :=
  match x.desc with
  | none => .ok s
  | some d =>
    if x.usedDst && (d.fmt == 0 || d.fmt == 1 || d.fmt == 2) && d.recordUsed then
      match readCheck t d.scale 64 s with
      | .error e => .error e
      | .ok s => .ok (addVx t 4 (s.writeHerd t d.scale 64 (ScaleRec.merge (s.record t d) (amaxWord x.amax).toNat x.sat x.nonfin)))
    else .ok s

/-- The merges of END: every bound slot that qualifies, in slot order (R228). -/
def mergeSlots (t : Nat) : List ExecSlot → State → Checked
  | [], s => .ok s
  | x :: r, s =>
    match mergeSlot t x s with
    | .error f => .error f
    | .ok s => mergeSlots t r s

end Sys2Proof.Machine
end

