-- ==== Sys2Proof/Machine/Wake.lean ====
section
/-! DEFINITION. What a parked tile does when what it waits for has come: TWAIT (R116), a full queue (R117), WCLOSE (R90)
and END (R109), with the abandonment of open sums (R311). -/

namespace Sys2Proof.Machine

/-- A parked tile runs again, at an instruction boundary, or holds there for the quiesce (R481). -/
def resumeTile (t : Nat) (f : Tile → Tile) (s : State) : State :=
  let s := s.updTile t (fun T => f { T with run := .running, park := .none })
  if (s.tile t).hold then parkTile t .quiesce s else takeWaitingTrap t s

/-- The open sums of a window of a tile end without a root write: WIN_COUNT rises by the contributions accepted and
SUM_ABANDON by one for each (R311). -/
def abandonSums (t w : Nat) (s : State) : State :=
  let mine := s.sums.filter (fun c => c.tile == t && c.window == w)
  if mine.isEmpty then s
  else
    let n := mine.foldl (fun a c => a + c.accepted.length) 0
    { s.updTile t (fun T => (T.countWindow w n).countAbandon mine.length) with
      sums := s.sums.filter (fun c => !(c.tile == t && c.window == w)) }

/-- Every unit of the tile is idle, and the finished-tile queue holds no entry: END waits for both (R109, R160). -/
def Tile.unitsDone (T : Tile) : Bool :=
  [1, 2, 3, 4, 5].all (fun u => (T.outstanding u).isEmpty) && T.vec.queue.isEmpty && T.ftq.entries.isEmpty

/-- Windows of the tile that have accepted writes not yet committed. -/
def Tile.draining (T : Tile) : Bool := T.windows.any (fun e => decide (0 < e.2.inFlight))

/-- The last steps of END: sums abandoned, the port closed if it is open, STATE STOPPED, the job's count of ended tiles
(R109, R311, R270, R445; log 90). -/
def endStop (t : Nat) (s : State) : State :=
  let s := (List.range 8).foldl (fun s w => abandonSums t w s) s
  let s := if (s.tile t).port.state = .opened then closePort t s else s
  jobTileEnded t (s.updTile t (fun T => { T with run := .stopped, park := .none, ended := true }))

/-- END once every unit is idle: scale records merge, windows stop accepting and drain (R109, R228, R90). -/
def endClose (t : Nat) (s : State) : State :=
  let T := s.tile t
  match mergeSlots t (T.vec.slots.map (·.2)) s with
  | .error (f, s) => faultTile t 2 f.code T.pc f.addr s
  | .ok s =>
    let s := s.updTile t (fun T => { T with windows := Sparse.mapVals (fun _ w => { w with opened := false }) T.windows })
    if (s.tile t).draining then parkTile t .endDrain s else endStop t s

/-- After any completion: a tile parked on a token that is now seen runs past its TWAIT, one parked on a full queue
issues again, one parked at END goes on when its units are idle. DESIGN CHOICE (log 93): Table 4-11 has no row for a TWAIT
that parked, which is charged no issue beat. -/
def wake (t : Nat) (s : State) : State :=
  let T := s.tile t
  if T.run = .parked then
    match T.park with
    | .token u n => if T.done u n then resumeTile t (fun T => { T.observe u n with pc := T.pc + 4 }) s else s
    | .full u => if T.depth u < unitDepth u then resumeTile t id s else s
    | .credit => if T.depth 4 < unitDepth 4 then resumeTile t id s else s
    | .endUnits => if T.unitsDone then endClose t s else s
    | _ => s
  else s

/-- WINDOW_DRAIN_END (R90): the last accepted write of the closing windows has committed; WCLOSE or END goes on. -/
def execWindowDrainEnd (t : Nat) (s : State) : Out :=
  onTile t s (fun s =>
    let T := s.tile t
    if T.run = .parked then
      match T.park with
      | .drain w => if (T.window w).inFlight = 0 then
          resumeTile t (fun T => { T with pc := T.pc + 4 }) (abandonSums t w s) else s
      | .endDrain => if T.draining then s else endStop t s
      | _ => s
    else s)

end Sys2Proof.Machine
end

