-- ==== Sys2Proof/Machine/Streams.lean ====
section
/-! DEFINITION. Vector streams: descriptors, element addresses, extents, reading and writing elements in every format of
Table 7-2 (spec/07 R192 to R194, spec/08 R222, R223, R233 to R237). -/

namespace Sys2Proof.Machine

/-- A stream descriptor from its 128 bits (Table 7-1). -/
def StreamDesc.ofNat (n : Nat) : StreamDesc where
  rnd := bits n 120 2
  scale := bits n 96 24
  tensor := bits n 80 16
  rep := bits n 72 5
  rowPitch := bits n 48 24
  rowLen := bits n 32 16
  fmt := bits n 28 4
  loc := bit n 24
  base := bits n 0 24
  reservedOk := bits n 122 6 == 0 && bits n 77 3 == 0 && bits n 25 3 == 0

/-- Bits of one element (Table 7-2). DESIGN CHOICE (log 94): a chunk record counts its 2,176 bytes (R185), also the last of an
extent, where Table 7-2 gives ROW_PITCH as its size. -/
def fmtBits (fmt : Nat) : Nat :=
  match fmt with
  | 0 => 4
  | 3 => 16
  | 4 => 32
  | 5 => 64
  | 6 => 48
  | 8 => 32
  | 9 => 1
  | 0xA => 2176 * 8
  | _ => 8

/-- The bit address of element `e` (R193): byte address × 8 + bit within the byte. -/
def StreamDesc.bitAddr (d : StreamDesc) (e : Nat) : Nat :=
  if d.fmt = 0xA then (d.base + e * d.rowPitch) * 8
  else
    let r := if d.rowLen = 0 then 0 else e / d.rowLen
    let c := if d.rowLen = 0 then e else e % d.rowLen
    (d.base + r / (d.rep + 1) * d.rowPitch) * 8 + c * fmtBits d.fmt

/-- Byte address and length of element `e`, as accessed. -/
def StreamDesc.elemBytes (d : StreamDesc) (e : Nat) : Nat × Nat :=
  let a := d.bitAddr e
  (a / 8, (a % 8 + fmtBits d.fmt + 7) / 8)
/-- The 128-byte lines that element `e` of a stream touches, two where it straddles them. -/
def StreamDesc.elemLines (d : StreamDesc) (e : Nat) : List Nat :=
  let (a, k) := d.elemBytes e
  (List.range ((a % 128 + k + 127) / 128)).map (a / 128 + ·)

/-- First byte and length of the smallest range that holds elements `pos` to `pos + n − 1` (log 19). -/
def StreamDesc.extent (d : StreamDesc) (pos n : Nat) : Nat × Nat :=
  if n = 0 then (d.base, 0)
  else
    let first := d.elemBytes pos
    let last := d.elemBytes (pos + n - 1)
    if d.rowLen = 0 || d.fmt = 0xA then (first.1, last.1 + last.2 - first.1)
    else
      let next := (pos / d.rowLen + 1) * d.rowLen
      let prev := (pos + n - 1) / d.rowLen * d.rowLen
      let lo := if next < pos + n then min first.1 (d.elemBytes next).1 else first.1
      let hi := last.1 + last.2
      let hi := if pos < prev then
          let p := d.elemBytes (prev - 1)
          max hi (p.1 + p.2)
        else hi
      (lo, hi - lo)

/-- The bytes of a stream's memory: the operand cache or the tile's herd memory (Table 7-1, LOC). -/
def State.streamBytes (s : State) (t : Nat) (loc : Bool) (a n : Nat) : List Byte :=
  if loc then readBytes (s.tile t).vec.cache a n else s.herdBytes t a n
/-- Write bytes to a stream's memory. -/
def State.writeStream (s : State) (t : Nat) (loc : Bool) (a : Nat) (bs : List Byte) : State :=
  if loc then s.updTile t (fun T => { T with vec := { T.vec with
    cache := writeBytes T.vec.cache a bs
    cacheBad := T.vec.cacheBad.filter (fun w => !within (w * 8) 8 a bs.length)
    cacheSoft := T.vec.cacheSoft.filter (fun w => !within (w * 8) 8 a bs.length) } })
  else s.writeMem (devAddr t a) bs

/-- The code of element `e`. -/
def State.elemCode (s : State) (t : Nat) (d : StreamDesc) (e : Nat) : Nat :=
  let a := d.bitAddr e
  let (b, n) := d.elemBytes e
  bits (leNat (s.streamBytes t d.loc b n)) (a % 8) (fmtBits d.fmt)

/-- Write the code of element `e`; other bits of its bytes keep their values. -/
def State.setElem (s : State) (t : Nat) (d : StreamDesc) (e code : Nat) : State :=
  let a := d.bitAddr e
  let (b, n) := d.elemBytes e
  let old := leNat (s.streamBytes t d.loc b n)
  s.writeStream t d.loc b (leBytes n (setBits old (a % 8) (fmtBits d.fmt) code))

/-- The operand cache's error-correcting code over a read: its correctable words are corrected and set ECC_SEEN, and an
uncorrectable one is the fault; the herd's count is of herd memory and does not see them (R72, R202; log 14). -/
def cacheCheck (t a n : Nat) (s : State) : Checked :=
  let V := (s.tile t).vec
  if V.cacheBad.any (fun w => overlaps (w * 8) 8 a n) then .error (⟨Code.memoryUncorrectable, 0⟩, s)
  else if V.cacheSoft.any (fun w => overlaps (w * 8) 8 a n) then
    .ok (s.updTile t (fun T => { T with
      eccSeen := true
      vec := { T.vec with cacheSoft := T.vec.cacheSoft.filter (fun w => !overlaps (w * 8) 8 a n) } }))
  else .ok s

/-- The error-correcting code over the read of one element (R72, R202). -/
def elemCheck (t : Nat) (d : StreamDesc) (e : Nat) (s : State) : Checked :=
  let (a, n) := d.elemBytes e
  if d.loc then cacheCheck t a n s else readCheck t a n s

/-- `elemCheck` over elements in order. -/
def elemChecks (t : Nat) (d : StreamDesc) : List Nat → State → Checked
  | [], s => .ok s
  | e :: r, s =>
    match elemCheck t d e s with
    | .error f => .error f
    | .ok s => elemChecks t d r s

/-- The exact value of an element before any widening: its format's value times 2^SCALE_EXP where the record applies
(R222, R233); `blk` is the block-scale stream of an E2M1 stream, whose element `e / 32`, counted from its own start like
`e` from the start of the E2M1 stream, scales element `e` (log 79). -/
def State.elemVal (s : State) (t : Nat) (d : StreamDesc) (blk : Option StreamDesc) (e : Nat) : FVal :=
  let c := s.elemCode t d e
  match d.fmt with
  | 0 =>
    match blk with
    | some b => (e8m0 (s.elemCode t b (e / 32))).mul (fmtE2M1.decode c)
    | none => .nan
  | 1 => (fmtE4M3.decode c).scale (ScaleRec.scaleExp (s.record t d))
  | 2 => (fmtE5M2.decode c).scale (ScaleRec.scaleExp (s.record t d))
  | 3 => (fmtBf16.decode c).scale (ScaleRec.scaleExp (s.record t d))
  | 5 => fmtF64.decode c
  | 6 => fmtW48.decode c
  | 9 => if c = 1 then .fin false 1 0 else fzero
  | _ => f32 c

/-- Widening into binary32 (R233): exact, but for an overflow to infinity and the one rounding of bfloat16. DESIGN CHOICE (log
94): a bfloat16 element times 2^SCALE_EXP beyond the range becomes an infinity too, as rounding to nearest even does it. -/
def widen (v : FVal) : FVal := f32 (rne32 v)

/-- The rounding of a conversion into a stream at an element index (R234, R238). -/
def StreamDesc.rounding (d : StreamDesc) (record seed step e : Nat) : Rounding :=
  if d.rnd = 1 then .stochastic (srBits seed step d.tensor (ScaleRec.elemBase record + e)) else .nearest

/-- The smallest e with a ≤ 6 × 2^e, from −127 to 127, and −127 for a = 0 (R223). -/
def blockExp (a : FVal) : Int :=
  match a with
  | .fin _ m x =>
    if m = 0 then -127
    else
      let hi : Int := (bitLen m : Int) + x - 2
      let fits (e : Int) : Bool := !FVal.lt false (.fin false 3 (e + 1)) (.fin false m x)
      let e := if fits (hi - 1) then hi - 1 else hi
      max (-127) (min 127 e)
  | _ => 127

/-- A converted element: the code, and whether it saturated. -/
def convElem (d : StreamDesc) (record : Nat) (mode : Rounding) (be : Int) (v : FVal) : Nat × Bool :=
  match d.fmt with
  | 0 => fmtE2M1.convert mode (v.scale (-be))
  | 1 => fmtE4M3.convert mode (v.scale (-(ScaleRec.scaleExp record)))
  | 2 => fmtE5M2.convert mode (v.scale (-(ScaleRec.scaleExp record)))
  | 3 => fmtBf16.convert mode (v.scale (-(ScaleRec.scaleExp record)))
  | 5 => fmtF64.convert .nearest v
  | 6 => fmtW48.convert mode v
  | 9 => (if v.isZero then 0 else 1, false)
  | _ => fmtF32.convert mode v

end Sys2Proof.Machine
end

