-- ==== Sys2Proof/Machine/VecExec.lean ====
section
/-! DEFINITION. What one vector operation does when it runs (spec/07 R195, R197, R204 to R211, R213, R215; spec/08 R223,
R226, R233 to R238). Each operation reads every element before it writes; its chain hands relay values on in `ChainEnv`. -/

namespace Sys2Proof.Machine

/-- Relay values of the running chain, the elements it took from the finished-tile queue, and by index which of these the
queue's counters have seen (R203: a chain consumes the queue as one operation). -/
structure ChainEnv where
  relays : Sparse (List FVal) := []
  ftq : List Word := []
  counted : List Bool := []
  deriving DecidableEq, Repr

/-- What running an operation ends in: a fault, with the state that it leaves, or the chain's values and the state. -/
abbrev RunOut := Except (TileFault × State) (ChainEnv × State)

/-- AMAX after a value (R213): the greatest finite magnitude so far, kept exact. -/
def amaxStep (w v : FVal) : FVal := if !v.nonfinite && FVal.lt false w v.abs then v.abs else w

/-- Values and saturations counted by a stream slot; a counter that reaches its top sets COUNT_SAT (R213). -/
def Tile.countSlot (T : Tile) (k : Nat) (vals : List FVal) (sat : Nat) : Tile :=
  let x : ExecSlot := Sparse.get {} T.vec.slots k
  let nf := (vals.filter FVal.nonfinite).length
  { T with
    vec := { T.vec with slots := Sparse.set T.vec.slots k { x with
      amax := vals.foldl amaxStep x.amax, nonfin := satAdd max32 x.nonfin nf, sat := satAdd max32 x.sat sat } }
    countSat := T.countSat || satHits max32 x.nonfin nf || satHits max32 x.sat sat }

/-- Values counted by the finished-tile queue (R213). -/
def Tile.countFtq (T : Tile) (vals : List FVal) : Tile :=
  let nf := (vals.filter FVal.nonfinite).length
  { T with
    vec := { T.vec with ftqAmax := vals.foldl amaxStep T.vec.ftqAmax, ftqNonfin := satAdd max32 T.vec.ftqNonfin nf }
    countSat := T.countSat || satHits max32 T.vec.ftqNonfin nf }

/-- The operation's additions to VEC_NONFIN and VEC_SAT (R215); a non-finite index raises the partition's NONFIN flag
(Table 11-5). -/
def countVec (t nonfin sat : Nat) (s : State) : State :=
  let s := s.updTile t (fun T => { T with vec := { T.vec with
    nonfinCnt := (T.vec.nonfinCnt + nonfin) % 2 ^ 64, satCnt := (T.vec.satCnt + sat) % 2 ^ 64 } })
  if 0 < nonfin then raiseNonfin (s.partOf t) s else s

/-- The block-scale stream of slot `k` in an operation (R194). -/
def VecOp.blk (o : VecOp) (k : Nat) : Option StreamDesc := (o.scales.find? (fun e => e.1 == k)).map (·.2)

/-- The first `n` values of a source (R195, R199, R203, R233); binary64 and w48 stay exact (R205). -/
def sourceVals (t : Nat) (env : ChainEnv) (o : VecOp) (n : Nat) (v : VOperand) (s : State) : List FVal :=
  match v with
  | .none => []
  | .slot k d pos =>
    (List.range n).map (fun i =>
      let x := s.elemVal t d (o.blk k) (pos + i)
      if d.fmt = 5 || d.fmt = 6 then x else widen x)
  | .ftq => (env.ftq.take n).map (fun w => f32 w.toNat)
  | .relay k => (Sparse.get [] env.relays k).take n

/-- Whether element `i` is active (R197). -/
def activeAt (t : Nat) (o : VecOp) (i : Nat) (s : State) : Bool :=
  match o.pred with
  | .slot _ d pos => s.elemCode t d (pos + i) == 1
  | _ => true

/-- The error-correcting code over a source's reads of its active elements, and of the scales of their blocks: a masked
element raises no fault (R197). -/
def sourceCheck (t : Nat) (o : VecOp) (act : Nat → Bool) (n : Nat) (v : VOperand) (s : State) : Checked :=
  match v with
  | .slot k d pos =>
    match elemChecks t d (((List.range n).filter act).map (pos + ·)) s with
    | .error f => .error f
    | .ok s =>
      match o.blk k with
      | some b =>
        let blocks := (List.range ((n + 31) / 32)).filter (fun j => (List.range 32).any (fun i => decide (32 * j + i < n) && act (32 * j + i)))
        elemChecks t b (blocks.map (pos / 32 + ·)) s
      | none => .ok s
  | _ => .ok s

/-- The VOP value of a special function (Table 7-3). -/
def Vop.specialCode : Vop → Option Nat
  | .exp => some 0x10
  | .exp2 => some 0x11
  | .log => some 0x12
  | .rcp => some 0x13
  | .rsqrt => some 0x14
  | .tanh => some 0x15
  | .sigm => some 0x16
  | .gelu => some 0x17
  | .silu => some 0x18
  | _ => none

/-- 1.0 or +0. -/
def fbool (b : Bool) : FVal := if b then .fin false 1 0 else fzero

/-- The result of an element-wise operation before conversion (R204, R205, R206). -/
def Vop.apply (v : Vop) (a b c : FVal) : FVal :=
  match v with
  | .mov => a
  | .add => widen (a.add b)
  | .sub => widen (a.add b.neg)
  | .mul => widen (a.mul b)
  | .fma => widen ((a.mul b).add c)
  | .min => a.fmin b
  | .max => a.fmax b
  | .abs => a.abs
  | .neg => a.neg
  | .div => widen (a.div b)
  | .sqrt => widen a.sqrt
  | .relu => a.fmax fzero
  | .clamp => (a.fmax b).fmin c
  | .cmpgt => fbool (FVal.lt false b a)
  | .cmpge => fbool (FVal.lt false b a || FVal.eq a b)
  | .cmpeq => fbool (FVal.eq a b)
  | .cmpne => fbool (!FVal.eq a b)
  | .sel => if c.isZero then b else a
  | _ =>
    match v.specialCode with
    | some n => special n a
    | none => a

/-- The slots that an operation names, each once, in the order in which their records come up to date: DST, SA, SB, SC, the
predicate, each followed by its block-scale slot. DESIGN CHOICE (log 94): R229 gives the records of one VOP no order. -/
def VecOp.slots (o : VecOp) : List (Nat × StreamDesc) :=
  let f (v : VOperand) : List (Nat × StreamDesc) := match v with
    | .slot k d _ => (k, d) :: (match o.blk k with | some b => [(k + 1, b)] | none => [])
    | _ => []
  (f o.dst ++ f o.sa ++ f o.sb ++ f o.sc ++ f o.pred).foldl
    (fun l e => if l.any (fun x => x.1 == e.1) then l else l ++ [e]) []

/-- The first use of a binding brings its record up to date, and a roll takes at least 4 beats (R226, R229, R242). -/
def rollSlot (t : Nat) (o : VecOp) (k : Nat) (d : StreamDesc) (s : State) : Checked :=
  let x : ExecSlot := Sparse.get {} (s.tile t).vec.slots k
  if d.recordUsed && !x.rolled then
    match readCheck t d.scale 64 s with
    | .error f => .error f
    | .ok s =>
      match ScaleRec.upToDate (s.record t d) d.fmt o.step with
      | none => .error (⟨Code.vxScale, devAddr t d.scale⟩, s)
      | some r =>
        let s := if r = s.record t d then s else addVx t 4 (s.writeHerd t d.scale 64 r)
        .ok (s.updTile t (fun T => { T with vec := { T.vec with
          slots := Sparse.set T.vec.slots k { (Sparse.get {} T.vec.slots k : ExecSlot) with rolled := true } } }))
  else .ok s

/-- `rollSlot` over every slot that the operation names. -/
def rollSlots (t : Nat) (o : VecOp) : List (Nat × StreamDesc) → State → Checked
  | [], s => .ok s
  | (k, d) :: r, s =>
    match rollSlot t o k d s with
    | .error f => .error f
    | .ok s => rollSlots t o r s

/-- The record of a stream, or 0 where none is in use. -/
def State.recordOf (s : State) (t : Nat) (d : StreamDesc) : Nat := if d.recordUsed then s.record t d else 0

/-- Write the results of an element-wise operation into a stream other than E2M1; `none` is a masked element. Answers
the saturations (R197, R234, R235). -/
def writePlain (t : Nat) (o : VecOp) (d : StreamDesc) (record : Nat) : Nat → List (Option FVal) → State → State × Nat
  | _, [], s => (s, 0)
  | e, none :: r, s => writePlain t o d record (e + 1) r (if o.z then s.setElem t d e 0 else s)
  | e, some v :: r, s =>
    let (c, sat) := convElem d record (d.rounding record o.seed o.step e) 0 v
    let (s, n) := writePlain t o d record (e + 1) r (s.setElem t d e c)
    (s, n + (if sat then 1 else 0))

/-- One E2M1 block: its scale byte, then its elements (R223). -/
def writeBlock (t : Nat) (o : VecOp) (d b : StreamDesc) (record e : Nat) (vals : List (Option FVal)) (s : State) :
    State × Nat :=
  let act := vals.filterMap id
  if act.any FVal.nonfinite then
    let s := s.setElem t b (e / 32) 0xFF
    ((List.range vals.length).foldl (fun s i => s.setElem t d (e + i) 0) s, 0)
  else
    let a := act.foldl (fun m v => if FVal.lt false m v.abs then v.abs else m) fzero
    let be := blockExp a
    let s := s.setElem t b (e / 32) (be + 127).toNat
    (List.range vals.length).foldl (fun (s, n) i =>
      match vals.getD i none with
      | none => (s.setElem t d (e + i) 0, n)
      | some v =>
        let (c, sat) := convElem d record (d.rounding record o.seed o.step (e + i)) be v
        (s.setElem t d (e + i) c, n + (if sat then 1 else 0))) (s, 0)

/-- E2M1 blocks in order. -/
def writeBlocks (t : Nat) (o : VecOp) (d b : StreamDesc) (record : Nat) : Nat → List (List (Option FVal)) → State → State × Nat
  | _, [], s => (s, 0)
  | e, v :: r, s =>
    let (s, n) := writeBlock t o d b record e v s
    let (s, m) := writeBlocks t o d b record (e + 32) r s
    (s, n + m)

/-- The results of an element-wise operation reach its destination (R195, R197, R213, R223, R235); answers the
saturations. -/
def writeDst (t : Nat) (env : ChainEnv) (o : VecOp) (res : List (Option FVal)) (s : State) : ChainEnv × State × Nat :=
  match o.dst with
  | .relay k =>
    let out := res.map (fun r => match r with
      | some v => fmtF32.convert .nearest v
      | none => (0, false))
    ({ env with relays := Sparse.set env.relays k (out.map (fun c => f32 c.1)) }, s, (out.filter (·.2)).length)
  | .slot k d pos =>
    let record := s.recordOf t d
    let (s, sat) := match d.fmt, o.blk k with
      | 0, some b => writeBlocks t o d b record pos (chunks 32 res) s
      | _, _ => writePlain t o d record pos res s
    let s := s.updTile t (fun T => (T.countSlot k (res.filterMap id) sat))
    (env, s, sat)
  | _ => (env, s, 0)

/-- The destination slot of an operation was used as a destination (R214). -/
def markDst (t : Nat) (o : VecOp) (s : State) : State :=
  match o.dst with
  | .slot k _ _ => s.updTile t (fun T => { T with vec := { T.vec with
      slots := Sparse.set T.vec.slots k { (Sparse.get {} T.vec.slots k : ExecSlot) with usedDst := true } } })
  | _ => s

/-- The queue's counters see the active elements of a member that they have not seen for its chain (R203, R213). -/
def countQueue (t : Nat) (vals : List (Option FVal)) (env : ChainEnv) (s : State) : ChainEnv × State :=
  let fresh := (List.range vals.length).filterMap (fun i => if env.counted.getD i false then none else vals.getD i none)
  let n := max env.counted.length vals.length
  ({ env with counted := (List.range n).map (fun i => env.counted.getD i false || (vals.getD i none).isSome) },
    s.updTile t (fun T => T.countFtq fresh))

/-- The active elements of the sources are counted, each slot and the queue once (R213). -/
def countSources (t : Nat) : List Nat → List (VOperand × List (Option FVal)) → ChainEnv → State → ChainEnv × State
  | _, [], env, s => (env, s)
  | seen, (v, vals) :: r, env, s =>
    let k := match v with
      | .slot k _ _ => k
      | .ftq => 6
      | _ => 7
    if k = 7 || seen.contains k then countSources t seen r env s
    else if k = 6 then
      let (env, s) := countQueue t vals env s
      countSources t (k :: seen) r env s
    else countSources t (k :: seen) r env (s.updTile t (fun T => T.countSlot k (vals.filterMap id) 0))

/-- Every read of the operation's active elements is checked, operand by operand. DESIGN CHOICE (log 94): of several
uncorrectable words the first in this order is recorded, where R217 gives none. -/
def checkReads (t : Nat) (o : VecOp) (act : Nat → Bool) : List (VOperand × Nat) → State → Checked
  | [], s => .ok s
  | (v, n) :: r, s =>
    match sourceCheck t o act n v s with
    | .error f => .error f
    | .ok s => checkReads t o act r s

/-- The predicate's bits are checked first, then the reads that they leave active. -/
def checkActive (t : Nat) (o : VecOp) (l : List (VOperand × Nat)) (s : State) : Checked :=
  match sourceCheck t o (fun _ => true) o.vlen o.pred s with
  | .error f => .error f
  | .ok s => checkReads t o (fun i => activeAt t o i s) l s

/-- Masked sources. -/
def mask (act : List Bool) (l : List FVal) : List (Option FVal) :=
  (List.range l.length).map (fun i => if act.getD i true then some (l.getD i fzero) else none)

/-- An element-wise operation (R190, R204). DESIGN CHOICE (log 101): what AMAX and NONFIN see are the sources and the result;
the predicate bits read through slot 5 and the E8M0 scale bytes read or written through slot k+1 are counted in neither (R213). -/
def runPlain (t : Nat) (env : ChainEnv) (o : VecOp) (s : State) : RunOut :=
  match checkActive t o [(o.sa, o.vlen), (o.sb, o.vlen), (o.sc, o.vlen)] s with
  | .error f => .error f
  | .ok s =>
    let a := sourceVals t env o o.vlen o.sa s
    let b := sourceVals t env o o.vlen o.sb s
    let c := sourceVals t env o o.vlen o.sc s
    let act := (List.range o.vlen).map (fun i => activeAt t o i s)
    let res := (List.range o.vlen).map (fun i => o.vop.apply (a.getD i fzero) (b.getD i fzero) (c.getD i fzero))
    let nf := ((List.range o.vlen).filter (fun i => act.getD i true &&
      ([a, b, c, res].any (fun l => (l.getD i fzero).nonfinite)))).length
    let (env, s) := countSources t [] [(o.sa, mask act a), (o.sb, mask act b), (o.sc, mask act c)] env s
    let (env, s, sat) := writeDst t env o (mask act res) s
    .ok (env, countVec t nf sat s)

/-- Rounding into binary64 (R207). -/
def rne64 (v : FVal) : FVal := fmtF64.decode (fmtF64.ieee v)

/-- The four accumulate lanes over active terms, from index `i` (R207). -/
def lanes : Nat → List (Option FVal) → FVal × FVal × FVal × FVal → FVal × FVal × FVal × FVal
  | _, [], acc => acc
  | i, none :: r, acc => lanes (i + 1) r acc
  | i, some x :: r, (p, q, u, v) =>
    lanes (i + 1) r (match i % 4 with
      | 0 => (rne64 (p.add x), q, u, v)
      | 1 => (p, rne64 (q.add x), u, v)
      | 2 => (p, q, rne64 (u.add x), v)
      | _ => (p, q, u, rne64 (v.add x)))

/-- The accumulate form adds to the old destination value (R207). -/
def Vop.accumulates : Vop → Bool
  | .sum64a => true
  | .ssq64a => true
  | .dot64a => true
  | _ => false

/-- A reduction: VSUM64, VSSQ64, VDOT64 and their accumulate forms, and VMAXR (R207). -/
def runReduce (t : Nat) (env : ChainEnv) (o : VecOp) (s : State) : RunOut :=
  match o.dst with
  | .slot k d pos =>
    match checkActive t o [(o.sa, o.vlen), (o.sb, o.vlen)] s with
    | .error f => .error f
    | .ok s =>
    match checkReads t o (fun _ => true) [(if o.vop.accumulates then o.dst else .none, 1)] s with
    | .error f => .error f
    | .ok s =>
      let a := sourceVals t env o o.vlen o.sa s
      let b := sourceVals t env o o.vlen o.sb s
      let act := (List.range o.vlen).map (fun i => activeAt t o i s)
      let start := if o.vop.accumulates then s.elemVal t d none pos else fzero
      let term (i : Nat) : FVal := match o.vop with
        | .ssq64 => (a.getD i fzero).mul (a.getD i fzero)
        | .ssq64a => (a.getD i fzero).mul (a.getD i fzero)
        | .dot64 => (a.getD i fzero).mul (b.getD i fzero)
        | .dot64a => (a.getD i fzero).mul (b.getD i fzero)
        | _ => a.getD i fzero
      let terms := (List.range o.vlen).map (fun i => if act.getD i true then some (term i) else none)
      let result :=
        if o.vop = .maxr then (mask act a).foldl (fun m x => match x with | some v => m.fmax v | none => m) (.inf true)
        else if (terms.filterMap id).isEmpty then start
        else
          let (p, q, u, v) := lanes 0 terms (start, fzero, fzero, fzero)
          rne64 ((rne64 (p.add q)).add (rne64 (u.add v)))
      let nf := ((List.range o.vlen).filter (fun i => act.getD i true &&
        ([a, b].any (fun l => (l.getD i fzero).nonfinite)))).length + (if result.nonfinite then 1 else 0)
      let (env, s) := countSources t [] [(o.sa, mask act a), (o.sb, mask act b)] env s
      let (c, sat) := convElem d 0 .nearest 0 result
      let n := if sat then 1 else 0
      let s := (s.setElem t d pos c).updTile t (fun T => T.countSlot k [result] n)
      .ok (env, countVec t nf n s)
  | _ => .ok (env, s)

/-- One output of a 2:4 selection: the logical position within its record that stored weight `j` of the metadata word
names, or none for a bad quartet (R163, R208). -/
def quartetPos (md j : Nat) : Option Nat :=
  let q := j / 2
  let i0 := bits md (4 * q) 2
  let i1 := bits md (4 * q + 2) 2
  if i0 < i1 then some (4 * q + (if j % 2 = 0 then i0 else i1)) else none

/-- Kt of VSEL24 and VSEL24Q (Table 7-3). -/
def Vop.kt (v : Vop) : Nat := if v = .sel24q then 32 else 16

/-- The logical position within its record of output `i` has a quartet with an active output (R197; log 80): SA's element
`i` of a 2:4 selection is read for it. -/
def selReads (kt : Nat) (act : Nat → Bool) (i : Nat) : Bool :=
  let q := i / (128 * kt) * (64 * kt) + i % 64 * kt + i % (128 * kt) / 256 * 2
  act q || act (q + 1)

/-- SB's metadata word `w` of a 2:4 selection, which describes outputs 16 w to 16 w + 15, is read (R197, R208; log 80). -/
def selMeta (act : Nat → Bool) (w : Nat) : Bool := (List.range 16).any (fun j => act (16 * w + j))

/-- The index in SA of output `i` of a 2:4 selection by the metadata words of SB, or none where its quartet is bad (R163,
R208). -/
def selPos (kt : Nat) (word : Nat → Nat) (i : Nat) : Option Nat :=
  let rec_ := i / (64 * kt)
  let n := i % (64 * kt) / kt
  let w := i / kt * (kt / 16)
  let colMeta := if kt = 32 then word w + word (w + 1) * 2 ^ 32 else word w
  (quartetPos colMeta (i % kt)).map (fun p => rec_ * (128 * kt) + 64 * p + n)

/-- VSEL24 and VSEL24Q (R208). A masked output raises no fault and is seen by no counter (R197; log 80). -/
def runSel24 (t : Nat) (env : ChainEnv) (o : VecOp) (s : State) : RunOut :=
  let kt := o.vop.kt
  match sourceCheck t o (fun _ => true) o.vlen o.pred s with
  | .error f => .error f
  | .ok s =>
  let act := (List.range o.vlen).map (fun i => activeAt t o i s)
  let on (i : Nat) : Bool := act.getD i false
  match sourceCheck t o (selMeta on) (o.vlen / 16) o.sb s with
  | .error f => .error f
  | .ok s =>
  match sourceCheck t o (selReads kt on) (2 * o.vlen) o.sa s with
  | .error f => .error f
  | .ok s =>
    let a := sourceVals t env o (2 * o.vlen) o.sa s
    let word (w : Nat) : Nat := match o.sb with
      | .slot _ d pos => s.elemCode t d (pos + w)
      | _ => 0
    let out := (List.range o.vlen).map (fun i => if on i then some (selPos kt word i) else none)
    if out.any (fun p => p == some none) then .error (⟨Code.vxMeta, 0⟩, s)
    else
      let res := out.map (fun p => (p.bind id).map (fun i => a.getD i fzero))
      let nf := (res.filterMap id).countP FVal.nonfinite
      let (env, s) := countSources t [] [(o.sa, mask ((List.range (2 * o.vlen)).map (selReads kt on)) a)] env s
      let (env, s, sat) := writeDst t env o res s
      .ok (env, countVec t nf sat s)

/-! ## VSEGR (R185, R209 to R211) -/

/-- A chunk record's fields: index, FIRST_ROW, and its elements as value code, column, local row (Tables 6-5, 6-6). -/
structure Chunk where
  addr : Nat
  idx : Nat
  count : Nat
  first : Nat
  elems : List (Nat × Nat × Nat)
  deriving DecidableEq, Repr

/-- Read the chunk record at element `e` of a stream, where it stands; its reserved header bits are not looked at (log
79). -/
def readChunk (t : Nat) (d : StreamDesc) (e : Nat) (s : State) : Chunk :=
  let base := d.base + e * d.rowPitch
  let num (off n : Nat) : Nat := leNat (s.streamBytes t d.loc (base + off) n)
  let count := num 4 2
  { addr := if d.loc then 0 else devAddr t base, idx := num 8 4, count := count, first := num 0 4
    elems := (List.range (min count 256)).map (fun j => (num (128 + 4 * j) 4, num (1152 + 2 * j) 2, num (1664 + 2 * j) 2)) }

/-- The runs of equal rows in a lane's elements, each summed in increasing order (R210). -/
def laneRuns : List (Nat × Nat) → List (Nat × Nat)
  | [] => []
  | (r, p) :: rest =>
    (rest.foldl (fun (acc : List (Nat × Nat)) (e : Nat × Nat) =>
      match acc with
      | (r0, q) :: more => if r0 = e.1 then (r0, add32 q e.2) :: more else e :: acc
      | [] => [e]) [(r, p)]).reverse

/-- One level of the binary tree: two nodes combine run by run (R210). -/
def treeJoin (l r : List (Nat × Nat)) : List (Nat × Nat) :=
  let both := l.map (fun e => match r.find? (fun f => f.1 == e.1) with
    | some f => (e.1, add32 e.2 f.2)
    | none => e)
  both ++ r.filter (fun f => !l.any (fun e => e.1 == f.1))

/-- One level over all nodes. -/
def treeLevel : List (List (Nat × Nat)) → List (List (Nat × Nat))
  | a :: b :: r => treeJoin a b :: treeLevel r
  | l => l

/-- A chunk's partials by local row: 32 lanes, then five levels (R210). -/
def chunkPartials (prods : List (Nat × Nat)) : List (Nat × Nat) :=
  let lanes := (List.range 32).map (fun l => laneRuns ((prods.drop (8 * l)).take 8))
  let root := (List.range 5).foldl (fun n _ => treeLevel n) lanes
  root.headD []

/-- Local rows never decrease. -/
def rising : List Nat → Bool
  | a :: b :: r => decide (a ≤ b) && rising (b :: r)
  | _ => true

/-- The chunks of an operation pass R211, or the address of the first that fails. -/
def chunkFault (panelLen dstLen r0 : Nat) : Option Nat → List Chunk → Option Nat
  | _, [] => none
  | prev, c :: r =>
    let badIdx := match prev with
      | some p => decide (c.idx ≤ p)
      | none => false
    if c.count = 0 || 256 < c.count || !rising (c.elems.map (·.2.2)) || badIdx
        || c.elems.any (fun e => decide (panelLen ≤ e.2.1))
        || c.elems.any (fun e => decide (c.first + e.2.2 < r0 ∨ dstLen ≤ c.first + e.2.2 - r0))
    then some c.addr else chunkFault panelLen dstLen r0 (some c.idx) r

/-- VSEGR (R209 to R211). DESIGN CHOICE (log 94): its code check reads whole chunk records, before any check of R211, and all
ROW_LEN elements of the panel; a row's v and a lane's run start from their first term and not from +0. -/
def runSegr (t : Nat) (env : ChainEnv) (o : VecOp) (s : State) : RunOut :=
  match o.sa, o.sb, o.dst with
  | .slot ka da pa, .slot kb db pb, .slot kd dd pd =>
    match elemChecks t da ((List.range o.vlen).map (pa + ·)) s with
    | .error f => .error f
    | .ok s =>
      let cs := (List.range o.vlen).map (fun i => readChunk t da (pa + i) s)
      let r0 := (cs.headD ⟨0, 0, 0, 0, []⟩).first
      match chunkFault db.rowLen dd.rowLen r0 none cs with
      | some a => .error (⟨Code.vxChunk, a⟩, s)
      | none =>
        match checkReads t o (fun _ => true) [(o.sb, db.rowLen)] s with
        | .error f => .error f
        | .ok s =>
          let panel (c : Nat) : Nat := s.elemCode t db (pb + c)
          let prods (c : Chunk) : List (Nat × Nat) := c.elems.map (fun e => (c.first + e.2.2, mul32 e.1 (panel e.2.1)))
          let rows := cs.foldl (fun (m : Sparse Nat) c =>
            (chunkPartials (prods c)).foldl (fun m e =>
              Sparse.set m e.1 (match Sparse.find m e.1 with | some v => add32 v e.2 | none => e.2)) m) []
          let outs := rows.map (fun e => f32 e.2)
          let bad (c : Chunk) : Bool := c.elems.any (fun e => (f32 e.1).nonfinite || (f32 (panel e.2.1)).nonfinite)
          let nf := (cs.filter bad).length + (outs.filter FVal.nonfinite).length
          let s := s.updTile t (fun T => ((T.countSlot ka (cs.flatMap (fun c => c.elems.map (fun e => f32 e.1))) 0).countSlot
            kb (cs.flatMap (fun c => c.elems.map (fun e => f32 (panel e.2.1)))) 0).countSlot kd outs 0)
          let s := rows.foldl (fun s e => s.setElem t dd (pd + (e.1 - r0)) e.2) s
          .ok (env, countVec t nf 0 s)
  | _, _, _ => .ok (env, s)

/-- One operation of a chain: its records come up to date, then it runs (R226, R204). -/
def runVecOp (t : Nat) (env : ChainEnv) (o : VecOp) (s : State) : RunOut :=
  match rollSlots t o o.slots s with
  | .error f => .error f
  | .ok s =>
    let s := markDst t o s
    match o.vop with
    | .sum64 => runReduce t env o s
    | .sum64a => runReduce t env o s
    | .ssq64 => runReduce t env o s
    | .ssq64a => runReduce t env o s
    | .dot64 => runReduce t env o s
    | .dot64a => runReduce t env o s
    | .maxr => runReduce t env o s
    | .segr => runSegr t env o s
    | .sel24 => runSel24 t env o s
    | .sel24q => runSel24 t env o s
    | _ => runPlain t env o s

end Sys2Proof.Machine
end

