-- ==== Sys2Proof/Machine/Vector.lean ====
section
/-! DEFINITION. The vector engine's instructions and its queue (spec/04 R120, R121; spec/07 R189 to R217): SETVL, VSTR,
every VOP at issue, the queue in order, chains, and VECTOR_OP_COMPLETE. -/

namespace Sys2Proof.Machine

/-! ## Which operation does what -/

def Vop.isCompare (v : Vop) : Bool := v = .cmpgt || v = .cmpge || v = .cmpeq || v = .cmpne
def Vop.isReduce (v : Vop) : Bool :=
  v = .sum64 || v = .sum64a || v = .ssq64 || v = .ssq64a || v = .dot64 || v = .dot64a || v = .maxr
def Vop.isSel24 (v : Vop) : Bool := v = .sel24 || v = .sel24q

/-- Elements that an operation touches in DST, SA and SB, SC; and that it advances them by (R195, R207 to R209). DESIGN CHOICE
(log 101): a VSEGR with VLEN 0 touches nothing (R121), so its panel and destination extents are not checked either, of which
R211 names no exception. -/
def Vop.counts (v : Vop) (vlen sbRow dstRow : Nat) : List (Nat × Nat) :=
  if v.isReduce then [(Nat.min vlen 1, Nat.min vlen 1), (vlen, vlen), (vlen, vlen), (vlen, vlen)]
  else if v.isSel24 then
    let w := vlen / v.kt * (v.kt / 16)
    [(vlen, vlen), (2 * vlen, 2 * vlen), (w, w), (0, 0)]
  else if v = .segr then
    [(if vlen = 0 then 0 else dstRow, 0), (vlen, vlen), (if vlen = 0 then 0 else sbRow, 0), (0, 0)]
  else [(vlen, vlen), (vlen, vlen), (vlen, vlen), (vlen, vlen)]

def VOperand.row (x : VOperand) : Nat := match x with | .slot _ d _ => d.rowLen | _ => 0
def VOperand.pos (x : VOperand) : Nat := match x with | .slot _ _ pos => pos | _ => 0
def VOperand.relayNo (x : VOperand) : Option Nat := match x with | .relay k => some k | _ => Option.none

/-! ## Beats (R212, R218) -/

/-- The fewest beats for a group of 32 elements (Table 7-3). -/
def Vop.groupBeats (v : Vop) : Nat :=
  if v.isReduce && v != .maxr then 8
  else if v = .div || v = .sqrt then 4
  else if v.specialCode.isSome then 2
  else 1

/-- The 128-byte lines that `n` elements of an operand touch in herd memory. -/
def VOperand.lines (x : VOperand) (n : Nat) : List Nat :=
  match x with
  | .slot _ d pos =>
    if d.loc then []
    else (List.range n).flatMap (fun i => d.elemLines (pos + i))
  | _ => []

/-- The lines of an operand's block scales, one element for each 32 (R194). -/
def VecOp.scaleLines (o : VecOp) (x : VOperand) (n : Nat) : List Nat :=
  match x with
  | .slot k _ pos =>
    match o.blk k with
    | some b => (VOperand.slot (k + 1) b (pos / 32)).lines ((n + 31) / 32)
    | none => []
  | _ => []

/-- The herd-memory lines that an operation's streams touch, those of its block scales among them. -/
def VecOp.lines (o : VecOp) : List Nat :=
  let n (i : Nat) : Nat := ((o.vop.counts o.vlen o.sb.row o.dst.row).getD i (0, 0)).1
  let all (x : VOperand) (k : Nat) : List Nat := x.lines k ++ o.scaleLines x k
  all o.dst (n 0) ++ all o.sa (n 1) ++ all o.sb (n 2) ++ all o.sc (n 3) ++ o.pred.lines o.vlen

/-- The fewest beats of a chain over elements (R218). -/
def chainBeats (ops : List VecOp) : Nat :=
  let groups := ceilDiv ((ops.map (·.vlen)).headD 0) 32
  let h := (ops.flatMap VecOp.lines).eraseDups.length
  let b := max (ops.foldl (fun m o => max m o.vop.groupBeats) 1) (ceilDiv h groups)
  4 + groups * b + 2 * ops.length + 4 * ops.countP (fun o => o.vop.isReduce && o.vop != .maxr)

/-- The fewest beats of a VSEGR: with the lines of the rows that its chunks touch (R212). -/
def segrBeats (t : Nat) (o : VecOp) (s : State) : Nat :=
  match o.sa, o.dst with
  | .slot _ da pa, .slot _ dd pd =>
    let cs := (List.range o.vlen).map (fun i => readChunk t da (pa + i) s)
    let r0 := (cs.headD ⟨0, 0, 0, 0, []⟩).first
    let lines := cs.flatMap (fun c => c.elems.flatMap (fun e => dd.elemLines (pd + (c.first + e.2.2 - r0))))
    4 + 20 * o.vlen + lines.eraseDups.length
  | _, _ => 0

/-- The fewest beats of the chain at the head of the queue: a VSEGR is a chain of its own (R209, R212, R218). -/
def vecLeast (t : Nat) (ops : List VecOp) (s : State) : Nat :=
  match ops with
  | [o] => if o.vop = .segr then segrBeats t o s else chainBeats ops
  | _ => chainBeats ops

/-! ## The queue -/

/-- Relays that an operation reads. -/
def VecOp.relayReads (o : VecOp) : List Nat :=
  [o.sa, o.sb, o.sc].filterMap (fun v => match v with | .relay k => some k | _ => none)
/-- The relay that an operation writes. -/
def VecOp.relayWrites (o : VecOp) : List Nat := match o.dst with | .relay k => [k] | _ => []

/-- Elements that an operation takes from the finished-tile queue (R203); a 2:4 selection takes the
elements of its SA there (R208; log 80). -/
def VecOp.ftqNeed (o : VecOp) : Nat :=
  let n (v : VOperand) (k : Nat) : Nat := match v with | .ftq => k | _ => 0
  max (n o.sa (if o.vop = .sel24 || o.vop = .sel24q then 2 * o.vlen else o.vlen)) (max (n o.sb o.vlen) (n o.sc o.vlen))

/-- The queue up to, and without, the first operation of another chain. -/
def chainPrefix (c : Nat) : List VecEntry → List VecEntry
  | [] => []
  | .op o :: r => if o.chain = c then .op o :: chainPrefix c r else []
  | e :: r => e :: chainPrefix c r

/-- The operations among queue entries. -/
def opsOf (q : List VecEntry) : List VecOp := q.filterMap (fun e => match e with | .op o => some o | _ => none)

/-- Every relay value that the chain's members produce is taken by a later member (R199 to R201). -/
def chainClosed (ops : List VecOp) : Bool :=
  let (ok, owed) := ops.foldl (fun (acc : Bool × List Nat) o =>
    let (ok, owed) := acc
    (ok && o.relayReads.all owed.contains, owed.filter (fun k => !o.relayReads.contains k) ++ o.relayWrites)) (true, [])
  ok && owed.isEmpty

/-- Take elements from the finished-tile queue for the chain at the head; entries free at their 1,024th element (R159,
R203). -/
def pullFtq (t need : Nat) (s : State) : State :=
  s.updTile t (fun T =>
    let all := T.ftq.entries.flatten.drop T.ftq.consumed
    let k := min (need - T.vec.taken.length) all.length
    let c := T.ftq.consumed + k
    { T with
      vec := { T.vec with taken := T.vec.taken ++ all.take k }
      ftq := { entries := T.ftq.entries.drop (c / 1024), consumed := c % 1024 } })

def popVec (t : Nat) (s : State) : State :=
  s.updTile t (fun T => { T with vec := { T.vec with queue := T.vec.queue.drop 1 } })

/-- A binding is taken: the old one merges, position and counters restart (R192, R214). -/
def takeBinding (t k : Nat) (d : StreamDesc) (pc : Word) (s : State) : State :=
  match mergeSlot t (Sparse.get {} (s.tile t).vec.slots k) s with
  | .error (f, s) => faultTile t 2 f.code pc f.addr s
  | .ok s => s.updTile t (fun T => { T with vec := { T.vec with
      slots := Sparse.set T.vec.slots k ({ desc := some d } : ExecSlot) } })

/-- FTQ_CLR at its place in the queue (R214). -/
def clearFtqCounters (t : Nat) (s : State) : State :=
  s.updTile t (fun T => { T with vec := { T.vec with ftqAmax := fzero, ftqNonfin := 0, ftqSat := 0 } })

/-- The queue in order as far as nothing runs: bindings and FTQ_CLR are taken, operations of no elements complete, and
the chain at the head takes what the finished-tile queue holds for it. -/
def vecSteps (t : Nat) : Nat → State → State
  | 0, s => s
  | fuel + 1, s =>
    match (s.tile t).vec.queue with
    | [] => s
    | .ftqClr :: _ => vecSteps t fuel (clearFtqCounters t (popVec t s))
    | .bind k d pc :: _ => vecSteps t fuel (takeBinding t k d pc (popVec t s))
    | .op o :: r =>
      if o.done then s
      else if o.vlen = 0 then vecSteps t fuel (popVec t s)
      else
        let ops := opsOf (chainPrefix o.chain (.op o :: r))
        if chainClosed ops then pullFtq t (ops.foldl (fun n o => max n o.ftqNeed) 0) s else s

/-- The vector queue moves on, and what waited on it wakes. -/
def vecAdvance (t : Nat) (s : State) : State := wake t (vecSteps t ((s.tile t).vec.queue.length + 1) s)

/-- Run the entries of a chain in queue order: operations run and are marked done, bindings between them are taken.
Answers the operations left in the queue; a fault stops with its code and issue offset. -/
def runChain (t : Nat) (env : ChainEnv) : List VecEntry → State → List VecEntry × State
  | [], s => ([], s)
  | .op o :: r, s =>
    match runVecOp t env o s with
    | .error (f, s) => ([], faultTile t 2 f.code o.pc f.addr s)
    | .ok (env, s) =>
      let (q, s) := runChain t env r s
      (.op { o with done := true } :: q, s)
  | .bind k d pc :: r, s =>
    if (opsOf r).isEmpty then (.bind k d pc :: r, s)
    else
      let s := takeBinding t k d pc s
      if (s.tile t).run = .faulted then ([], s) else runChain t env r s
  | .ftqClr :: r, s => if (opsOf r).isEmpty then (.ftqClr :: r, s) else runChain t env r (clearFtqCounters t s)

/-- VECTOR_OP_COMPLETE (R216): the oldest operation completes; the first member of a chain runs the whole chain, which
can run once every relay value has its reader and every queue element it consumes is there (R200, R203). The beats that
the chain runs are charged with it. -/
def execVectorOpComplete (t : Nat) (s : State) : Out :=
  onTile t s (fun s =>
    match (s.tile t).vec.queue with
    | .op o :: r =>
      if o.done then vecAdvance t (popVec t s)
      else
        let chain := chainPrefix o.chain (.op o :: r)
        let ops := opsOf chain
        let need := ops.foldl (fun n o => max n o.ftqNeed) 0
        let taken := (s.tile t).vec.taken
        if !chainClosed ops || taken.length < need then s
        else
          let least := vecLeast t ops s
          let (q, s) := runChain t { ftq := taken } chain s
          if (s.tile t).run = .faulted then s
          else
            vecAdvance t (chargeVx t (ops.map (fun o => ceilDiv o.vlen 32)).sum least (popVec t (s.updTile t (fun T => { T with vec := { T.vec with
              queue := q ++ T.vec.queue.drop chain.length, taken := [] } }))))
    | _ => s)

/-! ## SETVL and VSTR -/

/-- SETVL (R121): VLEN becomes the smaller of RA and 65,536, and RD its copy. -/
def execSetvl (t : Nat) (rd ra : Reg) (s : State) : Out :=
  onTile t s (fun s => issue t [ra] s (fun s =>
    retire t 1 s (fun T =>
      let n := min (T.reg ra).toNat 65536
      { T.setReg rd (word n) with vec := { T.vec with vlen := n } })))

/-- The checks of a 16-byte structure that an instruction reads: within one 128-byte line, then within the region (R102,
R118). `align` is a further alignment its instruction asks for. -/
def checkStruct (t : Nat) (T : Tile) (off len align : Nat) : Option TileFault :=
  if 0x1000000 ≤ off then some ⟨Code.offsetHigh, 0⟩
  else if off % align != 0 || 128 < off % 128 + len then some ⟨Code.misaligned, devAddr t off⟩
  else if !within off len T.regionBase T.regionSize then some ⟨Code.regionBound, devAddr t off⟩
  else none

/-- The conditions of R196 on a descriptor; it sets none on the BASE of a chunk-record stream, whose records are read where
they stand (log 79). -/
def StreamDesc.ok (d : StreamDesc) : Bool :=
  d.reservedOk && decide (d.fmt ≤ 0xA) && decide (d.rnd ≤ 1) && !(d.loc && decide (0x7FFF < d.base))
    && !(d.recordUsed && d.scale % 64 != 0) && !(d.fmt == 0xA && (d.rowPitch % 128 != 0 || decide (d.rowPitch < 2176)))

def Tile.issueSlot (T : Tile) (k : Nat) : IssueSlot := Sparse.get {} T.vec.issue k

/-- VSTR (R192, R121, R196): the descriptor is read at issue; the binding enters the vector queue. -/
def execVstr (t : Nat) (k : Fin 6) (ra : Reg) (s : State) : Out :=
  onTile t s (fun s => issue t [ra] s (fun s =>
    let T := s.tile t
    if unitDepth 2 ≤ T.depth 2 then parkTile t (.full 2) s
    else
      let off := (T.reg ra).toNat
      match checkStruct t T off 16 1 with
      | some f => faultIssue t 2 f s
      | none =>
        match readCheck t off 16 s with
        | .error (f, s) => faultIssue t 2 f s
        | .ok s =>
          let d := StreamDesc.ofNat (s.herdNat t off 16)
          if !d.ok then faultIssue t 2 ⟨Code.vxStream, 0⟩ s
          else
            let old := T.issueSlot k.val
            let es : List Ext := match old.desc with
              | some o => if old.usedDst && decide (o.fmt ≤ 2) && o.recordUsed then [⟨o.scale, 64, 1, true⟩] else []
              | none => []
            tahrReserve t 2 (T.count 2) [⟨off, 16, 1, false⟩] es s (fun s =>
              vecAdvance t (retire t (2 + T.tahrBeats) s (fun T => { T with vec := { T.vec with
                issue := Sparse.set T.vec.issue k.val ({ desc := some d } : IssueSlot)
                queue := T.vec.queue ++ [.bind k.val d T.pc] } })))))

/-! ## VOP at issue -/

/-- The positions that a VOP uses beside DST and SA, as (SB, SC) (Table 7-3). -/
def Vop.uses (v : Vop) : Bool × Bool :=
  match v with
  | .add => (true, false)
  | .sub => (true, false)
  | .mul => (true, false)
  | .fma => (true, true)
  | .min => (true, false)
  | .max => (true, false)
  | .div => (true, false)
  | .clamp => (true, true)
  | .cmpgt => (true, false)
  | .cmpge => (true, false)
  | .cmpeq => (true, false)
  | .cmpne => (true, false)
  | .sel => (true, true)
  | .dot64 => (true, false)
  | .dot64a => (true, false)
  | .segr => (true, false)
  | .sel24 => (true, false)
  | .sel24q => (true, false)
  | _ => (false, false)

/-- An operand selector at issue (Table 4-6); an unbound slot answers none. -/
def Tile.operand (T : Tile) (sel : Nat) : Option VOperand :=
  if sel = 0 then some .none
  else if sel ≤ 6 then
    match (T.issueSlot (sel - 1)).desc with
    | some d => some (.slot (sel - 1) d (T.issueSlot (sel - 1)).pos)
    | none => none
  else if sel = 7 then some .ftq
  else some (.relay (sel - 8))

/-- The field rules of VOP (R100, R120, R204): used positions non-zero, unused zero, selectors listed, and Z only
with P. -/
def vopFieldsOk (v : Vop) (dst sa sb sc : Nat) (p z : Bool) : Bool :=
  let (b, c) := v.uses
  dst != 0 && sa != 0 && (sb != 0) == b && (sc != 0) == c && [dst, sa, sb, sc].all (fun x => decide (x < 0xC))
    && (p || !z)

/-- A source format that Table 7-2 allows for the role, with the block scales that E2M1 needs (R194). -/
def srcFmtOk (v : Vop) (role : Nat) (T : Tile) (x : VOperand) : Bool :=
  match x with
  | .slot k d pos =>
    let plain := decide (d.fmt ≤ 4)
    let block := d.fmt != 0 || (decide (k < 5) && pos % 32 == 0 && d.rowLen % 32 == 0 &&
      (match (T.issueSlot (k + 1)).desc with | some b => b.fmt == 7 | none => false))
    block &&
      (if v = .segr then (if role = 0 then d.fmt == 0xA else d.fmt == 4 && d.loc && d.rowLen != 0)
       else if v.isSel24 then (if role = 0 then d.fmt == 4 else d.fmt == 8)
       else if v = .mov then plain || d.fmt == 5 || d.fmt == 6
       else if v = .sel && role = 2 then plain || d.fmt == 9
       else plain)
  | .ftq => v != .segr && !(v.isSel24 && role == 1)
  | .relay _ => v != .segr && !v.isSel24
  | .none => true

/-- A destination format that Table 7-2 allows (R194, R198, R207, R209). -/
def dstFmtOk (v : Vop) (T : Tile) (x : VOperand) (p z : Bool) : Bool :=
  match x with
  | .slot k d pos =>
    let block := d.fmt != 0 || (decide (k < 5) && pos % 32 == 0 && d.rowLen % 32 == 0 && (!p || z) &&
      (match (T.issueSlot (k + 1)).desc with | some b => b.fmt == 7 | none => false))
    block &&
      (if v.isReduce then (d.fmt == 4 || d.fmt == 5) && (!p || z)
       else if v = .segr then d.fmt == 4 && d.rowLen != 0
       else decide (d.fmt ≤ 4) || (v = .mov && d.fmt == 6) || (v.isCompare && d.fmt == 9))
  | .relay _ => !v.isReduce && v != .segr && (!p || z)
  | _ => false

/-- The predicate stream is slot 5 with FMT 0x9 (R197). -/
def predOk (x : Option VOperand) : Bool :=
  match x with
  | some (.slot _ d _) => d.fmt == 9
  | some .none => true
  | _ => false

/-- One memory range that a VOP checks: cache or herd memory, first byte, length, written or read. -/
structure VecExt where
  loc : Bool
  lo : Nat
  len : Nat
  write : Bool
  deriving DecidableEq, Repr

/-- The ranges of an operand over `n` elements: its stream, and its block scales (R194, R196). -/
def operandExts (T : Tile) (x : VOperand) (n : Nat) (write : Bool) : List VecExt :=
  match x with
  | .slot k d pos =>
    let (lo, len) := d.extent pos n
    let own : VecExt := ⟨d.loc, lo, len, write⟩
    if d.fmt = 0 then
      match (T.issueSlot (k + 1)).desc with
      | some b =>
        let (lo, len) := b.extent (pos / 32) ((n + 31) / 32)
        [own, ⟨b.loc, lo, len, write⟩]
      | none => [own]
    else [own]
  | _ => []

/-- The record of an operand's binding, and of its block-scale binding (R196, R226). -/
def operandRecords (T : Tile) (x : VOperand) : List VecExt :=
  match x with
  | .slot k d _ =>
    (if d.recordUsed then [⟨false, d.scale, 64, true⟩] else []) ++
      (if d.fmt = 0 then
        match (T.issueSlot (k + 1)).desc with
        | some b => if b.recordUsed then [⟨false, b.scale, 64, true⟩] else []
        | none => []
      else [])
  | _ => []

/-- REGION_BOUND over streams and records, then CODE_WRITE (R196, R202). -/
def checkVecExts (t : Nat) (T : Tile) (es : List VecExt) : Option TileFault :=
  let out (e : VecExt) : Bool :=
    0 < e.len && (if e.loc then decide (0x8000 < e.lo + e.len) else !within e.lo e.len T.regionBase T.regionSize)
  let code (e : VecExt) : Bool := e.write && !e.loc && overlaps e.lo e.len T.codeBase T.codeSize
  match es.find? out with
  | some e => some ⟨Code.regionBound, if e.loc then 0 else devAddr t e.lo⟩
  | none =>
  match es.find? code with
  | some e => some ⟨Code.codeWrite, devAddr t e.lo⟩
  | none => none

/-- A VOP at issue with its operands read; `bound` is false where one names an unbound slot (R120). -/
structure VopUse where
  v : Vop
  d : VOperand
  a : VOperand
  b : VOperand
  c : VOperand
  pr : VOperand
  p : Bool
  z : Bool
  bound : Bool
  deriving DecidableEq, Repr

/-- Elements that operand `i` of DST, SA, SB, SC touches, and that it advances by. -/
def VopUse.count (u : VopUse) (T : Tile) (i : Nat) : Nat × Nat :=
  (u.v.counts T.vec.vlen u.b.row u.d.row).getD i (0, 0)
/-- The destination's ranges. -/
def VopUse.dstExts (u : VopUse) (T : Tile) : List VecExt := operandExts T u.d (u.count T 0).1 true
/-- The sources' ranges, the predicate's among them. -/
def VopUse.srcExts (u : VopUse) (T : Tile) : List VecExt :=
  operandExts T u.a (u.count T 1).1 false ++ operandExts T u.b (u.count T 2).1 false
    ++ operandExts T u.c (u.count T 3).1 false ++ operandExts T u.pr T.vec.vlen false
/-- The records of every binding used. -/
def VopUse.recs (u : VopUse) (T : Tile) : List VecExt := [u.d, u.a, u.b, u.c, u.pr].flatMap (operandRecords T)
/-- Each operand with the elements it advances by. -/
def VopUse.operands (u : VopUse) (T : Tile) : List (VOperand × Nat) :=
  [(u.d, (u.count T 0).2), (u.a, (u.count T 1).2), (u.b, (u.count T 2).2), (u.c, (u.count T 3).2), (u.pr, T.vec.vlen)]
/-- Relays read and written. -/
def VopUse.relayReads (u : VopUse) : List Nat := [u.a, u.b, u.c].filterMap VOperand.relayNo
def VopUse.relayWrites (u : VopUse) : List Nat := u.d.relayNo.toList

def Tile.relay (T : Tile) (k : Nat) : Relay := Sparse.get {} T.vec.relays k
/-- The operation joins the chain of the last one: it reads a relay of that chain (R200). -/
def VopUse.joins (u : VopUse) (T : Tile) : Bool :=
  u.relayReads.any (fun k => (T.relay k).chain == T.vec.chain) && decide (0 < T.vec.chainLen)

/-- The checks of a VOP at issue after its field rules, in order: REGION_BOUND and CODE_WRITE over its ranges, a stream
past its end (R196, which leaves the place of this check open; log 79), its operands' formats, its relays, its chain (R195, R196, R120, R199, R200, R217). -/
def VopUse.fault (u : VopUse) (t : Nat) (T : Tile) : Option TileFault :=
  match checkVecExts t T (u.dstExts T ++ u.srcExts T ++ u.recs T) with
  | some f => some f
  | none =>
  if (u.operands T).any (fun e => match e.1 with | .slot _ _ pos => decide (0xFFFFFFFF < pos + e.2) | _ => false) then
    some ⟨Code.vxStream, 0⟩
  else if !(u.bound && dstFmtOk u.v T u.d u.p u.z && srcFmtOk u.v 0 T u.a && srcFmtOk u.v 1 T u.b && srcFmtOk u.v 2 T u.c
      && predOk (some u.pr) && !(u.v.isSel24 && T.vec.vlen % (64 * u.v.kt) != 0) && !(u.v = .segr && u.p)) then
    some ⟨Code.vxOperand, 0⟩
  else if u.relayReads.any (fun k => !(T.relay k).owed || (T.relay k).vlen != T.vec.vlen)
      || u.relayWrites.any (fun k => (T.relay k).owed && !u.relayReads.contains k) then some ⟨Code.vxRelay, 0⟩
  else if u.joins T && (decide (8 ≤ T.vec.chainLen) || (u.srcExts T).any (fun e =>
      T.vec.chainExts.any (fun x => x.loc == e.loc && overlaps x.lo x.len e.lo e.len))) then some ⟨Code.vxChain, 0⟩
  else none

/-- The block-scale bindings that an operation's E2M1 operands use (R194). -/
def VopUse.scales (u : VopUse) (T : Tile) : List (Nat × StreamDesc) :=
  [u.d, u.a, u.b, u.c].filterMap (fun x => match x with
    | .slot k e _ => if e.fmt = 0 then (T.issueSlot (k + 1)).desc.map (fun sd => (k, sd)) else none
    | _ => none)

/-- The chain of the operation (R200). -/
def VopUse.chain (u : VopUse) (T : Tile) : Nat := if u.joins T then T.vec.chain else T.vec.chain + 1

/-- The operation as it enters the queue: its operands, the copied VLEN, step counter and seed (R120, R225). -/
def VopUse.op (u : VopUse) (T : Tile) : VecOp := {
  num := T.count 2 + 1, pc := T.pc, vop := u.v, dst := u.d, sa := u.a, sb := u.b, sc := u.c, pred := u.pr, z := u.z,
  vlen := T.vec.vlen, step := T.vec.stepCtr.toNat, seed := T.vec.seedLo.toNat + T.vec.seedHi.toNat * 2 ^ 32,
  chain := u.chain T, scales := u.scales T, done := false }

/-- The issue side after the operation: positions advanced, the destination marked, relays emptied and owed (R192, R199).
DESIGN CHOICE (log 94): a slot that is both DST and a source of an operation that advances the two by different counts goes
on by the larger, where R195 and R207 give no count. -/
def VopUse.slots (u : VopUse) (T : Tile) : Sparse IssueSlot :=
  let slots := (u.operands T).foldl (fun (m : Sparse IssueSlot) e => match e.1 with
    | .slot k _ pos =>
      let x := Sparse.get ({} : IssueSlot) m k
      Sparse.set m k { x with pos := max x.pos (pos + e.2) }
    | _ => m) T.vec.issue
  match u.d with
  | .slot k _ _ => Sparse.set slots k { Sparse.get ({} : IssueSlot) slots k with usedDst := true }
  | _ => slots
def VopUse.relays (u : VopUse) (T : Tile) : Sparse Relay :=
  u.relayWrites.foldl (fun m k => Sparse.set m k (⟨true, T.vec.vlen, u.chain T⟩ : Relay))
    (u.relayReads.foldl (fun m k => Sparse.set m k ({} : Relay)) T.vec.relays)

/-- The herd-memory extents that the operation reserves in Tahr mode (R463). -/
def VopUse.herdExts (u : VopUse) (T : Tile) : List Ext :=
  (u.dstExts T ++ u.srcExts T ++ u.recs T).filterMap
    (fun e => if e.loc then none else some (⟨e.lo, e.len, 1, e.write⟩ : Ext))

/-- The operation is in the vector queue of the tile. -/
def VopUse.enqueue (u : VopUse) (old T : Tile) : Tile :=
  let exts := (u.dstExts old).map (fun e => (⟨e.loc, e.lo, e.len⟩ : ChainExt))
  { T.number 2 with vec := { T.vec with
      issue := u.slots old, relays := u.relays old, queue := T.vec.queue ++ [.op (u.op old)], chain := u.chain old,
      chainLen := if u.joins old then old.vec.chainLen + 1 else 1,
      chainExts := if u.joins old then old.vec.chainExts ++ exts else exts } }

/-- A VOP whose field rules hold: its checks, then the vector queue. -/
def vopBound (t : Nat) (u : VopUse) (s : State) : State :=
  let T := s.tile t
  match u.fault t T with
  | some f => faultIssue t 2 f s
  | none =>
    tahrReserve t 2 (T.count 2 + 1) [] (u.herdExts T) s (fun s => vecAdvance t (retire t (1 + T.tahrBeats) s (u.enqueue T)))

/-- The operands that a VOP's selectors name. -/
def Tile.vopUse (T : Tile) (v : Vop) (dst sa sb sc : BitVec 4) (p z : Bool) : VopUse :=
  let get (n : Nat) : VOperand := (T.operand n).getD .none
  let pr := if p then 6 else 0
  { v := v, d := get dst.toNat, a := get sa.toNat, b := get sb.toNat, c := get sc.toNat, pr := get pr, p := p, z := z
    bound := [dst.toNat, sa.toNat, sb.toNat, sc.toNat, pr].all (fun x => (T.operand x).isSome) }

/-- A VOP issues (R120, R204): field rules, a full queue, then its operands; an unbound slot is VX_OPERAND. -/
def vopOp (t : Nat) (v : Vop) (dst sa sb sc : BitVec 4) (p z : Bool) (s : State) : State :=
  issue t [] s (fun s =>
    let T := s.tile t
    if !vopFieldsOk v dst.toNat sa.toNat sb.toNat sc.toNat p z then illegal t 2 s
    else if unitDepth 2 ≤ T.depth 2 then parkTile t (.full 2) s
    else vopBound t (T.vopUse v dst sa sb sc p z) s)

/-- VMOV (R204). -/
def execVmov (t : Nat) (dst sa sb sc : BitVec 4) (p z : Bool) (s : State) : Out :=
  onTile t s (vopOp t .mov dst sa sb sc p z)

/-- VADD (R204). -/
def execVadd (t : Nat) (dst sa sb sc : BitVec 4) (p z : Bool) (s : State) : Out :=
  onTile t s (vopOp t .add dst sa sb sc p z)

/-- VSUB (R204). -/
def execVsub (t : Nat) (dst sa sb sc : BitVec 4) (p z : Bool) (s : State) : Out :=
  onTile t s (vopOp t .sub dst sa sb sc p z)

/-- VMUL (R204). -/
def execVmul (t : Nat) (dst sa sb sc : BitVec 4) (p z : Bool) (s : State) : Out :=
  onTile t s (vopOp t .mul dst sa sb sc p z)

/-- VFMA (R204). -/
def execVfma (t : Nat) (dst sa sb sc : BitVec 4) (p z : Bool) (s : State) : Out :=
  onTile t s (vopOp t .fma dst sa sb sc p z)

/-- VMIN (R205). -/
def execVmin (t : Nat) (dst sa sb sc : BitVec 4) (p z : Bool) (s : State) : Out :=
  onTile t s (vopOp t .min dst sa sb sc p z)

/-- VMAX (R205). -/
def execVmax (t : Nat) (dst sa sb sc : BitVec 4) (p z : Bool) (s : State) : Out :=
  onTile t s (vopOp t .max dst sa sb sc p z)

/-- VABS (R204). -/
def execVabs (t : Nat) (dst sa sb sc : BitVec 4) (p z : Bool) (s : State) : Out :=
  onTile t s (vopOp t .abs dst sa sb sc p z)

/-- VNEG (R204). -/
def execVneg (t : Nat) (dst sa sb sc : BitVec 4) (p z : Bool) (s : State) : Out :=
  onTile t s (vopOp t .neg dst sa sb sc p z)

/-- VDIV (R204). -/
def execVdiv (t : Nat) (dst sa sb sc : BitVec 4) (p z : Bool) (s : State) : Out :=
  onTile t s (vopOp t .div dst sa sb sc p z)

/-- VSQRT (R204). -/
def execVsqrt (t : Nat) (dst sa sb sc : BitVec 4) (p z : Bool) (s : State) : Out :=
  onTile t s (vopOp t .sqrt dst sa sb sc p z)

/-- VRELU (R204). -/
def execVrelu (t : Nat) (dst sa sb sc : BitVec 4) (p z : Bool) (s : State) : Out :=
  onTile t s (vopOp t .relu dst sa sb sc p z)

/-- VCLAMP (R205). -/
def execVclamp (t : Nat) (dst sa sb sc : BitVec 4) (p z : Bool) (s : State) : Out :=
  onTile t s (vopOp t .clamp dst sa sb sc p z)

/-- VEXP (R206). -/
def execVexp (t : Nat) (dst sa sb sc : BitVec 4) (p z : Bool) (s : State) : Out :=
  onTile t s (vopOp t .exp dst sa sb sc p z)

/-- VEXP2 (R206). -/
def execVexp2 (t : Nat) (dst sa sb sc : BitVec 4) (p z : Bool) (s : State) : Out :=
  onTile t s (vopOp t .exp2 dst sa sb sc p z)

/-- VLOG (R206). -/
def execVlog (t : Nat) (dst sa sb sc : BitVec 4) (p z : Bool) (s : State) : Out :=
  onTile t s (vopOp t .log dst sa sb sc p z)

/-- VRCP (R206). -/
def execVrcp (t : Nat) (dst sa sb sc : BitVec 4) (p z : Bool) (s : State) : Out :=
  onTile t s (vopOp t .rcp dst sa sb sc p z)

/-- VRSQRT (R206). -/
def execVrsqrt (t : Nat) (dst sa sb sc : BitVec 4) (p z : Bool) (s : State) : Out :=
  onTile t s (vopOp t .rsqrt dst sa sb sc p z)

/-- VTANH (R206). -/
def execVtanh (t : Nat) (dst sa sb sc : BitVec 4) (p z : Bool) (s : State) : Out :=
  onTile t s (vopOp t .tanh dst sa sb sc p z)

/-- VSIGM (R206). -/
def execVsigm (t : Nat) (dst sa sb sc : BitVec 4) (p z : Bool) (s : State) : Out :=
  onTile t s (vopOp t .sigm dst sa sb sc p z)

/-- VGELU (R206). -/
def execVgelu (t : Nat) (dst sa sb sc : BitVec 4) (p z : Bool) (s : State) : Out :=
  onTile t s (vopOp t .gelu dst sa sb sc p z)

/-- VSILU (R206). -/
def execVsilu (t : Nat) (dst sa sb sc : BitVec 4) (p z : Bool) (s : State) : Out :=
  onTile t s (vopOp t .silu dst sa sb sc p z)

/-- VCMPGT (R205). -/
def execVcmpgt (t : Nat) (dst sa sb sc : BitVec 4) (p z : Bool) (s : State) : Out :=
  onTile t s (vopOp t .cmpgt dst sa sb sc p z)

/-- VCMPGE (R205). -/
def execVcmpge (t : Nat) (dst sa sb sc : BitVec 4) (p z : Bool) (s : State) : Out :=
  onTile t s (vopOp t .cmpge dst sa sb sc p z)

/-- VCMPEQ (R205). -/
def execVcmpeq (t : Nat) (dst sa sb sc : BitVec 4) (p z : Bool) (s : State) : Out :=
  onTile t s (vopOp t .cmpeq dst sa sb sc p z)

/-- VCMPNE (R205). -/
def execVcmpne (t : Nat) (dst sa sb sc : BitVec 4) (p z : Bool) (s : State) : Out :=
  onTile t s (vopOp t .cmpne dst sa sb sc p z)

/-- VSEL (R205). -/
def execVsel (t : Nat) (dst sa sb sc : BitVec 4) (p z : Bool) (s : State) : Out :=
  onTile t s (vopOp t .sel dst sa sb sc p z)

/-- VSUM64 (R207). -/
def execVsum64 (t : Nat) (dst sa sb sc : BitVec 4) (p z : Bool) (s : State) : Out :=
  onTile t s (vopOp t .sum64 dst sa sb sc p z)

/-- VSUM64A (R207). -/
def execVsum64a (t : Nat) (dst sa sb sc : BitVec 4) (p z : Bool) (s : State) : Out :=
  onTile t s (vopOp t .sum64a dst sa sb sc p z)

/-- VSSQ64 (R207). -/
def execVssq64 (t : Nat) (dst sa sb sc : BitVec 4) (p z : Bool) (s : State) : Out :=
  onTile t s (vopOp t .ssq64 dst sa sb sc p z)

/-- VSSQ64A (R207). -/
def execVssq64a (t : Nat) (dst sa sb sc : BitVec 4) (p z : Bool) (s : State) : Out :=
  onTile t s (vopOp t .ssq64a dst sa sb sc p z)

/-- VDOT64 (R207). -/
def execVdot64 (t : Nat) (dst sa sb sc : BitVec 4) (p z : Bool) (s : State) : Out :=
  onTile t s (vopOp t .dot64 dst sa sb sc p z)

/-- VDOT64A (R207). -/
def execVdot64a (t : Nat) (dst sa sb sc : BitVec 4) (p z : Bool) (s : State) : Out :=
  onTile t s (vopOp t .dot64a dst sa sb sc p z)

/-- VMAXR (R207). -/
def execVmaxr (t : Nat) (dst sa sb sc : BitVec 4) (p z : Bool) (s : State) : Out :=
  onTile t s (vopOp t .maxr dst sa sb sc p z)

/-- VSEGR (R209, R210). -/
def execVsegr (t : Nat) (dst sa sb sc : BitVec 4) (p z : Bool) (s : State) : Out :=
  onTile t s (vopOp t .segr dst sa sb sc p z)

/-- VSEL24 (R208). -/
def execVsel24 (t : Nat) (dst sa sb sc : BitVec 4) (p z : Bool) (s : State) : Out :=
  onTile t s (vopOp t .sel24 dst sa sb sc p z)

/-- VSEL24Q (R208). -/
def execVsel24q (t : Nat) (dst sa sb sc : BitVec 4) (p z : Bool) (s : State) : Out :=
  onTile t s (vopOp t .sel24q dst sa sb sc p z)

end Sys2Proof.Machine
end

