-- ==== Sys2Proof/Machine/TileWord.lean ====
section
/-! DEFINITION. The instruction words of a tile (spec/04 R98 to R100, Tables 4-1 and 4-2): the fields of a word, and
whether it is one of the listed instructions with every unused field 0 and every field rule of its section met. -/

namespace Sys2Proof.Machine

def wOp (w : Nat) : Nat := bits w 26 6
def wRd (w : Nat) : Nat := bits w 21 5
def wRa (w : Nat) : Nat := bits w 16 5
def wRb (w : Nat) : Nat := bits w 11 5
def wFn11 (w : Nat) : Nat := bits w 0 11
def wRc (w : Nat) : Nat := bits w 6 5
def wFn6 (w : Nat) : Nat := bits w 0 6
def wImm (w : Nat) : Nat := bits w 0 16

/-- The vector operation of a VOP value (Table 7-3). -/
def vopOf (n : Nat) : Option Vop :=
  match n with
  | 0x01 => some .mov
  | 0x02 => some .add
  | 0x03 => some .sub
  | 0x04 => some .mul
  | 0x05 => some .fma
  | 0x06 => some .min
  | 0x07 => some .max
  | 0x08 => some .abs
  | 0x09 => some .neg
  | 0x0A => some .div
  | 0x0B => some .sqrt
  | 0x0C => some .relu
  | 0x0D => some .clamp
  | 0x10 => some .exp
  | 0x11 => some .exp2
  | 0x12 => some .log
  | 0x13 => some .rcp
  | 0x14 => some .rsqrt
  | 0x15 => some .tanh
  | 0x16 => some .sigm
  | 0x17 => some .gelu
  | 0x18 => some .silu
  | 0x20 => some .cmpgt
  | 0x21 => some .cmpge
  | 0x22 => some .cmpeq
  | 0x23 => some .cmpne
  | 0x24 => some .sel
  | 0x30 => some .sum64
  | 0x31 => some .sum64a
  | 0x32 => some .ssq64
  | 0x33 => some .ssq64a
  | 0x34 => some .dot64
  | 0x35 => some .dot64a
  | 0x38 => some .maxr
  | 0x3C => some .segr
  | 0x40 => some .sel24
  | 0x41 => some .sel24q
  | _ => none

/-- FN of the ALU group (Table 4-4). -/
def aluFnOk (fn : Nat) : Bool :=
  decide (fn ≤ 4) || decide (8 ≤ fn ∧ fn ≤ 0xA) || fn == 0x10 || fn == 0x11 || decide (0x18 ≤ fn ∧ fn ≤ 0x1B)
    || decide (0x20 ≤ fn ∧ fn ≤ 0x22) || decide (0x28 ≤ fn ∧ fn ≤ 0x2B)

/-- The word is a legal instruction (R100). -/
def wordLegal (w : Nat) : Bool :=
  let rd := wRd w
  let ra := wRa w
  let rb := wRb w
  let rc := wRc w
  let fn := wFn11 w
  let imm := wImm w
  match wOp w with
  | 0x01 => aluFnOk fn
  | 0x02 => true
  | 0x03 => true
  | 0x04 => true
  | 0x05 => true
  | 0x06 => true
  | 0x07 => true
  | 0x08 => decide (imm < 32)
  | 0x09 => decide (imm < 32)
  | 0x0A => decide (imm < 32)
  | 0x0B => ra == 0
  | 0x10 => true
  | 0x11 => true
  | 0x12 => true
  | 0x13 => true
  | 0x14 => true
  | 0x15 => rd % 2 == 0
  | 0x18 => true
  | 0x19 => true
  | 0x1A => true
  | 0x1B => rd % 2 == 0
  | 0x20 => true
  | 0x21 => true
  | 0x22 => true
  | 0x23 => true
  | 0x24 => true
  | 0x25 => true
  | 0x26 => true
  | 0x27 => true
  | 0x28 => (fn == 1 || fn == 2) && rd == 0 && ra == 0 && rb == 0
  | 0x29 => ra == 0 && (imm == 2 || imm == 3 || ((imm == 0 || imm == 1) && rd % 2 == 0))
  | 0x2A => true
  | 0x2B => true
  | 0x2C => rd == 0 && ra == 0
  | 0x30 => fn == 0 && rb == 0
  | 0x31 =>
    match vopOf (bits w 18 8) with
    | some v => vopFieldsOk v (bits w 14 4) (bits w 10 4) (bits w 6 4) (bits w 2 4) (bit w 1) (bit w 0)
    | none => false
  | 0x32 => (fn == 0 && rb == 0) || (decide (0x10 ≤ fn ∧ fn ≤ 0x15) && rd == 0 && rb == 0)
  | 0x33 => wFn6 w == 0
  | 0x34 => wFn6 w == 0
  | 0x35 => fn == 0 && rb == 0
  | 0x36 => (fn == 0 && rd == 0 && rb == 0) || ((fn == 1 || fn == 2) && rb == 0)
  | 0x37 => rd == 0 && ra == 0 && decide (imm < 8)
  | 0x38 => rd == 0 && ra == 0 && decide (imm < 8)
  | 0x39 => fn == 0
  | 0x3A =>
    match wFn6 w with
    | 0 => true
    | 1 => rd == 0 && rc == 0
    | 2 => ra == 0 && rb == 0 && rc == 0
    | 3 => rd == 0 && ra == 0 && rb == 0 && rc == 0
    | 4 => rd == 0 && rb == 0 && rc == 0
    | _ => false
  | 0x3B =>
    match fn with
    | 0 => rd == 0
    | 1 => rb == 0
    | 2 => rd == 0
    | 3 => rb == 0
    | 4 => rd == 0
    | _ => false
  | _ => false

/-- The UNIT to which a word issues (R103), by its OP. -/
def wordUnit (w : Nat) : Nat :=
  match wOp w with
  | 0x30 => 1
  | 0x31 => 2
  | 0x32 => 2
  | 0x33 => 3
  | 0x34 => 3
  | 0x35 => 5
  | 0x37 => 4
  | 0x38 => 4
  | 0x39 => 4
  | 0x3A => 4
  | _ => 0

/-- ILLEGAL_INSTRUCTION (R100): the tile issues a word that R100 rejects, and faults. A word that is legal is not this
command's: nothing happens (log 2). -/
def execIllegalInstruction (t : Nat) (w : Word) (s : State) : Out :=
  onTile t s (fun s => if wordLegal w.toNat then s else issue t [] s (illegal t (wordUnit w.toNat)))

end Sys2Proof.Machine
end

