-- ==== Sys2Proof/Machine/Control.lean ====
section
/-! DEFINITION. Tile control, counters, hints and tokens (spec/04 R109 to R116): END, BRK, CTR, HINT, TWAIT, TTEST,
TLAST. -/

namespace Sys2Proof.Machine

/-- END (R109, R199): a relay still owed faults; else the tile parks until every unit is idle, and goes on at once where
they are. -/
def execEndProgram (t : Nat) (s : State) : Out :=
  onTile t s (fun s => issue t [] s (fun s =>
    let T := s.tile t
    if T.vec.relays.any (fun e => e.2.owed) then faultIssue t 2 ⟨Code.vxRelay, 0⟩ s
    else wake t (parkTile t .endUnits (retireAt t 2 T.pc s id))))

/-- BRK (R110): HALTED in Tahr debug mode, past the BRK; BREAKPOINT otherwise. -/
def execBrk (t : Nat) (s : State) : Out :=
  onTile t s (fun s => issue t [] s (fun s =>
    if (s.tile t).tahrMode then
      raiseHalt (s.partOf t) (retire t 1 s (fun T => { T with
        run := .halted, haltNew := T.haltNew ++ [⟨0, Code.breakpoint, T.faultPc.toNat, 0⟩] }))
    else faultIssue t 0 ⟨Code.breakpoint, 0⟩ s))

/-- The stepping id word (Table 2-5). -/
def State.steppingWord (s : State) : Word := word (0x090000 + s.stepMajor.toNat * 256 + s.stepMinor.toNat)

/-- A 64-bit counter into RD and RD + 1 (R111). -/
def Tile.setPair (T : Tile) (rd : Reg) (n : Nat) : Tile :=
  (T.setReg rd (word (n % 2 ^ 32))).setReg (Reg.pair rd) (word (n / 2 ^ 32))

/-- The guaranteed minimum rate of a voltage step in MHz (Table 2-1). -/
def minRate (step : Nat) : Nat :=
  [360, 410, 460, 510, 560, 610, 650, 700, 740, 780, 820, 860, 900].getD step 900
/-- The fewest beats of a control crossing at a tile's step (R50, Table 2-4): 2 and three cycles of 1.2 GHz, which are 2.5 ns. -/
def State.ctrlCrossing (s : State) (t : Nat) : Nat := 2 + ceilDiv (25 * minRate (s.quad (herdOf t / 4)).step) 10000

/-- CTR (R111): the beat counter, the module time counter, the stepping id word or the tile id; any other field is
illegal. The module time comes 4 beats and two control crossings after the issue (Table 4-11). -/
def execCtr (t : Nat) (rd ra : Reg) (imm : BitVec 16) (s : State) : Out :=
  onTile t s (fun s => issue t [] s (fun s =>
    if ra != 0 then illegal t 0 s
    else
      match imm.toNat with
      | 0 => if rd.val % 2 = 0 then retire t 1 s (fun T => T.setPair rd T.beats) else illegal t 0 s
      | 1 =>
        if rd.val % 2 = 0 then
          let n := 4 + 2 * (s.ctrlCrossing t + Config.crossBeats s.free)
          retire t 1 s (fun T => ((T.setPair rd s.time).later rd n).later (Reg.pair rd) n)
        else illegal t 0 s
      | 2 => retire t 1 s (fun T => T.setReg rd s.steppingWord)
      | 3 => retire t 1 s (fun T => T.setReg rd (word t))
      | _ => illegal t 0 s))

/-- HINT (R113): AHEAD in IMM bits 7:4, CLASS in bits 3:0; class 0 withdraws, classes above 4 count as 4. -/
def execHint (t : Nat) (imm : BitVec 16) (s : State) : Out :=
  onTile t s (fun s => issue t [] s (fun s =>
    let ahead := bits imm.toNat 4 4
    let cls := min 4 (bits imm.toNat 0 4)
    retire t 1 s (fun T => { T with
      hints := Sparse.set T.hints ahead cls })))

/-- TWAIT (R116): a seen token lets the tile go on; another parks it; an invalid one faults. -/
def execTwait (t : Nat) (ra : Reg) (s : State) : Out :=
  onTile t s (fun s => issue t [ra] s (fun s =>
    let T := s.tile t
    match T.tokenNum (T.reg ra) with
    | none => faultIssue t 0 ⟨Code.tokenInvalid, 0⟩ s
    | some (u, n) =>
      if T.done u n then retire t 1 s (fun T => T.observe u n)
      else parkTile t (.token u n) s))

/-- TTEST (R116): RD := 1 where the token is seen, else 0. -/
def execTtest (t : Nat) (rd ra : Reg) (s : State) : Out :=
  onTile t s (fun s => issue t [ra] s (fun s =>
    let T := s.tile t
    match T.tokenNum (T.reg ra) with
    | none => faultIssue t 0 ⟨Code.tokenInvalid, 0⟩ s
    | some (u, n) =>
      retire t 1 s (fun T => if T.done u n then (T.observe u n).setReg rd 1 else T.setReg rd 0)))

/-- TLAST (R116): the token of the unit's last issued operation; RA holds 1 to 5. -/
def execTlast (t : Nat) (rd ra : Reg) (s : State) : Out :=
  onTile t s (fun s => issue t [ra] s (fun s =>
    let T := s.tile t
    let u := (T.reg ra).toNat
    if 1 ≤ u && u ≤ 5 then retire t 1 s (fun T => T.setReg rd (tokenOf u (T.count u)))
    else faultIssue t 0 ⟨Code.tokenInvalid, 0⟩ s))

end Sys2Proof.Machine
end

