-- ==== Sys2Proof/Machine/Block.lean ====
section
/-! DEFINITION. The block unit: FILL, COPY and their completion (spec/03 R80 to R84, spec/04 R122). -/

namespace Sys2Proof.Machine

/-- A block-unit operation issues: a full queue parks the tile (R83); then the checks of R102 over its extents, and
BLOCK_ARG for alignment and length (R80); an operation of length 0 is complete at once and takes no entry. -/
def blockOp (t : Nat) (rd : Reg) (uses : List Reg) (s : State) (mk : Tile → BlockOp) : State :=
  issue t uses s (fun s =>
    let T := s.tile t
    if unitDepth 3 ≤ T.depth 3 then parkTile t (.full 3) s
    else
      let o := mk T
      let es : List Ext := if o.copy then [⟨o.dst, o.len, 1, true⟩, ⟨o.src, o.len, 1, false⟩] else [⟨o.dst, o.len, 1, true⟩]
      match checkExts t T es with
      | some f => faultIssue t 3 f s
      | none =>
        if o.dst % 8 != 0 || (o.copy && o.src % 8 != 0) || o.len % 8 != 0 || 0x1000000 < o.len then
          faultIssue t 3 ⟨Code.blockArg, 0⟩ s
        else
          tahrReserve t 3 o.num [] es s (fun s =>
            retire t (1 + T.tahrBeats) s (fun T => { (T.number 3).setReg rd (tokenOf 3 o.num) with
              blocks := if o.len = 0 then T.blocks else T.blocks ++ [o] })))

/-- FILL (R122): destination RA, length RB, pattern RC. -/
def execFill (t : Nat) (rd ra rb rc : Reg) (s : State) : Out :=
  onTile t s (fun s => blockOp t rd [ra, rb, rc] s (fun T =>
    ⟨T.count 3 + 1, T.pc, false, (T.reg ra).toNat, 0, (T.reg rb).toNat, T.reg rc⟩))

/-- COPY (R122): destination RA, source RB, length RC. -/
def execCopy (t : Nat) (rd ra rb rc : Reg) (s : State) : Out :=
  onTile t s (fun s => blockOp t rd [ra, rb, rc] s (fun T =>
    ⟨T.count 3 + 1, T.pc, true, (T.reg ra).toNat, (T.reg rb).toNat, (T.reg rc).toNat, 0⟩))

/-- The bytes that an operation writes: the pattern in every word, or the whole source as it stood (R81). -/
def BlockOp.bytes (o : BlockOp) (t : Nat) (s : State) : List Byte :=
  if o.copy then s.herdBytes t o.src o.len
  else (List.replicate (o.len / 4) (leBytes 4 o.pattern.toNat)).flatten

/-- BLOCK_OP_COMPLETE (R81, R115): the oldest operation writes its destination, and its token completes. -/
def execBlockOpComplete (t : Nat) (s : State) : Out :=
  onTile t s (fun s =>
    match (s.tile t).blocks with
    | [] => s
    | o :: _ =>
      let r := if o.copy then readCheck t o.src o.len s else .ok s
      match r with
      | .error (f, s) => faultTile t 3 f.code o.pc f.addr s
      | .ok s =>
        wake t ((s.writeMem (devAddr t o.dst) (o.bytes t s)).updTile t (fun T =>
          { T with blocks := T.blocks.drop 1 })))

end Sys2Proof.Machine
end

