-- ==== Sys2Proof/Machine/MemTier.lean ====
section
/-! DEFINITION. The memory tiers (spec/12 sections 12.1 to 12.4, 12.6, 12.7): the address maps, what a job may reach, a
controller's counters and log, and the rows of refresh, scrub, host access and the UE log. -/

namespace Sys2Proof.Machine

def gib : Nat := 0x40000000
/-- The bytes of the HBM region, of one HBM die range, and of the host window (Tables 1-6, 12-1). -/
def hbmSize : Nat := 1152 * gib
def hbmDie : Nat := 288 * gib
def hostSize : Nat := 2 ^ 51
/-- Installed DDR capacity, and one DDR die range (R318, R324). -/
def State.ddrSize (s : State) : Nat := 16 * s.ddrGib * gib
def State.ddrDie (s : State) : Nat := 4 * s.ddrGib * gib

/-- The tiers that a herd mover can name. -/
inductive Tier where
  | hbm | ddr | host
  deriving DecidableEq, Repr

/-- The tier that holds a whole byte range (Table 12-8 check 5). -/
def State.tierOf (s : State) (a n : Nat) : Option Tier :=
  if within a n hbmBase hbmSize then some .hbm
  else if within a n ddrBase s.ddrSize then some .ddr
  else if within a n hostBase hostSize then some .host
  else none

/-- The controller unit of an address (R317, R318, R319). -/
def State.unitOf (s : State) (a : Nat) : Nat :=
  if a < ddrBase then
    let p := a - hbmBase
    4 * (p / hbmDie) + p % hbmDie / 4096 % 4
  else
    let p := a - ddrBase
    16 + 4 * (p / s.ddrDie) + p % s.ddrDie / 4096 % 4

def State.mc (s : State) (u : Nat) : Mc := Sparse.get {} s.mcs u
def State.setMc (s : State) (u : Nat) (m : Mc) : State := { s with mcs := Sparse.set s.mcs u m }
def State.updMc (s : State) (u : Nat) (f : Mc → Mc) : State := s.setMc u (f (s.mc u))

/-- CE_COUNT + 1 (R329). -/
def Mc.countCe (m : Mc) : Mc := { m with ce := satAdd max32 m.ce 1, countSat := m.countSat || satHits max32 m.ce 1 }
/-- CRC_RETRY + 1 (R328). -/
def Mc.countRetry (m : Mc) : Mc :=
  { m with crcRetry := satAdd max32 m.crcRetry 1, countSat := m.countSat || satHits max32 m.crcRetry 1 }
/-- CRC_FAIL + 1 (R328). -/
def Mc.countFail (m : Mc) : Mc :=
  { m with crcFail := satAdd max32 m.crcFail 1, countSat := m.countSat || satHits max32 m.crcFail 1 }
/-- UE_COUNT + 1, and the log where it holds nothing unread: 0 mover read, 1 Kudu, 2 scrub, 3 host (R329, Table 12-12). -/
def Mc.countUe (m : Mc) (src a : Nat) : Mc :=
  let m := { m with ue := satAdd max32 m.ue 1, countSat := m.countSat || satHits max32 m.ue 1 }
  if m.ueValid then m else { m with ueValid := true, ueAddr := a, ueSrc := src }

/-- What a controller finds at a block: an error that its unit knows of stays until a write replaces the block (R329). -/
def State.dram (s : State) (a : Nat) (found : Dram) : Dram :=
  if s.badBlocks.contains a then .uncorrectable else found
/-- An uncorrectable block is counted, logged and remembered (R329). -/
def noteUe (u src a : Nat) (s : State) : State :=
  let s := s.updMc u (fun m => m.countUe src a)
  { s with badBlocks := if s.badBlocks.contains a then s.badBlocks else s.badBlocks ++ [a] }
/-- One of some blocks that is known uncorrectable. -/
def State.badAmong (s : State) (as : List Nat) : Option Nat := s.badBlocks.find? as.contains

/-- A unit's accesses to blocks for job `j` meet what `hits` names (R327 to R329), each where `reads` or `writes` holds of its
block. One that fails its check is made again, up to three times, and after the third retry `crc` is what follows; a read of an
uncorrectable block is followed by `ue`. -/
def meetHits {α : Type} (j : Nat) (reads writes : Nat → Bool) (crc ue : Nat → State → α) :
    List StackHit → State → Except α State
  | [], s => .ok s
  | h :: r, s =>
    let a := h.addr
    let u := s.unitOf a
    if !reads a && !writes a then meetHits j reads writes crc ue r s
    else
      let s := (List.range (min 3 h.fails)).foldl
        (fun s _ => (s.updMc u Mc.countRetry).noteBlocks j (decide (ddrBase ≤ a)) 1) s
      if 3 < h.fails then .error (crc a (s.updMc u Mc.countFail))
      else if !reads a then meetHits j reads writes crc ue r s
      else
        match h.found with
        | .uncorrectable => .error (ue a s)
        | .corrected => meetHits j reads writes crc ue r (s.updMc u Mc.countCe)
        | _ => meetHits j reads writes crc ue r s

/-- The address within a stack (R317) and within a channel (R318), and the pseudo-channel of a stack's address. -/
def State.localAddr (s : State) (a : Nat) : Nat :=
  let p := if a < ddrBase then (a - hbmBase) % hbmDie else (a - ddrBase) % s.ddrDie
  p / 16384 * 4096 + p % 4096
def State.pseudoChannel (s : State) (a : Nat) : Nat := s.localAddr a / 256 % 64

/-- The byte range touches no part of an exposed CXL.mem range (R342, Table 12-3). -/
def State.clearOfCxl (s : State) (a n : Nat) : Bool :=
  !(s.cxl.exposed && overlaps a n (ddrBase + s.cxl.base) s.cxl.size)

/-- A byte range lies in the union of some ranges, which may adjoin: from its first byte on, each range that holds the next
byte carries it to its own end; `fuel` is their number. -/
def coversFrom (rs : List (Nat × Nat)) : Nat → Nat → Nat → Bool
  | 0, _, n => n == 0
  | fuel + 1, a, n =>
    if n = 0 then true
    else
      match rs.find? (fun r => decide (r.1 ≤ a ∧ a < r.1 + r.2)) with
      | none => false
      | some r => let k := min n (r.1 + r.2 - a); coversFrom rs fuel (a + k) (n - k)
def covers (rs : List (Nat × Nat)) (a n : Nat) : Bool := coversFrom rs (rs.length + 1) a n

/-- A byte range lies in a job's allotments (R36, R474, R475), in the tier given. -/
def Job.reaches (J : Job) (tier : Tier) (a n : Nat) : Bool :=
  match tier with
  | .hbm => covers (J.hbm.map (fun e => (e.2.base, e.2.size))) a n
  | .ddr => covers (J.ddr.map (fun e => (e.2.base, e.2.size))) a n
  | .host => within a n J.host.base J.host.size

/-- The memory-side extent of a transfer may be reached by the job (Table 12-8 check 5, R475). -/
def State.mayReach (s : State) (j a n : Nat) : Bool :=
  match s.tierOf a n with
  | none => false
  | some t => (s.job j).reaches t a n && (t != .ddr || s.clearOfCxl a n)

/-! ## Crossings (R49, R57) -/

def State.crossing (s : State) (u : Nat) : Crossing := Sparse.get {} s.crossings u
def State.updCrossing (s : State) (u : Nat) (f : Crossing → Crossing) : State :=
  { s with crossings := Sparse.set s.crossings u (f (s.crossing u)) }
/-- The crossing that a block's address lies behind: its unit, or CXL. -/
def State.crossingOf (s : State) (a : Nat) : Nat := if s.tierOf a 64 = some .host then 32 else s.unitOf a

/-- A transfer of a tile by number. -/
def Tile.moverOp (T : Tile) (n : Nat) : Option MoverOp := T.mover.find? (fun o => o.num == n)

/-- A crossing entry holds a commit request that has reached its Kudu and waits to be taken (R57). -/
def State.asks (s : State) (b : XBlock) : Bool := s.coms.any (fun e => e.2.askers.contains (b.tile, b.num, b.block))
/-- The mover writes that stand before a controller while their block is sent again (R328): they keep their place among the
accesses to the block (R330). -/
def State.retried (s : State) (u : Nat) : List Nat :=
  ((s.crossing u).out.filter (fun b => b.write && !s.asks b &&
    match (s.tile b.tile).moverOp b.num with
    | some o => o.desc.kind == 1 && decide (0 < Sparse.get 0 o.retries b.block)
    | none => false)).map (·.addr)
/-- Accesses to some byte ranges have to wait for such a write, and with the HBM rail off none is made (R501). -/
def State.rangesWait (s : State) (rs : List (Nat × Nat)) : Bool :=
  !s.power.hbm || (List.range 32).any (fun u => (s.retried u).any (fun a => rs.any (fun r => overlaps a 64 r.1 r.2)))
/-- An access to block `a` has to wait for such a write. -/
def State.underRetry (s : State) (a : Nat) : Bool := (s.retried (s.unitOf a)).contains a

/-! ## Rows -/

/-- HBM_REFRESH and DDR_REFRESH (R322, R326): refresh delays accesses, and never changes data or refuses one. -/
def execHbmRefresh (_stack : Stack) (s : State) : Out := .next s
/-- DDR_REFRESH (R326). REFRESH.DOUBLE follows the DIMM's temperature. -/
def execDdrRefresh (channel : Channel) (hot : Bool) (s : State) : Out :=
  .next (s.updMc (16 + channel.val) (fun m => { m with double := hot }))

/-- MEM_EVENT's detail (Table 16-12a). -/
def memEventDetail (u kind a : Nat) : List Byte := leBytes 2 u ++ leBytes 1 kind ++ leBytes 5 0 ++ leBytes 8 a

/-- PATROL_SCRUB (R329): a scrub pass of a unit ends, or finds a block it corrects or logs and reports. Its access counts for no
job (R492). -/
def execPatrolScrub (u : Fin 32) (passEnd : Bool) (found : Dram) (addr : Nat) (s : State) : Out :=
  .next (
    if (s.mc u.val).run != .enabled then s
    else
      let s := s.noteBlocks 0 (decide (16 ≤ u.val)) 1
      let s := if passEnd then s.updMc u.val (fun m => { m with scrub := satAdd max32 m.scrub 1 }) else s
      match found with
      | .corrected => s.updMc u.val Mc.countCe
      | .uncorrectable => postEvent 0 Ev.memEvent u.val (memEventDetail u.val 1 (addr / 64 * 64)) (noteUe u.val 2 (addr / 64 * 64) s)
      | _ => s)

/-- CXLMEM_HOST_ACCESS (R342): the host reads or writes a 64-byte block of the exposed range, addressed within it; an
uncorrectable block poisons that response only and is logged. The read's data stands in busData (log 12). An access to a
block whose write is sent again waits for it (R330). A channel that is not enabled refuses the access (R325), which has no
context to fault. It counts for no job (R479). -/
def execCxlmemHostAccess (off : Nat) (write : Bool) (data : List Byte) (found : Dram) (s : State) : Out :=
  .next (
    let a := ddrBase + s.cxl.base + off / 64 * 64
    let u := s.unitOf a
    if !s.cxl.exposed || !s.power.reaches || s.cxl.size ≤ off || s.underRetry a then s
    else if (s.mc u).run != .enabled then { s with busData := [], busNack := true }
    else
      let s := s.noteBlocks 0 true 1
      if write then s.writeMem a ((data ++ List.replicate 64 0).take 64)
      else
      match s.dram a found with
      | .uncorrectable => { noteUe u 3 a s with busData := [], busNack := true }
      | .corrected => { s.updMc u Mc.countCe with busData := readBytes s.mem a 64, busNack := false }
      | _ => { s with busData := readBytes s.mem a 64, busNack := false })

/-- The range that the CDAT describes to the host (R549): the exposed one, from address 0 of the device. No command reads the CDAT
(log 59). -/
def State.cdatRange (s : State) : Option (Nat × Nat) := if s.cxl.exposed then some (0, s.cxl.size) else none

/-- UE_SRC (Table 12-12). -/
def Mc.ueSrcReg (m : Mc) : Nat := m.ueSrc * 2 + (if m.ueValid then 1 else 0)

/-- UE_SRC_READ (R343): VALID is returned and cleared. -/
def execUeSrcRead (u : Fin 32) (s : State) : Out :=
  .next { s.updMc u.val (fun m => { m with ueValid := false }) with
    busData := leBytes 4 (s.mc u.val).ueSrcReg, busNack := false }

end Sys2Proof.Machine
end

