-- ==== Sys2Proof/Machine/LinkOps.lean ====
section
/-! DEFINITION. Links as other families use them (spec/15): their state and its events, blocks given to a lane and sent
under credits, the job that a link is bound to, transfers that a failed link ends. -/

namespace Sys2Proof.Machine

def State.link (s : State) (k : Nat) : Link := Sparse.get {} s.links k
def State.setLink (s : State) (k : Nat) (x : Link) : State := { s with links := Sparse.set s.links k x }
def State.updLink (s : State) (k : Nat) (f : Link → Link) : State := s.setLink k (f (s.link k))

def LinkRun.code : LinkRun → Nat
  | .disabled => 0
  | .down => 1
  | .training => 2
  | .up => 3
  | .retraining => 4
  | .failed => 5
  | .closing => 6

/-- LK_STATE (Table 15-4). -/
def Link.stateReg (x : Link) : Nat :=
  x.light % 16 * 2 ^ 20 + (if x.swapped then 2 ^ 16 else 0) + (if x.miscabled then 2 ^ 3 else 0) + x.run.code

/-- The partition that owns a link, 0 for none (R470). -/
def State.partOfLink (s : State) (k : Nat) : Nat :=
  (s.liveParts.find? (fun p => (s.part p).links.contains k)).getD 0

/-- LINK_STATE's detail (Table 16-12a). -/
def linkDetail (k : Nat) (old new : LinkRun) (x : Link) : List Byte :=
  leBytes 1 k ++ leBytes 1 old.code ++ leBytes 1 new.code
    ++ leBytes 1 ((if x.swapped then 1 else 0) + (if x.miscabled then 2 else 0) + x.light % 16 * 16)
    ++ leBytes 4 0 ++ leBytes 8 (if new = .up then x.farSerial else 0)

/-- A link's state changes; every arrival at UP, departure from UP and FAILED is reported (Table 16-12). -/
def setLinkRun (k : Nat) (new : LinkRun) (s : State) : State :=
  let old := (s.link k).run
  let s := s.updLink k (fun x => { x with run := new })
  if old != new && (old = .up || new = .up || new = .failed) then
    let d := linkDetail k old new (s.link k)
    let p := s.partOfLink k
    let s := postEvent 0 Ev.linkState k d s
    if p = 0 then s else postEvent p Ev.linkState k d s
  else s

/-- The job spans modules (R477). -/
def Job.spans (J : Job) : Bool := decide (1 < J.lx * J.ly * J.lz)
/-- The job that a link's partition runs across modules, 0 for none (R477, R422). -/
def State.jobOfLink (s : State) (k : Nat) : Nat :=
  let p := s.partOfLink k
  if p = 0 then 0 else ((s.jobsOf p).find? (fun j => (s.job j).spans)).getD 0

/-! ## Sending blocks (R397 to R399) -/

def Link.credit (x : Link) (lane : Nat) : Nat :=
  match lane with
  | 0 => x.credit0
  | 1 => x.credit1
  | _ => x.credit2
def Link.addCredit (x : Link) (lane : Nat) (n : Nat) : Link :=
  match lane with
  | 0 => { x with credit0 := x.credit0 + n }
  | 1 => { x with credit1 := x.credit1 + n }
  | _ => { x with credit2 := x.credit2 + n }
def Link.takeCredit (x : Link) (lane : Nat) : Link :=
  match lane with
  | 0 => { x with credit0 := x.credit0 - 1 }
  | 1 => { x with credit1 := x.credit1 - 1 }
  | _ => { x with credit2 := x.credit2 - 1 }

/-- Freed receive-buffer blocks of a lane (R399). -/
def Link.owed (x : Link) (lane : Nat) : Nat :=
  match lane with
  | 0 => x.owed0
  | 1 => x.owed1
  | _ => x.owed2
def Link.setOwed (x : Link) (lane n : Nat) : Link :=
  match lane with
  | 0 => { x with owed0 := n }
  | 1 => { x with owed1 := n }
  | _ => { x with owed2 := n }
/-- One receive-buffer block of a lane is freed. -/
def Link.free (x : Link) (lane : Nat) : Link := x.setOwed lane (x.owed lane + 1)
/-- The lane whose credits the next header returns, and how many (Table 15-1). -/
def Link.returns (x : Link) : Nat × Nat :=
  let lane := if 0 < x.owed0 then 0 else if 0 < x.owed1 then 1 else 2
  (lane, min 255 (x.owed lane))

/-- Blocks of a Kudu-lane or control-lane packet are handled: their receive-buffer space is freed (R399, R414). -/
def Link.handled (x : Link) (lane n : Nat) : Link :=
  if lane = 1 then ({ x with kuduIn := x.kuduIn - n }).setOwed 1 (x.owed1 + min n x.kuduIn)
  else ({ x with ctrlIn := x.ctrlIn - n }).setOwed 2 (x.owed2 + min n x.ctrlIn)

/-- A link is unbound by a teardown: what it holds of the job is dropped, and its receive-buffer space freed (R399, Table
18-4 event 5). -/
def Link.unbind (x : Link) : Link :=
  { x with
    bindTag := 0, heldBlocks := [], delivered := [], landing := [], landed := 0, answers := [], kuduIn := 0, ctrlIn := 0
    owed0 := x.owed0 + x.heldBlocks.length + x.delivered.length, owed1 := x.owed1 + x.kuduIn, owed2 := x.owed2 + x.ctrlIn }

/-- The link sends blocks: UP, or draining, and not to a neighbour that it is miscabled to, for which no job traffic goes
out (R400, R408). -/
def Link.sends (x : Link) : Bool := (x.run == .up || (x.run == .closing && !x.darkClose)) && !x.miscabled

/-- A block goes out under the next SEQ, into the replay buffer, and its header carries what the link has to say (R397 to
R399). -/
def Link.transmit (x : Link) (b : TxBlock) : Link :=
  let c := x.returns
  { x.setOwed c.1 (x.owed c.1 - c.2) with
    tx := (x.tx + 1) % 2 ^ 64, txSeq := (x.txSeq + 1) % 65536, nak := false
    replay := x.replay ++ [{ b with
      seq := x.txSeq, sends := 1, ack := (x.rxSeq + 65535) % 65536, nak := x.nak, crLane := c.1, credits := c.2 }] }
/-- Waiting blocks go out in order, each while its lane has a credit and the replay buffer has room. -/
def Link.sendAll : List TxBlock → Link → Link
  | [], x => x
  | b :: r, x =>
    if x.sends ∧ 0 < x.credit b.lane ∧ x.replay.length < 256 then Link.sendAll r ((x.takeCredit b.lane).transmit b)
    else Link.sendAll r { x with waiting := x.waiting ++ [b] }
/-- Nothing but idle blocks waits or is unacknowledged: what the link has accepted is drained (R400). -/
def Link.drained (x : Link) : Bool := x.waiting.isEmpty && x.replay.all (fun b => b.lane == 3)
/-- Send what can be sent. -/
def Link.flush (x : Link) : Link := Link.sendAll x.waiting { x with waiting := [] }

/-- KIND of block `i` of `n` that carry some content (Table 15-1). -/
def LinkOut.kind (o : LinkOut) (lane n i : Nat) : Nat :=
  match o with
  | .answer _ _ _ => 4
  | .data _ _ last _ => if last then 3 else 2
  | _ => if lane = 2 then 5 else if i = 0 then 1 else if i + 1 = n then 3 else 2
/-- STACK and XFER of some content. -/
def LinkOut.stack : LinkOut → Nat
  | .ring _ s _ => s
  | _ => 0
def LinkOut.xfer : LinkOut → Nat
  | .write _ x _ _ _ _ _ _ => x
  | .data _ x _ _ => x
  | .answer _ x _ => x
  | .buddy _ x _ _ _ => x
  | _ => 0
/-- The same content for another link. -/
def LinkOut.on (k : Nat) : LinkOut → LinkOut
  | .write _ x s t a p r b => .write k x s t a p r b
  | .data _ x l b => .data k x l b
  | .ring _ s p => .ring k s p
  | .answer _ x ok => .answer k x ok
  | .abort _ o => .abort k o
  | .sweep _ kd s h v => .sweep k kd s h v
  | .concord _ x y z s d => .concord k x y z s d
  | .digest _ e s n v => .digest k e s n v
  | .buddy _ x s t d => .buddy k x s t d
  | .buddyAsk _ => .buddyAsk k

/-- A change of a link in which blocks may be sent: what goes out counts for the link's job (R488). -/
def sendLink (k : Nat) (f : Link → Link) (s : State) : State :=
  let x := f (s.link k)
  let n := (x.tx + 2 ^ 64 - (s.link k).tx) % 2 ^ 64
  let s := s.setLink k x
  if n = 0 then s else s.noteLink (s.jobOfLink k) n

/-- `n` blocks are given to a lane of a link with the content `o`, under a CONCORD_TAG, the STEP_TAG that it names and the
superstep tag of the link's job (Table 15-1, R413). -/
def pushTagged (k lane n tag step : Nat) (o : LinkOut) (s : State) : State :=
  let ss := (s.job (s.jobOfLink k)).superstep % 65536
  let block (i : Nat) : TxBlock := {
    lane := lane, kind := o.kind lane n i, stack := o.stack, xfer := o.xfer, step := step % 65536, ssTag := ss, tag := tag }
  let s := sendLink k (fun x => ({ x with waiting := x.waiting ++ (List.range n).map block }).flush) s
  { s with outbox := s.outbox ++ [o] }
/-- The same, under the tag that the link is bound to. -/
def pushOut (k lane n step : Nat) (o : LinkOut) (s : State) : State := pushTagged k lane n (s.link k).bindTag step o s

/-- Blocks of a header and `bytes` of payload. -/
def blocksOf (bytes : Nat) : Nat := 1 + ceilDiv bytes 256

/-- How a step tag stands to its reference (R414). -/
inductive StepCmp where
  | same | ahead | skew
  deriving DecidableEq, Repr

def stepCompare (tag ref : Nat) : StepCmp :=
  if tag % 65536 = ref % 65536 then .same else if tag % 65536 = (ref + 1) % 65536 then .ahead else .skew

/-! ## Failure -/

namespace Code
def linkDown := 0x50
def linkRefused := 0x51
def stepSkew := 0x52
def jobAborted := 0x53
def concordLost := 0x54
end Code

/-- The tiles that have a LINK_WRITE on link `k`, with its issue offset. -/
def State.linkWrites (s : State) (k : Nat) : List (Nat × Word) :=
  s.tiles.filterMap (fun e => (e.2.mover.find? (fun o => o.desc.kind == 4 && o.desc.link == k)).map (fun o => (e.1, o.pc)))

/-- The unacknowledged blocks of a link are abandoned, and the transfers that they carry fault (R398, R411). -/
def abandonBlocks (k : Nat) (s : State) : State :=
  (s.linkWrites k).foldl (fun s e => faultTile e.1 5 Code.linkDown e.2 0 s)
    (s.updLink k (fun x => { x with replay := [], waiting := [], darkClose := false }))

/-- A link becomes FAILED (R398, R411, R417): its unacknowledged blocks are abandoned, its transfers fault, and the job
that is bound to it loses concord. -/
def failLink (k : Nat) (s : State) : State :=
  let s := abandonBlocks k (setLinkRun k .failed s)
  let j := s.jobOfLink k
  if j != 0 && (s.job j).bound then
    raiseFault (s.job j).part (s.updJob j (fun J =>
      { J with ctxFault := if J.ctxFault.isSome then J.ctxFault else some (Code.concordLost, 0) }))
  else s

end Sys2Proof.Machine
end

