-- ==== Sys2Proof/Machine/SyncOps.lean ====
section
/-! DEFINITION. The sync object (spec/10 sections 10.3 to 10.5): clamped sums, release, signals, arrivals, waits, and
what a release of a job's closing object does. -/

namespace Sys2Proof.Machine

/-- A sum limited to 0 to 0xFFFF (R287). -/
def clampCount (i : Int) : Nat := if i < 0 then 0 else min 0xFFFF i.toNat

/-- VALUE moves by `d` to a clamped sum, with the sticky flags of a clamp (R287); the ledger counts it unclamped (R297). -/
def SyncObj.addSum (o : SyncObj) (d : Int) : SyncObj :=
  let i := (o.value : Int) + d
  { o with value := clampCount i, overflow := o.overflow || decide (0xFFFF < i), underflow := o.underflow || decide (i < 0)
           due := o.due + d }
/-- VALUE set, as a load, an SCONF or Ibex firmware sets it: the reference point of R297. -/
def SyncObj.setValue (o : SyncObj) (v : Nat) : SyncObj := { o with value := v, due := v }

/-- A parked wait for a generation newer than `g` holds (R135). -/
def SyncObj.holds (o : SyncObj) (g : Nat) : Bool := newer 8 o.gen g

/-- One release (R288): GEN, VALUE by mode, EARLY, the release counter. -/
def SyncObj.release (o : SyncObj) : SyncObj :=
  let o :=
    match o.mode with
    | 0 => { o with value := o.value - o.target, due := o.due - o.target }
    | 1 => { o.addSum ((o.early : Int) - o.target) with early := 0 }
    | _ => o
  { o with gen := (o.gen + 1) % 256, releases := satAdd max32 o.releases 1,
           relSat := o.relSat || satHits max32 o.releases 1 }

/-- Waits that resume at a release (R289): the object without them, and their tiles. -/
def SyncObj.wakers (o : SyncObj) : List Nat := (o.parked.filter (fun w => o.holds w.2)).map (·.1)
/-- The object after a release with the waits it resumes taken out. -/
def SyncObj.dropWakers (o : SyncObj) : SyncObj := o.setParked (o.parked.filter (fun w => !o.holds w.2))
/-- A wait parks at an object (R289). -/
def SyncObj.park (o : SyncObj) (t g : Nat) : SyncObj :=
  { o with parked := o.parked ++ [(t, g)], waiters := (o.waiters + 1) % 2 ^ 16 }

/-- What an operation made of an object: the object, the tiles resumed, the releases. -/
structure SyncStep where
  obj : SyncObj
  woken : List Nat
  releases : Nat
  deriving DecidableEq, Repr

/-- One pass of the loop of R288. -/
def SyncStep.pass (x : SyncStep) : SyncStep :=
  let o := x.obj.release
  ⟨o.dropWakers, x.woken ++ o.wakers, x.releases + 1⟩

/-- The release loop of R288 in counter and barrier mode; `fuel` bounds the passes, each of which but the first lowers
VALUE by TARGET. -/
def releaseLoop : Nat → SyncStep → SyncStep
  | 0, x => x
  | fuel + 1, x => if x.obj.target ≠ 0 ∧ x.obj.target ≤ x.obj.value then releaseLoop fuel x.pass else x

/-- R288 after an operation; `before` is VALUE before it, for the rise that flag mode asks. -/
def SyncObj.settle (o : SyncObj) (before : Nat) : SyncStep :=
  let x : SyncStep := ⟨o, [], 0⟩
  if o.mode = 2 then
    if o.target ≠ 0 ∧ before < o.target ∧ o.target ≤ o.value then x.pass else x
  else releaseLoop 0x10001 x

/-- A signal of `s` (Table 10-2). -/
def SyncObj.signal (o : SyncObj) (s : Int) (kind id : Nat) : SyncStep :=
  ({ o.addSum s with srcKind := kind, srcId := id }).settle o.value

/-- The round that an arrival asks for: the first of its tile, or a round (R290). -/
def SyncObj.arrive (o : SyncObj) (tile : Nat) (first : Bool) (r : Nat) : SyncStep × ArrAnswer :=
  let src : SyncObj := { o with srcKind := 1, srcId := tile }
  if o.mode ≠ 1 then (o.settle o.value, .modeFault)
  else if first || r == o.gen then
    ((src.addSum 1).settle o.value, .round o.gen)
  else if r = (o.gen + 1) % 256 then
    (({ src with early := o.early + 1 }).settle o.value, .round r)
  else (⟨{ o with misuse := true }, [], 0⟩, .misuse)

/-- The word that SREAD returns (Table 4-10). -/
def SyncObj.word (o : SyncObj) : Word :=
  Sys2Proof.word (o.gen * 2 ^ 24 + (if o.underflow then 2 ^ 19 else 0) + (if o.overflow then 2 ^ 18 else 0)
    + o.mode * 2 ^ 16 + o.value)

/-- The 32 bytes of an object (Table 10-1). -/
def SyncObj.bytes (o : SyncObj) : List Byte :=
  leBytes 4 (o.target * 2 ^ 16 + o.value)
  ++ leBytes 4 (o.gen * 2 ^ 24 + (if o.relSat then 2 ^ 21 else 0) + (if o.misuse then 2 ^ 20 else 0)
      + (if o.underflow then 2 ^ 19 else 0) + (if o.overflow then 2 ^ 18 else 0) + o.mode * 2 ^ 16 + o.early)
  ++ leBytes 4 o.waiters ++ leBytes 4 (o.srcKind * 2 ^ 14 + o.srcId) ++ leBytes 4 o.releases ++ leBytes 12 0

/-- The job whose closing object this is, among those that hold herds (R277). -/
def State.closedJob (s : State) (o : Nat) : Option Nat :=
  s.liveParts.findSome? (fun p =>
    let j := (s.part p).holding
    if j != 0 && s.closing j == some o then some j else none)

/-- `n` superstep boundaries of a job, by releases of its closing object `o`: its superstep tag and SUPERSTEPS advance, and
release reports go to Ibex, behind the flags raised before them (R277, R278, R315, R316, R487). -/
def boundary (j o n : Nat) (s : State) : State :=
  let P := s.part (s.job j).part
  let gen := (s.sync o).gen
  let report (i : Nat) : Report := {
    obj := o, gen := (gen + 256 - (n - 1 - i) % 256) % 256, fault := P.fault, halt := P.halt
    nonfin := P.nonfin && !P.nonfinSeen }
  s.updJob j (fun J => { J with
    superstep := J.superstep + n, reports := J.reports ++ (List.range n).map report,
    acct := { J.acct with now := { J.acct.now with supersteps := J.acct.now.supersteps + n } } })

/-- An operation's result takes effect: the object, the waits that may resume, the boundaries of a closing object. -/
def putSync (o : Nat) (x : SyncStep) (s : State) : State :=
  let s := x.woken.foldl (fun s t => s.updTile t (fun T => { T with syncReady := some o })) (s.setSync o x.obj)
  match s.closedJob o with
  | some j => if x.releases = 0 then s else boundary j o x.releases s
  | none => s

/-- A signal is applied to its object (R286 to R288). -/
def signalObj (o : Nat) (amount : Int) (kind id : Nat) (s : State) : State :=
  putSync o ((s.sync o).signal amount kind id) s

/-- What R288 does after an operation that leaves the object's fields as they stand (a read, a wait that holds at once). -/
def settleObj (o : Nat) (s : State) : State :=
  let x := (s.sync o).settle (s.sync o).value
  if x.releases = 0 then s else putSync o x s

/-- The partition that owns a sync object, 0 for none. -/
def State.partOfObj (s : State) (o : Nat) : Nat :=
  if o < 0x20000 then s.partOfHerd (o / 256)
  else (s.liveParts.find? (fun p => (s.part p).devObjs.contains (o - 0x20000))).getD 0

/-- The unit that holds an object: its herd, or 0x8000 + hub, each hub holding 256 device objects in order (log 81). -/
def objUnit (o : Nat) : Nat := if o < 0x20000 then o / 256 else 0x8000 + (o - 0x20000) / 256

/-- A signal by +1 goes out to the object that a reference names for partition `p`, as a packet (Table 11-2), where the
reference still names one (R133): of a mover transfer's completion, a share's round or commit, or a landed transfer. -/
def signalRef (job p : Nat) (ref : Word) (kind id : Nat) (unit : Nat × Nat) (s : State) : State :=
  match s.refObj p ref with
  | some o => sendSync job (.signal o 1 kind id unit) s
  | none => s
/-- A Kudu's or Ibex firmware's signal by +1 (SRC_KIND 0b11), which comes through the control crossing. -/
def signalFw (job p : Nat) (ref : Word) (s : State) : State := signalRef job p ref 3 0 (controlCrossing, 3) s

/-- A context faults without a tile fault of its own: recorded for the fault handler, and the FAULT flag rises (R468). -/
def contextFault (j code addr : Nat) (s : State) : State :=
  if !s.jobUsed j then s
  else
    raiseFault (s.job j).part (s.updJob j (fun J =>
      { J with ctxFault := if J.ctxFault.isSome then J.ctxFault else some (code, addr) }))

/-- Arrival-table entries of a tile at a reference whose round is older than GEN retire (R292); one whose ARRIVE still
awaits its answer stays, for the answer always finds its entry (R290). -/
def Tile.retireArrival (T : Tile) (ref : Word) (gen : Nat) : Tile :=
  { T with arrivals := T.arrivals.filter (fun e => !(e.2.live && !e.2.waiting && e.2.ref == ref && newer 8 gen e.2.round)) }

end Sys2Proof.Machine
end

