-- ==== Sys2Proof/Machine/KuduOps.lean ====
section
/-! DEFINITION. Reduction and commit entries as other families use them (spec/13, spec/14): access, share addresses
(R317, R346, R373), the request address (R376, R377), an entry's fault, and Tahr's TR_KUDU (Table 17-10). -/

namespace Sys2Proof.Machine

/-- The key of entry e of stack k. -/
def entryKey (stack e : Nat) : Nat := stack * 64 + e
def State.red (s : State) (k : Nat) : RedEntry := Sparse.get {} s.reds k
def State.setRed (s : State) (k : Nat) (x : RedEntry) : State := { s with reds := Sparse.set s.reds k x }
def State.updRed (s : State) (k : Nat) (f : RedEntry → RedEntry) : State := s.setRed k (f (s.red k))
def State.com (s : State) (k : Nat) : ComEntry := Sparse.get {} s.coms k
def State.setCom (s : State) (k : Nat) (x : ComEntry) : State := { s with coms := Sparse.set s.coms k x }
def State.updCom (s : State) (k : Nat) (f : ComEntry → ComEntry) : State := s.setCom k (f (s.com k))

/-- 64-byte blocks of one share (R346). -/
def RedEntry.blocks (x : RedEntry) : Nat := 64 * x.bufGrans
/-- Bytes of a buffer and of a staging area (R346, R350). -/
def RedEntry.bufBytes (x : RedEntry) : Nat := x.bufGrans * 16384
def RedEntry.stageBytes (x : RedEntry) : Nat := ceilDiv (x.stageBlocks * 64) 4096 * 16384

/-- The device address of byte `o` of stack `k`'s share of an array at `x` (R373). -/
def shareAddr (x k o : Nat) : Nat := x + o / 4096 * 16384 + k % 4 * 4096 + o % 4096
/-- The byte offset in its share of an address of an array at `x`. -/
def shareOff (x a : Nat) : Nat := (a - x) / 16384 * 4096 + (a - x) % 4096

/-- The shard record of stack `k` (R374, s as R373 counts it on the die; log 43): its request block, and its status block
64 bytes on. -/
def ComEntry.recordAt (c : ComEntry) (k : Nat) : Nat := c.shardRec + k % 4 * 0x1000

/-- Bytes of the elements' array of element size z, over the die (R373). -/
def arrayBytes (used z : Nat) : Nat := ceilDiv (used * z) 4096 * 16384
/-- The element size of the working copy (Table 14-1). -/
def ComEntry.workSize (c : ComEntry) : Nat := if c.workFmt = 3 then 2 else 1
/-- Records of the working copy in a granule (R382). -/
def ComEntry.perGranule (c : ComEntry) : Nat := 4096 / c.recBytes
/-- Bytes of the working copy over the die (R373, R382). -/
def ComEntry.workBytes (c : ComEntry) : Nat :=
  if c.workLayout then ceilDiv (ceilDiv c.used 1024) c.perGranule * 16384 else arrayBytes c.used c.workSize

/-- The arrays of an entry as (address, bytes over the die): shard records, masters, moments that RULE uses, working copy. -/
def ComEntry.arrays (c : ComEntry) : List (Nat × Nat) :=
  [(c.shardRec, 16384), (c.master0, arrayBytes c.used 6), (c.master1, arrayBytes c.used 6),
   (c.m10, arrayBytes c.used 4), (c.m11, arrayBytes c.used 4), (c.workBase, c.workBytes)]
  ++ (if c.rule = 0 then [] else [(c.m20, arrayBytes c.used 4), (c.m21, arrayBytes c.used 4)])

/-- Slot `n` of master, first and second moment. -/
def ComEntry.master (c : ComEntry) (n : Nat) : Nat := if n % 2 = 0 then c.master0 else c.master1
def ComEntry.m1 (c : ComEntry) (n : Nat) : Nat := if n % 2 = 0 then c.m10 else c.m11
def ComEntry.m2 (c : ComEntry) (n : Nat) : Nat := if n % 2 = 0 then c.m20 else c.m21

/-- The job of a link faults with STEP_SKEW (R414). -/
def stepSkewFault (k : Nat) (s : State) : State := contextFault (s.jobOfLink k) Code.stepSkew 0 s

/-- A reduction entry faults, and with it the context of its job (R352, R329, R392). -/
def redFault (k code addr : Nat) (s : State) : State :=
  let j := (s.red k).job
  contextFault j code addr (s.updRed k (fun x => { x with state := .faulted, fault := code }))

/-- A Kudu's read meets an uncorrectable block: counted and logged at its unit, and the entry faults (R329). -/
def kuduUe (k a : Nat) (s : State) : State := redFault k Code.dramUncorrectable a (noteUe (k / 64) 1 a s)

/-- An access of a reduction entry's Kudu is to a block that it reads: one of `reads`, or of the staging area. -/
def kuduReads (s : State) (k : Nat) (reads : List Nat) (a : Nat) : Bool :=
  reads.contains a || (within a 64 (s.red k).stageBase (s.red k).stageBytes && s.unitOf a == k / 64)
/-- What is left to meet once the accesses to some blocks have been made: an access is met once. -/
def leftHits (s : State) (k : Nat) (hits : List StackHit) (reads writes : List Nat) : List StackHit :=
  hits.filter (fun h => !kuduReads s k reads h.addr && !writes.contains h.addr)

/-- Block accesses that a list of reads or writes in address order makes: neighbours in one block are one access. -/
def blockCount : List Nat → Nat
  | [] => 0
  | [_] => 1
  | a :: b :: l => (if a = b then 0 else 1) + blockCount (b :: l)

/-- A Kudu's accesses to blocks of its stack (R327 to R329): it reads `reads` and the staging area, and writes `writes`; `hits`
are those that meet something. `crc` follows a third retry that fails, `ue` a read of an uncorrectable block. The accesses count
for the entry's job (R479). -/
def kuduMeets {α : Type} (k : Nat) (hits : List StackHit) (reads writes : List Nat) (crc ue : Nat → State → α) (s : State) :
    Except α State :=
  let j := (s.red k).job
  let s := s.noteBlocks j false (blockCount reads + blockCount writes)
  match s.badAmong reads with
  | some a => .error (ue a s)
  | none => meetHits j (kuduReads s k reads) writes.contains crc ue hits s
/-- The same for an entry that runs: the context faults with MEM_CRC, and the entry with DRAM_UNCORRECTABLE. -/
def kuduAccess (k : Nat) (hits : List StackHit) (reads writes : List Nat) (s : State) : Except State State :=
  kuduMeets k hits reads writes (contextFault (s.red k).job Code.memCrc) (kuduUe k) s
/-- The same for a commit entry that Ibex firmware starts up or recovers: the context alone faults, and the code is beside the
state. -/
def firmAccess (k : Nat) (hits : List StackHit) (reads writes : List Nat) (s : State) : Except (Nat × State) State :=
  let j := (s.red k).job
  kuduMeets k hits reads writes (fun a s => (Code.memCrc, contextFault j Code.memCrc a s))
    (fun a s => (Code.dramUncorrectable, contextFault j Code.dramUncorrectable a (noteUe (k / 64) 1 a s))) s

/-- `a` is the request address of commit entry `c`, of share `k`, which is not OFF (R376, R377). -/
def State.requestAt (s : State) (k : Nat) (c : ComEntry) (a : Nat) : Bool :=
  k / 64 == s.unitOf a && c.state != .off && a == c.recordAt (k / 64)
/-- A block write to `a` is a commit request. -/
def State.isRequest (s : State) (a : Nat) : Bool := s.coms.any (fun e => s.requestAt e.1 e.2 a)
/-- A block write to the request address of a commit entry that is not OFF stands before its Kudu (R377), and the answer to the
transfer block that it came with, if any, waits (R57). -/
def noteRequest (a : Nat) (asker : Option (Nat × Nat × Nat)) (s : State) : State :=
  { s with coms := Sparse.mapVals (fun k c =>
      if s.requestAt k c a then { c with request := true, askers := c.askers ++ asker.toList } else c) s.coms }

/-- A Kudu's accesses for share `k` have to wait for a mover write to its entries' areas that is sent again (R330). With the
HBM rail off the Kudu accesses nothing (R501). -/
def State.kuduWaits (s : State) (k : Nat) : Bool :=
  let x := s.red k
  let c := s.com k
  let areas := [(x.bufBase, x.bufBytes), (x.stageBase, x.stageBytes)] ++ (if c.state = .off then [] else c.arrays)
  !s.power.hbm || (s.retried (k / 64)).any (fun a => areas.any (fun r => within a 64 r.1 r.2))

/-! ## TR_KUDU -/

/-- A memory-side range of a transfer. -/
def MvDesc.rowRanges (d : MvDesc) : List (Nat × Nat) := (List.range d.rows).map (fun r => (d.addr + r * d.addrPitch, d.rowBytes))

/-- The bytes at which each of some ranges first meets [lo, lo + n). -/
def meetRange (rs : List (Nat × Nat)) (lo n : Nat) : List Nat :=
  rs.filterMap (fun r => if overlaps r.1 r.2 lo n then some (max r.1 lo) else none)

/-- The conflicts of TR_KUDU with one reduction entry (R348): a transfer other than ACCUM to a buffer not in COMPLETE, or any
to a staging area. -/
def redTrap (x : RedEntry) (accum : Bool) (rs : List (Nat × Nat)) : List Nat :=
  if x.state = .free then []
  else (if !accum && x.state != .complete then meetRange rs x.bufBase x.bufBytes else [])
    ++ meetRange rs x.stageBase x.stageBytes

/-- The conflicts of TR_KUDU with one commit entry (R383, R388): writes to a master, the working copy or moment slot c; writes
to moment slot n outside rule DIRECT before acceptance; reads of slot n or the working copy from a commit's acceptance to
its end, in CLOSING too. -/
def comTrap (s : State) (k : Nat) (c : ComEntry) (write : Bool) (rs : List (Nat × Nat)) : List Nat :=
  if c.state = .off then []
  else
    let cur := readNat s.mem (c.recordAt (k / 64) + 64) 8 / 2 ^ 32 % 2
    let next := 1 - cur
    let master (n : Nat) := meetRange rs (c.master n) (arrayBytes c.used 6)
    let m1 (n : Nat) := meetRange rs (c.m1 n) (arrayBytes c.used 4)
    let m2 (n : Nat) := if c.rule = 0 then [] else meetRange rs (c.m2 n) (arrayBytes c.used 4)
    let work := meetRange rs c.workBase c.workBytes
    if write then
      master 0 ++ master 1 ++ work ++ m1 cur ++ m2 cur ++ (if c.rule = 2 ∧ c.state = .ready then [] else m1 next ++ m2 next)
    else if c.state = .committing || c.busy then master next ++ m1 next ++ m2 next ++ work
    else []

/-- TR_KUDU of a transfer of job `j`: the first conflicting byte (Tables 17-10, 17-11); a LINK_WRITE reaches no memory of this
module. -/
def kuduTrap (s : State) (j : Nat) (d : MvDesc) : Option Nat :=
  let rs := if d.kind = 4 then [] else d.rowRanges
  let mine := s.reds.filter (fun e => e.2.job == j)
  (mine.flatMap (fun e => redTrap e.2 (d.kind == 3) rs ++ comTrap s e.1 (s.com e.1) (d.kind == 1 || d.kind == 3) rs)).min?

end Sys2Proof.Machine
end

