-- ==== Sys2Proof/Machine/Window.lean ====
section
/-! DEFINITION. Windows, remote writes and in-flight sums (spec/03 R85 to R91, spec/04 R124 to R126, spec/11 R304 to
R311): WOPEN, WCLOSE, PUT, the receiving port's check and commit, and the sum tree. -/

namespace Sys2Proof.Machine

/-! ## Windows -/

def Window.len (w : Window) : Nat := w.wend.toNat - w.base.toNat
def Window.syncEn (w : Window) : Bool := bit w.ctrl.toNat 2
def Window.syncDev (w : Window) : Bool := bit w.ctrl.toNat 3
def Window.syncIndex (w : Window) : Nat := bits w.ctrl.toNat 8 10
/-- The key of a window's bound object, seen from its tile (Table 3-14). -/
def Window.obj (w : Window) (t : Nat) : Nat :=
  if w.syncDev then devObj w.syncIndex else herdObj (herdOf t) w.syncIndex
def Window.anyTile (w : Window) : Bool := bit w.sender.toNat 31
def Window.moverOk (w : Window) : Bool := bit w.sender.toNat 30
def Window.lo (w : Window) : Nat := bits w.sender.toNat 0 14
def Window.hi (w : Window) : Nat := bits w.sender.toNat 16 14
/-- The contributors of a window's sums (R306). -/
def Window.contribs (w : Window) : Nat := w.hi + 1 - w.lo

/-- WOPEN finds the window invalid (R86). -/
def windowBad (t w : Nat) (s : State) : Bool :=
  let T := s.tile t
  let x := T.window w
  let b := x.base.toNat
  decide (x.wend.toNat ≤ b) || !within b x.len T.regionBase T.regionSize
    || overlaps b x.len T.codeBase T.codeSize || overlaps b x.len T.ringBase T.ringSize
    || T.windows.any (fun e => e.1 != w && e.2.opened && overlaps b x.len e.2.base.toNat e.2.len)
    || (x.syncEn && (if x.syncDev then !(s.part (s.partOf t)).devObjs.contains x.syncIndex
                     else decide (255 < x.syncIndex)))

/-- WOPEN (R86, R124): the window opens with WIN_COUNT 0; in Tahr's terms it is receiving (R464). -/
def execWopen (t : Nat) (w : Win) (s : State) : Out :=
  onTile t s (fun s => issue t [] s (fun s =>
    if ((s.tile t).window w.val).opened then faultIssue t 4 ⟨Code.windowReopen, 0⟩ s
    else if windowBad t w.val s then faultIssue t 4 ⟨Code.windowConfig, 0⟩ s
    else retire t 2 s (fun T => T.setWindow w.val { T.window w.val with opened := true, count := 0, settled := false })))

/-- The lowest destination among the open sums of a window that still miss a contribution, for Tahr's TR_ABANDON: a WCLOSE
abandons these; a sum whose contributions are all accepted completes in the drain before (R311, R90, R466, R467). -/
def State.openSum (s : State) (t w : Nat) : Option Nat :=
  ((s.sums.filter (fun c => c.tile == t && c.window == w && decide (c.accepted.length < c.contribs))).map (·.dstOff)).min?

/-- WCLOSE (R90, R124): acceptance stops at once; the tile parks until every accepted write has committed, and then
abandons the window's open sums (R311). -/
def execWclose (t : Nat) (w : Win) (s : State) : Out :=
  onTile t s (fun s => issue t [] s (fun s =>
    let T := s.tile t
    let x := T.window w.val
    if !x.opened then retire t 2 s id
    else
      match tahrOwn T Code.trAbandon (s.openSum t w.val) with
      | some a => trapTile t false ⟨Code.trAbandon, devAddr t a, 0⟩ s
      | none =>
        let s := s.updTile t (fun T => T.setWindow w.val { T.window w.val with opened := false })
        if x.inFlight = 0 then retire t 2 (abandonSums t w.val s) id
        else parkTile t (.drain w.val) (retireAt t 2 T.pc s id)))

/-! ## The message port's queue (Table 4-5, R260) -/

/-- An entry of the port queue is a SEND that waits for a credit (R260). -/
def State.waitsCredit (s : State) (o : PortOp) : Bool :=
  o.send && (match s.msg o.id with
    | some m => m.recv = .waitListed || m.send = .retryWait || m.send = .unsent
    | none => false)

/-- SEND and PUT find the port's queue full (R260): they park with CREDIT_WAIT where every entry waits for a credit. -/
def portIssue (t : Nat) (s : State) (k : State → State) : State :=
  let T := s.tile t
  if T.port.queue.length < unitDepth 4 then k s
  else if T.port.queue.all s.waitsCredit then parkTile t .credit s
  else parkTile t (.full 4) s

/-- The operation with this flight id completes: its entry frees and its token is seen (R115). -/
def portDone (t id : Nat) (s : State) : State :=
  wake t (s.updTile t (fun T => { T with port := { T.port with queue := T.port.queue.filter (fun o => o.id != id) } }))

/-- A send-status word (Table 9-5). -/
def statusWord (status landed retries : Nat) (direct : Bool) : Nat :=
  2 ^ 63 + landed * 2 ^ 32 + min retries 0xFFFF * 2 ^ 16 + (if direct then 2 ^ 8 else 0) + status

/-! ## PUT -/

/-- A put descriptor (Table 4-7). -/
structure PutDesc where
  dstOff : Nat
  window : Nat
  dstTile : Nat
  kind : Nat
  len : Nat
  src : Nat
  reservedOk : Bool
  deriving DecidableEq, Repr

def PutDesc.ofNat (n : Nat) : PutDesc where
  dstOff := bits n 96 24
  window := bits n 80 3
  dstTile := bits n 64 14
  kind := bits n 60 4
  len := bits n 32 17
  src := bits n 0 24
  reservedOk := bits n 120 8 == 0 && bits n 83 13 == 0 && bits n 78 2 == 0 && bits n 49 11 == 0 && bits n 24 8 == 0

/-- The conditions of R126. -/
def PutDesc.ok (d : PutDesc) (s : State) : Bool :=
  d.reservedOk && decide (d.kind ≤ 1) && decide (8 ≤ d.len ∧ d.len ≤ 65536) && d.len % 8 == 0 && d.src % 8 == 0
    && d.dstOff % 8 == 0 && decide (d.dstOff + d.len ≤ 0x1000000) && decide (d.dstTile < s.tileCount)

/-- PUT (R125, R126): the descriptor is read at issue; the write enters the network, or is answered PARTITION where its
destination lies outside the partition. -/
def execPut (t : Nat) (rd ra rb : Reg) (s : State) : Out :=
  onTile t s (fun s => issue t [ra, rb] s (fun s => portIssue t s (fun s =>
    let T := s.tile t
    let off := (T.reg ra).toNat
    let st := (T.reg rb).toNat
    if 0x1000000 ≤ st then faultIssue t 4 ⟨Code.offsetHigh, 0⟩ s
    else
    match checkStruct t T off 16 16 with
    | some f => faultIssue t 4 f s
    | none =>
    match readCheck t off 16 s with
    | .error (f, s) => faultIssue t 4 f s
    | .ok s =>
    let d := PutDesc.ofNat (s.herdNat t off 16)
    match checkExts t T [⟨st, 8, 8, true⟩, ⟨d.src, d.len, 1, false⟩] with
    | some f => faultIssue t 4 f s
    | none =>
    if !d.ok s then faultIssue t 4 ⟨Code.putArg, 0⟩ s
    else
      let n := T.count 4 + 1
      tahrReserve t 4 n [⟨off, 16, 1, false⟩] [⟨d.src, d.len, 1, false⟩, ⟨st, 8, 1, true⟩] s (fun s =>
        let p : RemoteWrite := {
          sender := t, num := n, pc := T.pc, row := none, job := T.port.job, dst := d.dstTile, window := d.window
          dstOff := d.dstOff, len := d.len, src := d.src, sum := d.kind == 1, statusOff := st
          phase := if s.samePart t d.dstTile then .inNet else .answered 5 }
        let id := s.nextId
        let s := { s with puts := Sparse.set s.puts id p, nextId := id + 1 }
        retire t (2 + T.tahrBeats) s (fun T => { (T.number 4).setReg rd (tokenOf 4 n) with
          port := { T.port with queue := T.port.queue ++ [⟨n, false, id⟩] } })))))

/-! ## The receiving port: remote writes -/

def State.put (s : State) (id : Nat) : Option RemoteWrite := Sparse.find s.puts id
def State.setPut (s : State) (id : Nat) (p : RemoteWrite) : State := { s with puts := Sparse.set s.puts id p }
def State.delPut (s : State) (id : Nat) : State := { s with puts := Sparse.del s.puts id }

/-- Bytes of a sum's footprint (R306). -/
def footprint (c len : Nat) : Nat := (1 + (if 2 ≤ c then ceilDiv c 2 else 0)) * len

/-- A range overlaps the footprint of an open sum of the tile (R307). -/
def State.hitsSum (s : State) (t off len : Nat) : Bool :=
  s.sums.any (fun c => c.tile == t && overlaps off len c.dstOff (footprint c.contribs c.len))

/-- The sender is in the window's sender set (Table 3-4): a tile, or the mover of a herd for a FORWARD row. -/
def Window.accepts (w : Window) (p : RemoteWrite) : Bool :=
  if p.row.isSome then w.moverOk else w.anyTile || decide (w.lo ≤ p.sender ∧ p.sender ≤ w.hi)

/-- The partition and job checks (R87, R304). -/
def State.sameJob (s : State) (p : RemoteWrite) : Bool :=
  s.samePart p.sender p.dst && p.job == (s.tile p.dst).port.job

/-- The first failing check of R87 for a remote write, as its STATUS. -/
def checkWrite (p : RemoteWrite) (s : State) : Option Nat :=
  let w := (s.tile p.dst).window p.window
  if !w.opened then some 8
  else if !within p.dstOff p.len w.base.toNat w.len || s.hitsSum p.dst p.dstOff p.len then some 9
  else if !w.accepts p then some 0xA
  else if !s.sameJob p then some 0xB
  else none

/-- A refused remote write is discarded and counted, and its sender is answered (R89). -/
def refuseWrite (id : Nat) (p : RemoteWrite) (status : Nat) (s : State) : State :=
  (s.updTile p.dst Tile.countReject).setPut id { p with phase := .answered status }

/-- The sending tile or, for a FORWARD row, herd. -/
def RemoteWrite.source (p : RemoteWrite) : Nat := if p.row.isSome then herdOf p.sender else p.sender
/-- SRC_KIND of its signal (Table 10-1). -/
def RemoteWrite.kind (p : RemoteWrite) : Nat := if p.row.isSome then 2 else 1

/-- REMOTE_WRITE_CHECK (R87, R89): a remote write's header reaches the check point. -/
def execRemoteWriteCheck (id : Nat) (s : State) : Out :=
  .next (match s.put id with
    | none => s
    | some p =>
      if p.sum || p.phase != .inNet then s
      else
        match checkWrite p s with
        | some st => refuseWrite id p st s
        | none =>
          let settled := ((s.tile p.dst).window p.window).settled
          let s := (s.updTile p.dst (fun T =>
            let w := T.window p.window
            T.setWindow p.window { w with inFlight := w.inFlight + 1 })).setPut id { p with phase := .accepted }
          if settled then arrivalTrap p.dst Code.trWindow (devAddr p.dst p.dstOff) p.source s else s)

/-- An accepted write of a window has ended. -/
def Tile.landed (T : Tile) (w : Nat) : Tile :=
  let x := T.window w
  T.setWindow w { x with inFlight := x.inFlight - 1 }

/-- A packet failed its check (R263): rewound, and after the third re-send its sender faults with MSG_CHECK. -/
def rewindPut (id : Nat) (p : RemoteWrite) (s : State) : State :=
  let s := s.updTile p.dst Tile.countRewind
  if p.resends < 3 then s.setPut id { p with resends := p.resends + 1 }
  else
    let s := (if p.phase = .accepted then s.updTile p.dst (fun T => T.landed p.window) else s).delPut id
    if p.live then
      faultTile p.sender (if p.row.isSome then 5 else 4) Code.msgCheck p.pc (devAddr p.dst p.dstOff) s
    else s

/-- The bytes of a remote write: a FORWARD's row, or the source range as it stands (R125). The network port's
uncorrectable read faults the context of the sender's partition (R72). -/
def putBytes (p : RemoteWrite) (s : State) : Except (TileFault × State) (List Byte × State) :=
  if p.row.isSome then .ok (p.data, s)
  else
    match readCheck p.sender p.src p.len s with
    | .error f => .error f
    | .ok s => .ok (s.herdBytes p.sender p.src p.len, s)

/-- A window's bound object is signalled by the tile's port (R88, R310). -/
def signalWindow (t w : Nat) (n : Nat) (kind id : Nat) (s : State) : State :=
  let x := (s.tile t).window w
  if x.syncEn then sendSync (s.tile t).port.job (.signal (x.obj t) n kind id (t, 0)) s else s

/-- REMOTE_WRITE_COMMIT (R88, R263): the data of an accepted write arrives, and its check passes or fails; passed, it is
written whole and counted, the object is signalled and the sender answered. -/
def execRemoteWriteCommit (id : Nat) (ok : Bool) (s : State) : Out :=
  .next (match s.put id with
    | none => s
    | some p =>
      if p.sum || p.phase != .accepted then s
      else if !ok then rewindPut id p s
      else
        match putBytes p s with
        | .error (f, s) =>
          contextFault (s.jobOfTile p.sender) f.code f.addr ((s.updTile p.dst (fun T => T.landed p.window)).delPut id)
        | .ok (bs, s) =>
          let s := s.writeMem (devAddr p.dst p.dstOff) bs
          let s := s.updTile p.dst (fun T => (T.countWindow p.window 1).landed p.window)
          let s := signalWindow p.dst p.window 1 p.kind p.source s
          (chargeBytes p.job p.len s).setPut id { p with phase := .answered 1 })

/-! ## In-flight sums (R305 to R310) -/

/-- The die of a herd (R17). -/
def State.dieOf (s : State) (h : Nat) : Nat := h / s.herdsPerDie

/-- The adder that can take a contribution (R305): its sum's open context, or a new one at the router or the hub. DESIGN CHOICE
(log 107): a sum whose context stands at the hub stays there, also where the router has a free context later, for a sum has one
context. -/
def takeSum (p : RemoteWrite) (c : Nat) (s : State) : Option (Option SumCtx × SumCtx) :=
  match s.sums.find? (fun x => x.tile == p.dst && x.window == p.window && x.dstOff == p.dstOff) with
  | some x => some (some x, x)
  | none =>
    let h := herdOf p.dst
    let new (hub : Bool) : SumCtx := ⟨p.dst, p.window, p.dstOff, p.len, c, [], [], hub⟩
    if (s.sums.filter (fun x => !x.hub && herdOf x.tile == h)).length < 16 then some (none, new false)
    else if (s.sums.filter (fun x => x.hub && s.dieOf (herdOf x.tile) == s.dieOf h)).length < 64 then
      some (none, new true)
    else none

/-- The checks of R87 with those R307 adds, as the STATUS of the first that fails; `old` is the open context. DESIGN CHOICE (log
107): in a window with ANY_TILE = 1, whose C is undefined (Table 3-14), no footprint is checked, so that the status is
WIN_SENDER. -/
def checkSum (p : RemoteWrite) (old : Option SumCtx) (s : State) : Option Nat :=
  let w := (s.tile p.dst).window p.window
  let c := w.contribs
  if !w.opened then some 8
  else if !within p.dstOff p.len w.base.toNat w.len
      || (!w.anyTile && !within p.dstOff (footprint c p.len) w.base.toNat w.len)
      || (match old with | some x => x.len != p.len | none => false) then some 9
  else if w.anyTile || c = 0 || 256 < c || !w.accepts p
      || (match old with | some x => x.accepted.contains (p.sender - w.lo) | none => false) then some 0xA
  else if !s.sameJob p then some 0xB
  else none

/-- The level of the root: ⌈log₂ C⌉. -/
def rootLevel (c : Nat) : Nat := if c ≤ 1 then 0 else Nat.log2 (c - 1) + 1
/-- The first leaf of a node. -/
def firstLeaf (l k : Nat) : Nat := k * 2 ^ l

/-- The offset of a staging slot of a sum (R306). -/
def SumCtx.slot (c : SumCtx) (j : Nat) : Nat := c.dstOff + (1 + j) * c.len

/-- Where a contribution came to rest (R308): held in a slot, or the root formed; with the held nodes left. -/
structure SumRest where
  root : Bool
  level : Nat
  index : Nat
  vals : List Nat
  held : List (Nat × Nat)
  deriving DecidableEq, Repr

/-- The binary32 elements of a byte range of the receiving herd. -/
def State.f32s (s : State) (t off len : Nat) : List Nat := (chunks 4 (s.herdBytes t off len)).map leNat

/-- The loop of R308 from node (l, k) with the values `vals`; `fuel` bounds the levels. -/
def sumLoop (s : State) (c : SumCtx) : Nat → Nat → Nat → List Nat → List (Nat × Nat) → SumRest
  | 0, l, k, vals, held => ⟨false, l, k, vals, (l, k) :: held⟩
  | fuel + 1, l, k, vals, held =>
    if l = rootLevel c.contribs then ⟨true, l, k, vals, held⟩
    else
      let sib := if k % 2 = 0 then k + 1 else k - 1
      if c.contribs ≤ firstLeaf l sib then sumLoop s c fuel (l + 1) (k / 2) vals held
      else if held.contains (l, sib) then
        let other := s.f32s c.tile (c.slot (firstLeaf l sib / 2)) c.len
        sumLoop s c fuel (l + 1) (k / 2) (List.zipWith add32 vals other) (held.filter (· != (l, sib)))
      else ⟨false, l, k, vals, (l, k) :: held⟩

/-- The bytes of binary32 elements. -/
def f32Bytes (l : List Nat) : List Byte := l.flatMap (leBytes 4)

/-- The staging slots of a sum whose root is written hold bytes that the spec does not give (R310). -/
def freeSlots (c : SumCtx) (s : State) : State :=
  let n := footprint c.contribs c.len - c.len
  { s.writeMem (devAddr c.tile (c.dstOff + c.len)) ((List.range n).map (fun i => Config.stagingByte s.free i)) with
    free := s.free + 1 }

/-- The open context of a sum is replaced, or closed. -/
def State.putSum (s : State) (c : SumCtx) (keep : Bool) : State :=
  let rest := s.sums.filter (fun x => !(x.tile == c.tile && x.window == c.window && x.dstOff == c.dstOff))
  { s with sums := if keep then rest ++ [c] else rest }

/-- A contribution passes its check: it counts as contributed to its context from now on, and the window's drain waits
for it (R307, R90). -/
def acceptSum (id : Nat) (p : RemoteWrite) (c : SumCtx) (s : State) : State :=
  let w := (s.tile p.dst).window p.window
  let c := { c with accepted := c.accepted ++ [p.sender - w.lo] }
  let s := s.updTile p.dst (fun T => T.setWindow p.window { T.window p.window with inFlight := w.inFlight + 1 })
  let s := (s.putSum c true).setPut id { p with phase := .accepted }
  if w.settled then arrivalTrap p.dst Code.trWindow (devAddr p.dst p.dstOff) p.sender s else s

/-- The values of an accepted contribution join the tree of its context (R308, R310). -/
def joinSum (id : Nat) (p : RemoteWrite) (c : SumCtx) (s : State) : State :=
  let s := s.updTile p.dst (fun T => T.landed p.window)
  match readChecks p.dst (c.held.map (fun n => (c.slot (firstLeaf n.1 n.2 / 2), c.len))) s with
  | .error (f, s) => contextFault (s.jobOfTile p.dst) f.code f.addr (s.delPut id)
  | .ok s =>
  match putBytes p s with
  | .error (f, s) => contextFault (s.jobOfTile p.sender) f.code f.addr (s.delPut id)
  | .ok (bs, s) =>
    let i := p.sender - ((s.tile p.dst).window p.window).lo
    let r := sumLoop s c 10 0 i ((chunks 4 bs).map leNat) c.held
    let s := (chargeBytes p.job p.len s).setPut id { p with phase := .answered 1 }
    if r.root then
      let s := s.writeMem (devAddr p.dst p.dstOff) (f32Bytes r.vals)
      let s := freeSlots c s
      let s := s.updTile p.dst (fun T => T.countWindow p.window c.contribs)
      (signalWindow p.dst p.window c.contribs 1 p.sender s).putSum c false
    else
      (s.writeMem (devAddr p.dst (c.slot (firstLeaf r.level r.index / 2))) (f32Bytes r.vals)).putSum
        { c with held := r.held } true

/-- SUM_CONTRIBUTION (R305 to R310, R263): a contribution that an adder can take is checked, and once accepted joins the
tree when its check code passes; where it fails, the packet is rewound and comes again under its acceptance. -/
def execSumContribution (id : Nat) (ok : Bool) (s : State) : Out :=
  .next (match s.put id with
    | none => s
    | some p =>
      if !p.sum then s
      else
        match p.phase, takeSum p ((s.tile p.dst).window p.window).contribs s with
        | .inNet, some (old, c) =>
          match checkSum p old s with
          | some st => refuseWrite id p st s
          | none =>
            let s := acceptSum id p c s
            let p := { p with phase := PutPhase.accepted }
            let c := { c with accepted := c.accepted ++ [p.sender - ((s.tile p.dst).window p.window).lo] }
            if ok then joinSum id p c s else rewindPut id p s
        | .accepted, some (_, c) => if ok then joinSum id p c s else rewindPut id p s
        | _, _ => s)

/-! ## The answer at the sender -/

/-- A remote write was refused under R89. -/
def refusal (status : Nat) : Bool := decide (8 ≤ status)

/-- The answer of a PUT reaches its sender: the status word, the token, and Tahr's TR_REFUSED (R89, R126, R273). -/
def putAnswered (id : Nat) (p : RemoteWrite) (status : Nat) (s : State) : State :=
  let s := s.delPut id
  if !p.live then s
  else
    let s := s.writeHerd p.sender p.statusOff 8 (statusWord status 0 0 false)
    let s := portDone p.sender id s
    if refusal status then arrivalTrap p.sender Code.trRefused (devAddr p.dst p.dstOff) p.sender s else s

/-- The answer of a FORWARD row reaches the mover; the transfer's STATUS is that of its first refused row (R337). -/
def rowAnswered (id : Nat) (p : RemoteWrite) (status : Nat) (s : State) : State :=
  let s := s.delPut id
  if !p.live then s
  else
    let s := s.updTile p.sender (fun T => { T with mover := T.mover.map (fun o =>
      if o.num = p.num then
        { o with rowsAnswered := o.rowsAnswered + 1,
                 refused := if refusal status then Sparse.set o.refused (p.row.getD 0) status else o.refused }
      else o) })
    if refusal status then arrivalTrap p.sender Code.trRefused (devAddr p.dst p.dstOff) p.source s else s

end Sys2Proof.Machine
end

