-- ==== Sys2Proof/Machine/Message.lean ====
section
/-! DEFINITION. Active messages (spec/09, spec/04 R128 to R132): SEND, the reservation and packet trips with their
answers, withdrawal, and the receiving program's HSET, RQHEAD, RQPOP and PORT. -/

namespace Sys2Proof.Machine

/-- A header that SEND may carry (R247). -/
def headerOk (h : Nat) (s : State) : Bool :=
  bits h 96 32 == 0 && bits h 49 15 == 0 && bits h 24 8 == 0 && bits h 14 2 == 0
    && decide (bits h 32 16 ≤ 4096) && bits h 32 16 % 8 == 0 && decide (bits h 0 14 < s.tileCount)

/-- A request of the tile to this receiver is outstanding or waits ahead (R259). -/
def State.requestAhead (s : State) (t dst : Nat) : Bool :=
  s.msgs.any (fun e => e.2.sender == t && e.2.dst == dst &&
    (e.2.send == .unsent || e.2.send == .requested || e.2.send == .retryWait || e.2.send == .orphaned))

/-- SEND (R128, R246, R247): the header is read and filled at issue; its reservation request goes out, or waits behind
an earlier one; a destination outside the partition is answered PARTITION. -/
def execSend (t : Nat) (rd ra rb rc : Reg) (s : State) : Out :=
  onTile t s (fun s => issue t [ra, rb, rc] s (fun s => portIssue t s (fun s =>
    let T := s.tile t
    let off := (T.reg ra).toNat
    let pay := (T.reg rb).toNat
    let st := (T.reg rc).toNat
    if 0x1000000 ≤ pay || 0x1000000 ≤ st then faultIssue t 4 ⟨Code.offsetHigh, 0⟩ s
    else
    match checkStruct t T off 16 16 with
    | some f => faultIssue t 4 f s
    | none =>
    match readCheck t off 16 s with
    | .error (f, s) => faultIssue t 4 f s
    | .ok s =>
    let h := s.herdNat t off 16
    let len := bits h 32 16
    match checkExts t T [⟨pay, len, 8, false⟩, ⟨st, 8, 8, true⟩] with
    | some f => faultIssue t 4 f s
    | none =>
    if !headerOk h s then faultIssue t 4 ⟨Code.msgArg, 0⟩ s
    else
      let n := T.count 4 + 1
      tahrReserve t 4 n [⟨off, 16, 1, false⟩] [⟨pay, len, 1, false⟩, ⟨st, 8, 1, true⟩] s (fun s =>
        let dst := bits h 0 14
        let m : Msg := {
          sender := t, num := n, pc := T.pc, hdr := h + t * 2 ^ 96 + T.port.job * 2 ^ 24, payload := pay, status := st }
        let m :=
          if !s.samePart t dst then { m.reply (.outcome 5 0 false) with send := .requested, recv := .closed }
          else if s.requestAhead t dst then m
          else { m with send := .requested, recv := .request }
        let id := s.nextId
        let s := { s with msgs := Sparse.set s.msgs id m, nextId := id + 1 }
        retire t (2 + T.tahrBeats) s (fun T => { (T.number 4).setReg rd (tokenOf 4 n) with
          port := { T.port with queue := T.port.queue ++ [⟨n, true, id⟩] } })))))

/-! ## The receiving port -/

/-- The discard status of Table 9-3, orders 1 to 3. -/
def discardStatus (m : Msg) (T : Tile) : Option Nat :=
  if m.job != T.port.job then some 4
  else match T.port.state with
    | .reset => some 3
    | .closed => some 2
    | .opened => none

/-- A request or packet is discarded and counted, and its sender told (R257, R270). -/
def discard (id : Nat) (m : Msg) (status : Nat) (s : State) : State :=
  (s.updTile m.dst (fun T => T.countOrphan 1)).setMsg id { m.reply (.outcome status 0 false) with recv := .closed }

/-- A handler's landing buffer (Table 9-2): offset and bytes. -/
def landBase (w : Word) : Nat := bits w.toNat 0 17 * 128
def landSize (w : Word) : Nat := 128 * 2 ^ bits w.toNat 17 4
def handlerDirect (w : Word) : Bool := bits w.toNat 30 2 == 1

/-- Direct delivery applies to a message (R253). -/
def directApplies (m : Msg) (T : Tile) : Bool :=
  let w := Sparse.get 0 T.port.handlers m.index
  handlerDirect w && !T.port.busy.contains m.index && decide (16 + m.length ≤ landSize w)

/-- A reservation request or withdrawal fails its check (R303, R263): it is sent again, and after three re-sends its sender
faults with MSG_CHECK. It names no destination byte: FAULT_ADDR is 0 (log 21). -/
def rewindRequest (id : Nat) (m : Msg) (s : State) : State :=
  let s := s.updTile m.dst Tile.countRewind
  if m.resends < 3 then s.setMsg id { m with resends := m.resends + 1 }
  else
    let sends := (s.tile m.sender).port.queue.any (fun o => o.id == id)
    let s := { s with msgs := Sparse.del s.msgs id }
    if sends then faultTile m.sender 4 Code.msgCheck m.pc 0 s else s

/-- RESERVATION_REQUEST (R257, R303): the request passes its check or not; passed, the checks and answers of Table 9-3. -/
def execReservationRequest (id : Nat) (ok : Bool) (s : State) : Out :=
  .next (match s.msg id with
    | none => s
    | some m =>
      if m.recv != .request then s
      else if !ok then rewindRequest id m s
      else
        let m := { m with resends := 0 }
        let r := m.dst
        let T := s.tile r
        match discardStatus m T with
        | some st => discard id m st s
        | none =>
          let w := Sparse.get 0 T.port.handlers m.index
          let m := { m with handler := w, hsets := Sparse.get 0 T.port.hsets m.index }
          let s := s.setMsg id m
          if directApplies m T then
            (s.updTile r (fun T => { T with port := { T.port with busy := T.port.busy ++ [m.index] } })).setMsg id
              { m.reply .grant with recv := .granted, landed := landBase w, direct := true }
          else
            let s := if T.port.waitList.isEmpty then s.updTile r Tile.ringStart else s
            match (if T.port.waitList.isEmpty then ringGrant r id s else none) with
            | some s => s
            | none =>
              if T.port.waitList.length < 32 then
                (s.updTile r (fun T => { T with port := { T.port with waitList := T.port.waitList ++ [id] } })).setMsg id
                  { m.reply .admitted with recv := .waitListed }
              else s.setMsg id { m.reply .retry with recv := .idle })

/-- MESSAGE_PACKET_ARRIVAL (R263, R264, R270): a granted packet is discarded at a port that no longer takes it, rewound
where its check fails, and written otherwise. One whose payload the sender's port cannot read (R72) faults the context, and its
credit stays taken until the teardown that follows (R256). -/
def execMessagePacketArrival (id : Nat) (ok : Bool) (s : State) : Out :=
  .next (match s.msg id with
    | none => s
    | some m =>
      if m.recv != .packet then s
      else
        let r := m.dst
        let T := s.tile r
        let lost := !m.direct && !T.port.ring.any (RingRec.isMsg id)
        let bad := (discardStatus m T).orElse (fun _ => if lost then some 3 else none)
        match bad with
        | some st => discard id m st (returnCredit r id s)
        | none =>
          if !ok then
            let s := s.updTile r Tile.countRewind
            if m.resends < 3 then s.setMsg id { m with recv := .rewound, resends := m.resends + 1 }
            else
              let s := { returnCredit r id s with msgs := Sparse.del (returnCredit r id s).msgs id }
              if (s.tile m.sender).port.queue.any (fun o => o.id == id) then
                faultTile m.sender 4 Code.msgCheck m.pc (devAddr r m.landed) s
              else s
          else
            match readCheck m.sender m.payload m.length s with
            | .error (f, s) =>
              contextFault (s.jobOfTile m.sender) f.code f.addr (s.setMsg id { m with recv := .granted })
            | .ok s =>
              let body := leBytes 16 m.hdr ++ s.herdBytes m.sender m.payload m.length
              let pad := if m.direct then [] else List.replicate (m.footprint - 16 - m.length) 0
              (s.writeMem (devAddr r m.landed) (body ++ pad)).setMsg id { m with recv := .landed })

/-- PACKET_RESEND (R263): the sender's port sends a rewound packet again under the same credit. -/
def execPacketResend (id : Nat) (s : State) : Out :=
  .next (match s.msg id with
    | none => s
    | some m => if m.recv = .rewound then s.setMsg id { m with recv := .packet } else s)

/-- DELIVERY_COMMIT (R253, R255, R263): the last word of a delivery has committed; it becomes visible, signals, and its
sender is answered. A record that a reset has removed meanwhile is discarded (R268, R270). -/
def execDeliveryCommit (id : Nat) (s : State) : Out :=
  .next (match s.msg id with
    | none => s
    | some m =>
      if m.recv != .landed then s
      else
        let r := m.dst
        let T := s.tile r
        if !m.direct && !T.port.ring.any (RingRec.isMsg id) then discard id m 3 s
        else
          let s := s.setMsg id { m.reply (.outcome 1 m.landed m.direct) with recv := .closed }
          let s := s.updTile r (fun T => { T with port := { T.port with
            ring := T.port.ring.map (fun e => if e.isMsg id then .msg id e.off e.size true else e) } })
          let s := if bit m.handler.toNat 29
            then sendSync T.port.job (.signal (herdObj (herdOf r) (bits m.handler.toNat 21 8)) 1 1 m.sender (r, 0)) s else s
          let s := chargeBytes m.job m.length s
          if m.direct && Sparse.get 0 T.port.hsets m.index != m.hsets then
            arrivalTrap r Code.trLanding (devAddr r m.landed) m.sender s
          else s)

/-- A withdrawal that fails its check is sent again; after three re-sends it is lost, which is reported as a hardware fault
of its sender's herd, since its tile has stopped or faulted already (R303, R55; log 95). -/
def rewindWithdrawal (id : Nat) (m : Msg) (s : State) : State :=
  let s := s.updTile m.dst Tile.countRewind
  if m.resends < 3 then s.setMsg id { m with resends := m.resends + 1 }
  else
    let s := postHw 0x05 (herdOf m.sender) false 0 (s.setMsg id { m with withdrawal := false })
    { s with msgs := s.msgs.filter (fun e => !(e.1 == id && e.2.gone)) }

/-- WITHDRAWAL (R561, R303): a request still waiting is removed; a granted one whose packet has not arrived gives its credit
back. -/
def execWithdrawal (id : Nat) (ok : Bool) (s : State) : Out :=
  .next (match s.msg id with
    | none => s
    | some m =>
      if !m.withdrawal then s
      else if !ok then rewindWithdrawal id m s
      else
        let r := m.dst
        let s :=
          if m.recv = .waitListed then
            ringAdvance r ((s.updTile r (fun T => { T with port := { T.port with
              waitList := T.port.waitList.filter (· != id) } })).setMsg id { m with recv := .closed, withdrawal := false })
          else if m.recv = .granted then
            returnCredit r id (s.setMsg id { m with recv := .closed, withdrawal := false })
          else s.setMsg id { m with withdrawal := false }
        { s with msgs := s.msgs.filter (fun e => !(e.1 == id && e.2.gone)) })

/-! ## The sending port -/

/-- The next request of a tile to a receiver goes out, in issue order (R259). -/
def sendNext (t dst : Nat) (s : State) : State :=
  if s.msgs.any (fun e => e.2.sender == t && e.2.dst == dst &&
      (e.2.send == .requested || e.2.send == .retryWait || e.2.send == .orphaned)) then s
  else
    match s.msgs.find? (fun e => e.2.sender == t && e.2.dst == dst && e.2.send == .unsent) with
    | none => s
    | some (id, m) => s.setMsg id { m with send := .requested, recv := .request }

/-- The outcome of a SEND: its status word is written and its token completes, unless the tile has ended it (R273,
R561). -/
def sendOutcome (id : Nat) (m : Msg) (status landed : Nat) (direct : Bool) (s : State) : State :=
  let s := { s with msgs := Sparse.del s.msgs id }
  let s :=
    if (s.tile m.sender).port.queue.any (fun o => o.id == id) then
      portDone m.sender id (s.writeHerd m.sender m.status 8 (statusWord status landed m.retries direct))
    else s
  sendNext m.sender m.dst s

/-- An answer reaches the sender's port, by where the message stands there (R259, R561). -/
def sendAnswered (id : Nat) (m : Msg) (a : PortAns) (s : State) : State :=
  let drop (m : Msg) : State :=
    if m.gone then { s with msgs := Sparse.del s.msgs id } else s.setMsg id m
  match m.send with
  | .requested =>
    match a with
    | .grant => sendNext m.sender m.dst (s.setMsg id { m with send := .packet, recv := .packet })
    | .admitted => sendNext m.sender m.dst (s.setMsg id { m with send := .admitted })
    | .retry => s.setMsg id { m with send := .retryWait, retries := m.retries + 1 }
    | .outcome st l d => sendOutcome id m st l d s
  | .admitted | .packet =>
    match a with
    | .grant => s.setMsg id { m with send := .packet, recv := .packet }
    | .outcome st l d => sendOutcome id m st l d s
    | _ => s.setMsg id m
  | .orphaned =>
    match a with
    | .grant | .admitted => sendNext m.sender m.dst (drop { m with send := .closed, withdrawal := true })
    | _ => sendNext m.sender m.dst { s with msgs := Sparse.del s.msgs id }
  | _ => drop m

/-- An answer that fails its check is sent again by the receiving port; after three re-sends it is lost, which is reported as
a hardware fault of that port's herd (R303; log 95). PARTITION is no packet and meets no check (R247, `execPortAnswer`). -/
def resendAnswer (id : Nat) (m : Msg) (s : State) : State :=
  if m.ansResends < 3 then s.setMsg id { m with ansResends := m.ansResends + 1 }
  else postHw 0x05 (herdOf m.dst) false 0 (s.setMsg id { m with ansResends := 0, answers := m.answers.drop 1 })
/-- As `resendAnswer`, for the outcome of a remote write. -/
def resendOutcome (id : Nat) (p : RemoteWrite) (s : State) : State :=
  if p.ansResends < 3 then s.setPut id { p with ansResends := p.ansResends + 1 }
  else postHw 0x05 (herdOf p.dst) false 0 (s.delPut id)

/-- PORT_ANSWER (R259, R273, R89, R303): the first answer on its way to the sender of a message arrives, or the outcome of a
remote write, and passes its check or not; PARTITION, which the sender's own port gives, has no check (R126, R247). -/
def execPortAnswer (id : Nat) (ok : Bool) (s : State) : Out :=
  .next (match s.msg id with
    | some m =>
      match m.answers with
      | a :: r => if ok || a.isLocal then sendAnswered id { m with answers := r, ansResends := 0 } a s else resendAnswer id m s
      | [] => s
    | none =>
      match s.put id with
      | some p =>
        match p.phase with
        | .answered st =>
          if !ok && st != 5 then resendOutcome id p s
          else if p.row.isSome then rowAnswered id p st s else putAnswered id p st s
        | _ => s
      | none => s)

/-- RETRY_TIMER (R259): at least 64 beats after a RETRY the request goes out again. -/
def execRetryTimer (id : Nat) (s : State) : Out :=
  .next (match s.msg id with
    | none => s
    | some m => if m.send = .retryWait then s.setMsg id { m with send := .requested, recv := .request } else s)

/-! ## The receiving program -/

/-- A handler word that HSET may write (R251). -/
def handlerOk (T : Tile) (w : Word) : Bool :=
  match bits w.toNat 30 2 with
  | 0 => bits w.toNat 0 21 == 0
  | 1 => decide (bits w.toNat 17 4 ≤ 6) && within (landBase w) (landSize w) T.regionBase T.regionSize
      && !overlaps (landBase w) (landSize w) T.codeBase T.codeSize
      && !overlaps (landBase w) (landSize w) T.ringBase T.ringSize
  | _ => false

/-- HSET (R129, R251, R252). -/
def execHset (t : Nat) (ra rb : Reg) (s : State) : Out :=
  onTile t s (fun s => issue t [ra, rb] s (fun s =>
    let T := s.tile t
    let i := (T.reg ra).toNat
    let w := T.reg rb
    if 255 < i || !handlerOk T w then faultIssue t 4 ⟨Code.msgArg, 0⟩ s
    else retire t 1 s (fun T => { T with port := { T.port with
      handlers := Sparse.set T.port.handlers i w
      busy := T.port.busy.filter (· != i)
      hsets := Sparse.set T.port.hsets i (Sparse.get 0 T.port.hsets i + 1) } })))

/-- RQHEAD (R130): the ring word of the oldest committed message. -/
def execRqhead (t : Nat) (rd : Reg) (s : State) : Out :=
  onTile t s (fun s => issue t [] s (fun s =>
    retire t 1 s (fun T => (T.setReg rd (match T.ringHead with
      | some k => word k.off
      | none => 0x80000000)).later rd 3)))

/-- RQPOP (R131, R267, R258): the oldest committed message leaves the ring, and waiting requests are granted. DESIGN CHOICE
(log 96): after a record that ends at the ring's end the read position is RING_BASE at once. -/
def execRqpop (t : Nat) (s : State) : Out :=
  onTile t s (fun s => issue t [] s (fun s =>
    match (s.tile t).ringHead with
    | none => faultIssue t 4 ⟨Code.msgArg, 0⟩ s
    | some k =>
      let s := retire t 1 s (fun T => { T with port := { T.port with
        readPos := if T.ringBase + T.ringSize ≤ k.off + k.size then T.ringBase else k.off + k.size
        ring := T.port.ring.drop 1 } })
      ringAdvance t s))

/-- PORT (R132, R270, Table 9-5a): RA = 1 opens the port, RA = 2 closes it. -/
def execPort (t : Nat) (ra : Reg) (s : State) : Out :=
  onTile t s (fun s => issue t [ra] s (fun s =>
    match ((s.tile t).reg ra).toNat with
    | 1 => retire t 1 s (fun T => { T with port := { T.port with state := .opened } })
    | 2 => closePort t (retire t 1 s id)
    | _ => faultIssue t 4 ⟨Code.msgArg, 0⟩ s))

end Sys2Proof.Machine
end

