-- ==== Sys2Proof/Machine/Mover.lean ====
section
/-! DEFINITION. Herd movers (spec/12 sections 12.4 to 12.6): MOVE and its checks, a transfer's blocks at the memory
controllers, on their way back and at the host window, FORWARD's rows, and completion. -/

namespace Sys2Proof.Machine

/-- A descriptor from its 512 bits (Table 12-6). -/
def MvDesc.ofNat (n : Nat) : MvDesc where
  kind := bits n 0 4
  sig := bit n 4
  dstTile := bits n 96 14
  window := bits n 128 3
  link := bits n 144 7
  redEntry := bits n 160 6
  contrib := bits n 176 16
  rows := bits n 192 16
  rowBytes := bits n 224 24
  loc := bits n 256 24
  locPitch := bits n 288 24
  addr := bits n 320 64
  addrPitch := bits n 384 32
  syncRef := word (bits n 416 32)
  status := bits n 448 24
  reservedOk := bits n 472 40 == 0 && bits n 372 12 == 0 && bits n 312 8 == 0 && bits n 280 8 == 0 && bits n 248 8 == 0
    && bits n 208 16 == 0 && bits n 166 10 == 0 && bits n 151 9 == 0 && bits n 131 13 == 0 && bits n 110 18 == 0
    && bits n 5 91 == 0

/-- An extent's length from its first byte to the end of its last row, empty for no rows (R334). -/
def rowsSpan (rows pitch rowBytes : Nat) : Nat := if rows = 0 then 0 else (rows - 1) * pitch + rowBytes
def MvDesc.locSpan (d : MvDesc) : Nat := rowsSpan d.rows d.locPitch d.rowBytes
def MvDesc.memSpan (d : MvDesc) : Nat := rowsSpan d.rows d.addrPitch d.rowBytes

/-- The herd-side extents: the status word of a FORWARD, else LOCAL's rows, written by a READ (an unlisted KIND counts as
READ, R334). -/
def MvDesc.herdExts (d : MvDesc) : List Ext :=
  if d.kind = 2 then [⟨d.status, 8, 1, true⟩]
  else [⟨d.loc, d.locSpan, 1, d.kind != 1 && d.kind != 3 && d.kind != 4⟩]

/-- The pitch of the destination side (R333). -/
def MvDesc.dstPitch (d : MvDesc) : Nat := if d.kind = 0 ∨ d.kind = 2 then d.locPitch else d.addrPitch

/-- R333 holds of a descriptor: no MV_FIELD. DESIGN CHOICE (log 104): so does a FORWARD's STATUS offset that is no multiple of 8,
which R333 and Table 12-8 name no check for. -/
def MvDesc.ok (d : MvDesc) (s : State) : Bool :=
  d.reservedOk && decide (d.kind ≤ 4) && decide (1 ≤ d.rows) && decide (64 ≤ d.rowBytes) && d.rowBytes % 64 == 0
    && d.loc % 64 == 0 && d.locPitch % 64 == 0 && d.addr % 64 == 0 && d.addrPitch % 64 == 0
    && (d.rows == 1 || decide (d.rowBytes ≤ d.dstPitch))
    && (d.kind != 2 || (decide (d.rowBytes ≤ 65536) && decide (d.dstTile < s.tileCount)
          && decide (d.loc + d.locSpan ≤ 0x1000000) && d.status % 8 == 0))
    && (d.kind != 4 || decide (d.link ≤ 95))

/-- Check 5 of Table 12-8: the memory-side extent, or the link. -/
def MvDesc.refused (d : MvDesc) (t : Nat) (s : State) : Bool :=
  if d.kind = 4 then !(s.part (s.partOf t)).links.contains d.link
  else if d.kind = 3 && !within d.addr d.memSpan hbmBase hbmSize then true
  else !s.mayReach (s.jobOfTile t) d.addr d.memSpan

/-- The checks of Table 12-8, after the descriptor's own extent, in order. A refusal reports the first byte of the memory-side
extent, whichever byte of it is refused, and 0 for a LINK_WRITE's link (log 78). -/
def checkMove (t : Nat) (d : MvDesc) (s : State) : Option TileFault :=
  match checkExts t (s.tile t) d.herdExts with
  | some f => some f
  | none =>
    if !d.ok s then some ⟨Code.mvField, 0⟩
    else if d.refused t s then some ⟨Code.memRefused, if d.kind = 4 then 0 else d.addr⟩
    else if d.sig && (s.refObj (s.partOf t) d.syncRef).isNone then some ⟨Code.syncScope, 0⟩
    else if d.kind = 4 && ((s.link d.link).run == .failed || (s.link d.link).run == .disabled
        || (s.link d.link).run == .closing) then some ⟨Code.linkDown, 0⟩
    else none

/-! ## A transfer's blocks -/

/-- 64-byte blocks of a row, and of a transfer. -/
def MvDesc.rowBlocks (d : MvDesc) : Nat := d.rowBytes / 64
def MvDesc.blocks (d : MvDesc) : Nat := d.rows * d.rowBlocks
/-- The memory-side address and the herd-side offset of block `n`. -/
def MvDesc.memAt (d : MvDesc) (n : Nat) : Nat := d.addr + n / d.rowBlocks * d.addrPitch + n % d.rowBlocks * 64
def MvDesc.locAt (d : MvDesc) (n : Nat) : Nat := d.loc + n / d.rowBlocks * d.locPitch + n % d.rowBlocks * 64

/-- A transfer's extents as (space, first byte, length, destination) (R335): 0 the herd's memory, 1 the module's memory,
2 + k the memory at the far end of link k. DESIGN CHOICE (log 104): the far end's bytes are another memory than the module's own,
whatever their addresses, so a LINK_WRITE's destination meets only LINK_WRITEs of the same link. -/
def MvDesc.sides (d : MvDesc) : List (Nat × Nat × Nat × Bool) :=
  match d.kind with
  | 0 => [(0, d.loc, d.locSpan, true), (1, d.addr, d.memSpan, false)]
  | 1 => [(0, d.loc, d.locSpan, false), (1, d.addr, d.memSpan, true)]
  | 2 => [(0, d.status, 8, true), (1, d.addr, d.memSpan, false)]
  | 3 => [(0, d.loc, d.locSpan, false), (1, d.addr, d.memSpan, true)]
  | _ => [(0, d.loc, d.locSpan, false), (2 + d.link, d.addr, d.memSpan, true)]

/-- Two transfers conflict: a destination of one overlaps any extent of the other (R335). -/
def MvDesc.conflicts (a b : MvDesc) : Bool :=
  a.sides.any (fun x => b.sides.any (fun y =>
    x.1 == y.1 && (x.2.2.2 || y.2.2.2) && overlaps x.2.1 x.2.2.1 y.2.1 y.2.2.1))

/-- The transfers of a queue that have started: in issue order, as long as none conflicts with an earlier one (R335). -/
def startedMoves : List MoverOp → List MoverOp → List MoverOp
  | _, [] => []
  | before, o :: r => if before.any (fun x => x.desc.conflicts o.desc) then [] else o :: startedMoves (before ++ [o]) r
/-- A transfer of the tile has started. -/
def Tile.moverStarted (T : Tile) (o : MoverOp) : Bool := (startedMoves [] T.mover).any (fun x => x.num == o.num)

/-- Change a transfer. -/
def updMover (t n : Nat) (f : MoverOp → MoverOp) (s : State) : State :=
  s.updTile t (fun T => { T with mover := T.mover.map (fun o => if o.num = n then f o else o) })

/-- A transfer that runs faults: its tile with UNIT 0x05 at the MOVE (Table 12-9). -/
def moverFault (t : Nat) (o : MoverOp) (code addr : Nat) (s : State) : State := faultTile t 5 code o.pc addr s

/-! ## Crossings (R49, R57, R331, R332) -/

/-- The next block that a started transfer places, blocks read again first, then in row order (R328, R332). -/
def MoverOp.nextBlock (o : MoverOp) : Option Nat :=
  if o.outside then none
  else match o.again with
    | n :: _ => some n
    | [] => if o.next < o.desc.blocks then some o.next else none
/-- The crossing into a link's region has room for `n` more program-lane blocks, and the link carries job traffic (R49, R408). -/
def State.linkRoom (s : State) (k n : Nat) : Bool :=
  !(s.link k).miscabled && decide (((s.link k).waiting.filter (fun b => b.lane == 0)).length + n ≤ 32)
/-- The first started transfer of a tile with a block to place; one onto a link that has no room stands aside. -/
def State.nextMove (s : State) (t : Nat) : Option (MoverOp × Nat) :=
  (startedMoves [] (s.tile t).mover).findSome? (fun o => o.nextBlock.bind (fun n =>
    if o.desc.kind = 4 && !s.linkRoom o.desc.link (if n = 0 then 2 else 1) then none else some (o, n)))
/-- Blocks that a herd's mover has outstanding (R331). -/
def State.outstandingBlocks (s : State) (h : Nat) : Nat :=
  (List.range 32).foldl (fun a i => a + ((s.tile (h * 32 + i)).mover.foldl (fun b o => b + o.placed.length) 0)) 0
/-- The tile-in-herd that the mover of a herd serves next: the one whose turn it is while its piece lasts, else the first
after it in rotation with a block to place (R331). -/
def State.moverPick (s : State) (h : Nat) : Option (Nat × Nat) :=
  let turn : MoverTurn := Sparse.get {} s.turns h
  let wants (i : Nat) : Bool := (s.nextMove (h * 32 + i)).isSome
  if 0 < turn.left && wants turn.slot then some (turn.slot, turn.left)
  else (((List.range 32).map (fun i => (turn.slot + 1 + i) % 32)).find? wants).map (fun i => (i, 64))

/-- A link block of a LINK_WRITE goes onto its link (R409): up to four 64-byte blocks from block `n` on as they stand, behind the
transfer's header where `n` is the first, under the link step at issue. A block that cannot be read faults the context (R72), and
nothing more goes out. -/
def placeLink (t : Nat) (o : MoverOp) (n : Nat) (s : State) : State :=
  let d := o.desc
  let ns := (List.range (min 4 (d.blocks - n))).map (n + ·)
  match readChecks t (ns.map (fun i => (d.locAt i, 64))) s with
  | .error (f, s) => contextFault (s.jobOfTile t) f.code f.addr (updMover t o.num (fun o => { o with next := d.blocks }) s)
  | .ok s =>
    let x := if n = 0 then (s.link d.link).nextXfer else o.xfer
    let last := n + ns.length == d.blocks
    let s := if n = 0 then
        pushOut d.link 0 1 o.linkStep (.write d.link x o.linkStep (s.link d.link).bindTag d.addr d.addrPitch d.rows d.rowBytes)
          (s.updLink d.link (fun k => { k with nextXfer := (x + 1) % 2 ^ 24 }))
      else s
    let s := pushOut d.link 0 1 o.linkStep (.data d.link x last (ns.flatMap (fun i => s.herdBytes t (d.locAt i) 64))) s
    updMover t o.num (fun o => { o with next := n + ns.length, sentAll := last, xfer := x }) s

/-- A block of a memory transfer goes into its crossing. -/
def placeMem (t : Nat) (o : MoverOp) (n : Nat) (s : State) : State :=
  let a := o.desc.memAt n
  let b : XBlock := ⟨t, o.num, n, a, o.desc.kind == 1 || o.desc.kind == 3⟩
  updMover t o.num (fun o => { o with
    placed := o.placed ++ [n], again := o.again.drop 1, next := if o.again.isEmpty then n + 1 else o.next })
    (s.updCrossing (s.crossingOf a) (fun x => { x with out := x.out ++ [b] }))

/-- A herd's mover places blocks into crossings while it holds credits: at most 256 of memory outstanding, 32 in a crossing; with no
credit for its next block it waits, parked (R49, R56, R57, R331). `fuel` bounds the blocks of one call. -/
def placeBlocks (h : Nat) : Nat → State → State
  | 0, s => s
  | fuel + 1, s =>
    match s.moverPick h with
    | none => s
    | some (i, left) =>
      let t := h * 32 + i
      let turn (n : Nat) (s : State) : State := { s with turns := Sparse.set s.turns h (⟨i, left - n⟩ : MoverTurn) }
      match s.nextMove t with
      | none => s
      | some (o, n) =>
        if o.desc.kind = 4 then placeBlocks h fuel (turn 4 (placeLink t o n s))
        else if 256 ≤ s.outstandingBlocks h || 32 ≤ (s.crossing (s.crossingOf (o.desc.memAt n))).out.length then s
        else placeBlocks h fuel (turn 1 (placeMem t o n s))

/-- A herd's mover places what it can. -/
def moverRuns (h : Nat) (s : State) : State := placeBlocks h 256 s
/-- The movers of the tiles with a LINK_WRITE on link `k` place what the link now has room for. -/
def linkRuns (k : Nat) (s : State) : State := (s.linkWrites k).foldl (fun s e => moverRuns (herdOf e.1) s) s

/-- The entry of a block in the outward direction of its crossing; none where the mover has not placed it, or where an
earlier access to the same 64 bytes stands before it (R330). -/
def State.atUnit (s : State) (t : Nat) (o : MoverOp) (n : Nat) : Option XBlock :=
  let out := (s.crossing (s.crossingOf (o.desc.memAt n))).out
  let mine (b : XBlock) : Bool := b.tile == t && b.num == o.num && b.block == n
  match out.find? mine with
  | none => none
  | some b => if (out.takeWhile (fun x => !mine x)).any (fun x => x.addr == b.addr) then none else some b
/-- An entry frees. -/
def dropOut (b : XBlock) (s : State) : State :=
  s.updCrossing (s.crossingOf b.addr) (fun x => { x with out := x.out.filter (fun y => y != b) })
def dropBack (t num n a : Nat) (s : State) : State :=
  s.updCrossing (s.crossingOf a) (fun x =>
    { x with back := x.back.filter (fun b => !(b.tile == t && b.num == num && b.block == n)) })

/-- A CXL.cache request that stands open at the host (R340): RdCurr, or ItoMWr, of a host physical line. -/
structure HostRequest where
  itoMWr : Bool
  addr : Nat
  deriving DecidableEq, Repr
/-- The requests open at the host: one for each entry of the CXL crossing. -/
def State.hostRequests (s : State) : List HostRequest :=
  (s.crossing 32).out.map (fun b => ⟨b.write, b.addr - hostBase⟩)

/-- MOVE (R123, R332 to R335). -/
def execMove (t : Nat) (rd ra : Reg) (s : State) : Out :=
  onTile t s (fun s => issue t [ra] s (fun s =>
    let T := s.tile t
    if unitDepth 5 ≤ T.depth 5 then parkTile t (.full 5) s
    else
      let off := (T.reg ra).toNat
      match checkStruct t T off 64 64 with
      | some f => faultIssue t 5 f s
      | none =>
      match readCheck t off 64 s with
      | .error (f, s) => faultIssue t 5 f s
      | .ok s =>
      let d := MvDesc.ofNat (s.herdNat t off 64)
      match checkMove t d s with
      | some f => faultIssue t 5 f s
      | none =>
        let n := T.count 5 + 1
        let own := (tahrOwn T Code.trKudu (kuduTrap s (s.jobOfTile t) d)).map (fun a => (⟨Code.trKudu, a, 0⟩ : TahrHit))
        tahrReserveOwn t 5 n [⟨off, 64, 1, false⟩] d.herdExts own s (fun s =>
          let o : MoverOp := { num := n, pc := T.pc, desc := d, outside := d.kind == 2 && !s.samePart t d.dstTile,
                               linkStep := (s.job (s.jobOfTile t)).linkStep % 65536 }
          let s := retire t (2 + T.tahrBeats) s (fun T =>
            { (T.number 5).setReg rd (tokenOf 5 n) with mover := T.mover ++ [o] })
          moverRuns (herdOf t) s)))

/-- A block failed its check (R328): CRC_RETRY and another try, a write's in its place and a read's as a new request, or
after the third retry CRC_FAIL and MEM_CRC. Nothing is sent again to a channel that is not enabled, which refuses it
(R325, R560). -/
def blockRetry (t : Nat) (o : MoverOp) (n : Nat) (s : State) : State :=
  let a := o.desc.memAt n
  let u := s.unitOf a
  let k := Sparse.get 0 o.retries n
  if (s.mc u).run != .enabled then moverFault t o Code.memRefused a s
  else if k < 3 then
    let read := (Sparse.find o.answers n).isSome
    updMover t o.num (fun o => { o with
      retries := Sparse.set o.retries n (k + 1), answers := Sparse.del o.answers n
      again := if read then o.again ++ [n] else o.again
      placed := if read then o.placed.filter (· != n) else o.placed }) (s.updMc u Mc.countRetry)
  else moverFault t o Code.memCrc a (s.updMc u Mc.countFail)

/-- Block `n` of a transfer has been delivered to its destination (R345, R488). -/
def blockDone (t : Nat) (o : MoverOp) (n : Nat) (s : State) : State :=
  chargeBytes (s.jobOfTile t) 64 (updMover t o.num (fun o => { o with
    done := Sparse.set o.done n true, answers := Sparse.del o.answers n, placed := o.placed.filter (· != n) }) s)

/-- A transfer's block stands before its unit: the mover first places what it can. -/
def withBlock (t num n : Nat) (s : State) (k : MoverOp → XBlock → State → State) : State :=
  let s := moverRuns (herdOf t) s
  match (s.tile t).moverOp num with
  | none => s
  | some o =>
    match s.atUnit t o n with
    | none => s
    | some b => moverRuns (herdOf t) (k o b s)

/-- MEM_BLOCK_REQUEST (R49, R325, R327 to R330): a controller takes block `n` of a transfer out of its crossing and performs
the read or write; `found` says what it finds. A read waits for a free entry of the way back; a commit request stays in its
entry until its Kudu accepts or defers it (R57). The access counts for the tile's job (R479). -/
def execMemBlockRequest (t num n : Nat) (found : Dram) (s : State) : Out :=
  onTile t s (fun s => withBlock t num n s (fun o b s =>
    let d := o.desc
    let a := b.addr
    let u := s.unitOf a
    if 2 < d.kind || s.tierOf a 64 == some .host || s.asks b then s
    else if (s.mc u).run != .enabled then moverFault t o Code.memRefused a s
    else if b.write then
      let s := s.noteBlocks (s.jobOfTile t) (decide (ddrBase ≤ a)) 1
      match found with
      | .crcFail => blockRetry t o n s
      | _ =>
        match readCheck t (d.locAt n) 64 s with
        | .error (f, s) => contextFault (s.jobOfTile t) f.code f.addr s
        | .ok s =>
          let bs := s.herdBytes t (d.locAt n) 64
          if s.isRequest a then noteRequest a (some (t, num, n)) (s.writeMem a bs)
          else blockDone t o n ((dropOut b s).writeMem a bs)
    else
      let noted := s.noteBlocks (s.jobOfTile t) (decide (ddrBase ≤ a)) 1
      match s.dram a found with
      | .uncorrectable => moverFault t o Code.dramUncorrectable a (noteUe u 0 a noted)
      | .crcFail => s
      | found =>
        if 32 ≤ (s.crossing u).back.length then s
        else
          let s := noted
          let s := if found = .corrected then s.updMc u Mc.countCe else s
          let s := (dropOut b s).updCrossing u (fun x => { x with back := x.back ++ [b] })
          updMover t num (fun o => { o with answers := Sparse.set o.answers n (readBytes s.mem a 64) }) s))

/-- A commit request of share `k` leaves the crossing entries that it came in: accepted, or deferred in the Kudu's queue (R57). -/
def dropAskers (k : Nat) (s : State) : State :=
  (s.com k).askers.foldl (fun s a => s.updCrossing (k / 64) (fun x => { x with
    out := x.out.filter (fun b => !(b.tile == a.1 && b.num == a.2.1 && b.block == a.2.2)) })) s
/-- A commit request of share `k` is answered: the transfer blocks that it came with are done (R57). -/
def answerRequest (k : Nat) (s : State) : State :=
  let l := (s.com k).askers
  l.foldl (fun s a =>
    match (s.tile a.1).moverOp a.2.1 with
    | some o => moverRuns (herdOf a.1) (blockDone a.1 o a.2.2 s)
    | none => s) ((dropAskers k s).updCom k (fun c => { c with askers := [] }))

/-- FORWARD rows whose blocks are all here go out as remote writes, in order (Table 12-7, R337). -/
def sendRows (t num : Nat) : Nat → State → State
  | 0, s => s
  | fuel + 1, s =>
    match (s.tile t).moverOp num with
    | none => s
    | some o =>
      let d := o.desc
      let r := o.rowsSent
      let ns := (List.range d.rowBlocks).map (fun i => r * d.rowBlocks + i)
      if r < d.rows && ns.all (fun n => (Sparse.find o.buffered n).isSome) then
        let p : RemoteWrite := {
          sender := t, num := num, pc := o.pc, row := some r, job := (s.tile t).port.job, dst := d.dstTile
          window := d.window, dstOff := d.loc + r * d.locPitch, len := d.rowBytes, src := 0, sum := false, statusOff := 0
          data := ns.flatMap (fun n => Sparse.get [] o.buffered n) }
        let s := { s with puts := Sparse.set s.puts s.nextId p, nextId := s.nextId + 1 }
        sendRows t num fuel (updMover t num (fun o => { o with rowsSent := r + 1 }) s)
      else s

/-- A block of read data reaches its destination: herd memory for a READ, the row's buffer for a FORWARD. -/
def deliverBlock (t : Nat) (o : MoverOp) (n : Nat) (bs : List Byte) (s : State) : State :=
  if o.desc.kind = 0 then blockDone t o n (s.writeMem (devAddr t (o.desc.locAt n)) bs)
  else
    sendRows t o.num o.desc.rows (updMover t o.num (fun o => { o with
      buffered := Sparse.set o.buffered n bs, answers := Sparse.del o.answers n, placed := o.placed.filter (· != n) }) s)

/-- MEM_BLOCK_READ_ANSWER (R327, R328): a block read comes back over its crossing, and its check passes or fails. -/
def execMemBlockReadAnswer (t num n : Nat) (crcOk : Bool) (s : State) : Out :=
  onTile t s (fun s =>
    match (s.tile t).moverOp num with
    | none => s
    | some o =>
      match Sparse.find o.answers n with
      | none => s
      | some bs =>
        let s := dropBack t num n (o.desc.memAt n) s
        moverRuns (herdOf t) (if crcOk then deliverBlock t o n bs s else blockRetry t o n s))

/-- HOST_WINDOW_RESPONSE (R340, R341): the host answers the open request of block `n` of a transfer: with its data for a
read, with completion for a write, or with an error. No answer comes while the port is down (R550). -/
def execHostWindowResponse (t num n : Nat) (error : Bool) (data : List Byte) (s : State) : Out :=
  onTile t s (fun s => withBlock t num n s (fun o b s =>
    let d := o.desc
    if s.tierOf b.addr 64 != some .host || !s.power.reaches then s
    else if error then moverFault t o Code.hostError b.addr s
    else if b.write then
      match readCheck t (d.locAt n) 64 s with
      | .error (f, s) => contextFault (s.jobOfTile t) f.code f.addr s
      | .ok s =>
        let bs := s.herdBytes t (d.locAt n) 64
        blockDone t o n ((dropOut b s).writeMem b.addr bs)
    else deliverBlock t o n ((data ++ List.replicate 64 0).take 64) (dropOut b s)))

/-- CXL_COMPLETION_TIMEOUT (R57, R341): the host never answered the open request of block `n` of a transfer. -/
def execCxlCompletionTimeout (t num n : Nat) (s : State) : Out :=
  onTile t s (fun s => withBlock t num n s (fun o b s =>
    if s.tierOf b.addr 64 != some .host then s else moverFault t o Code.hostError b.addr s))

/-- The completion condition of Table 12-10. -/
def MoverOp.finished (o : MoverOp) : Bool :=
  match o.desc.kind with
  | 2 => o.outside || o.rowsAnswered == o.desc.rows
  | 4 => o.answeredOk
  | _ => o.done.length == o.desc.blocks

/-- The STATUS of a FORWARD: not sent, all rows accepted, or the status of the first row refused (R334, R337). -/
def MoverOp.status (o : MoverOp) : Nat :=
  if o.outside then 5 else (o.refused.map (·.2)).headD 1

/-- MOVER_TRANSFER_COMPLETE (R336 to R338): a transfer whose condition holds writes a FORWARD's status word, signals
SYNC_REF, and its token completes. -/
def execMoverTransferComplete (t num : Nat) (s : State) : Out :=
  onTile t s (fun s =>
    match (s.tile t).moverOp num with
    | none => s
    | some o =>
      if !(s.tile t).moverStarted o || !o.finished then s
      else
        let s := if o.desc.kind = 2 then s.writeHerd t o.desc.status 8 (statusWord o.status 0 0 false) else s
        let s := s.updTile t (fun T => { T with mover := T.mover.filter (fun x => x.num != num) })
        let s := if o.desc.sig then signalRef (s.tile t).port.job (s.partOf t) o.desc.syncRef 2 (herdOf t) (herdOf t, 1) s else s
        moverRuns (herdOf t) (wake t s))

end Sys2Proof.Machine
end

