-- ==== Sys2Proof/Machine/Sync.lean ====
section
/-! DEFINITION. Synchronisation (spec/10, spec/04 R133 to R137): SIG, ARRIVE, SWAIT, SREAD, SCONF, and their operations'
steps at the object and back at the tile. -/

namespace Sys2Proof.Machine

/-- An instruction on the object that RA names: SYNC_SCOPE where the reference names none (R133). -/
def syncIssue (t : Nat) (ra : Reg) (uses : List Reg) (s : State) (k : Nat → State → State) : State :=
  issue t (ra :: uses) s (fun s =>
    match s.refObj (s.partOf t) ((s.tile t).reg ra) with
    | none => faultIssue t 0 ⟨Code.syncScope, 0⟩ s
    | some o => k o s)

/-- The sync reference of an object (Table 4-9). -/
def objRef (o : Nat) : Word :=
  if o < 0x20000 then word (o / 256 * 2 ^ 16 + o % 256) else word (2 ^ 31 + (o - 0x20000))

/-- SIG (R134): a posted signal of RB, signed. -/
def execSig (t : Nat) (ra rb : Reg) (s : State) : Out :=
  onTile t s (fun s => syncIssue t ra [rb] s (fun o s =>
    let v := ((s.tile t).reg rb).toInt
    sendSync (s.tile t).port.job (.signal o v 1 t (t, 0)) (retire t 1 s id)))

/-- Open windows of a tile that arrives at its job's closing object are receiving again (R464). -/
def Tile.receiving (T : Tile) : Tile := { T with windows := Sparse.mapVals (fun _ w => { w with settled := false }) T.windows }

/-- The first unused arrival-table entry. -/
def Tile.freeArrival (T : Tile) : Option Nat := (List.range 8).find? (fun (i : Nat) => (Sparse.find T.arrivals i).isNone)

/-- The object closes the job of the tile (R277). -/
def State.closes (s : State) (t o : Nat) : Bool :=
  let j := s.jobOfTile t
  j != 0 && s.closing j == some o

/-- The router of a unit, by its row and column in the mesh (R298): a herd's at its physical site (R16, R19), a hub's at row 3
or 12 and column 6 or 19 (R299). Sites are numbered die × 104 + row × 13 + column within the die (log 93). -/
def State.routerOf (s : State) (u : Nat) : Nat × Nat :=
  if u < 0x8000 then
    let site := s.boot.sites.getD u 0
    (site / 104 / 2 * 8 + site % 104 / 13, site / 104 % 2 * 13 + site % 104 % 13)
  else (if (u - 0x8000) / 2 = 0 then 3 else 12, if (u - 0x8000) % 2 = 0 then 6 else 19)
/-- The distance of two rows or columns. -/
def distance (a b : Nat) : Nat := max a b - min a b
/-- The fewest beats of a packet without payload between two units (R301): along the row and then along the column (R299), with
a die bridge where the path crosses from column 12 to 13 or from row 7 to 8 (R298). -/
def State.transit (s : State) (u v : Nat) : Nat :=
  let a := s.routerOf u
  let b := s.routerOf v
  3 + 2 * (distance a.1 b.1 + distance a.2 b.2)
    + 4 * ((if a.1 / 8 = b.1 / 8 then 0 else 1) + (if a.2 / 13 = b.2 / 13 then 0 else 1))
/-- The beats that an object of another herd or of the device adds to an ARRIVE or SREAD (Table 4-11, R301): the way there
and the way back (log 93). -/
def State.farBeats (s : State) (t o : Nat) : Nat :=
  if objUnit o = herdOf t then 0 else 2 * s.transit (herdOf t) (objUnit o)

/-- ARRIVE (R134, R290): waits while an earlier one at the reference awaits its answer; reserves an entry for a first
arrival; SYNC_TABLE at a ninth object. RD awaits the answer, at least 6 beats and the network transit (Table 4-11). -/
def execArrive (t : Nat) (rd ra : Reg) (s : State) : Out :=
  onTile t s (fun s => syncIssue t ra [] s (fun o s =>
    let T := s.tile t
    let ref := T.reg ra
    let send (first : Bool) (round : Nat) (arr : Sparse ArrEntry) : State :=
      let closes := s.closes t o
      sendSync T.port.job (.arrival t o ref rd.val T.pc first round) (retire t 1 s (fun T =>
        let T := { T with arrivals := arr, awaits := if rd = 0 then T.awaits else T.awaits ++ [({ reg := rd.val, id := s.nextId } : Await)] }
        (if closes then T.receiving else T).later rd (6 + s.farBeats t o)))
    match T.arrivals.find? (fun e => e.2.ref == ref) with
    | some (i, e) =>
      if e.waiting then s
      else send false ((e.round + 1) % 256) (Sparse.set T.arrivals i { e with waiting := true })
    | none =>
      match T.freeArrival with
      | none => faultIssue t 0 ⟨Code.syncTable, 0⟩ s
      | some i => send true 0 (Sparse.set T.arrivals i { ref := ref, waiting := true })))

/-- A release of `o` is observed (R292, R464): entries older than GEN retire; windows bound to `o`, and all where it is
the closing object, become settled. -/
def observeGen (t o : Nat) (released : Bool) (s : State) : State :=
  let g := (s.sync o).gen
  let closes := s.closes t o
  s.updTile t (fun T =>
    let T := { T.retireArrival (objRef o) g with seenGen := Sparse.set T.seenGen o g }
    if released then
      { T with windows := Sparse.mapVals (fun _ w =>
          if w.opened && (closes || (w.syncEn && w.obj t == o)) then { w with settled := true } else w) T.windows }
    else T)

/-- SWAIT (R135): a wait for a generation newer than RB goes to the object; the tile issues nothing until it is taken. -/
def execSwait (t : Nat) (ra rb : Reg) (s : State) : Out :=
  onTile t s (fun s => syncIssue t ra [rb] s (fun o s =>
    let g := ((s.tile t).reg rb).toNat % 256
    sendSync (s.tile t).port.job (.wait t o g) (s.updTile t (fun T => { T with syncTravel := true }))))

/-- SREAD (R136): the object's word into RD, and what the tile thereby observes (R292, R464); the object settles behind the
read, as behind any operation (R286, R288). The word is read with the request, for no other command of this tile can tell
the way there from the way back (log 95). Where one of its packets is lost, the sending unit reports it (R303), and RD awaits
an answer that never comes. -/
def execSread (t : Nat) (rd ra : Reg) (loss : ReadLoss) (s : State) : Out :=
  onTile t s (fun s => syncIssue t ra [] s (fun o s =>
    let x := s.sync o
    let wait (u : Nat) (s : State) : State := postHw 0x05 u false 0
      { retire t 1 s (fun T => { T with awaits := if rd = 0 then T.awaits else T.awaits ++ [({ reg := rd.val, id := s.nextId } : Await)] })
        with nextId := s.nextId + 1 }
    match loss with
    | .request => wait (herdOf t) s
    | .answer => wait (objUnit o) (settleObj o s)
    | .arrives =>
      let newRelease := newer 8 x.gen (Sparse.get 0 (s.tile t).seenGen o)
      settleObj o (retire t 1 (observeGen t o newRelease s) (fun T => (T.setReg rd x.word).later rd (6 + s.farBeats t o)))))

/-- SCONF finds a configuration that cannot be applied (R137). -/
def sconfBad (x : SyncObj) (v : Nat) : Bool :=
  bits v 16 2 == 3 || bits v 18 14 != 0 || x.waiters != 0 || x.early != 0

/-- SCONF (R137): mode and target set, VALUE and the clamp flags cleared, GEN kept. -/
def execSconf (t : Nat) (ra rb : Reg) (s : State) : Out :=
  onTile t s (fun s => syncIssue t ra [rb] s (fun o s =>
    let v := ((s.tile t).reg rb).toNat
    let x := s.sync o
    if sconfBad x v then faultIssue t 0 ⟨Code.syncConfig, 0⟩ s
    else retire t 2 (s.setSync o { x.setValue 0 with
      mode := bits v 16 2, target := bits v 0 16, overflow := false, underflow := false }) id))

/-! ## At the object and back -/

def State.syncMsg (s : State) (id : Nat) : Option SyncMsg := (Sparse.find s.syncMsgs id).map (·.op)
def State.delSync (s : State) (id : Nat) : State := { s with syncMsgs := Sparse.del s.syncMsgs id }

/-- The sender of a sync operation or answer (Table 16-12b, class 0x05). DESIGN CHOICE (log 81): a signal that comes through
the control crossing, which is neither a herd nor a hub, is reported for hub 0. -/
def SyncMsg.sender : SyncMsg → Nat
  | .signal _ _ _ _ u => match u.2 with
    | 0 => herdOf u.1
    | 1 => u.1
    | _ => 0x8000
  | .arrival t _ _ _ _ _ _ => herdOf t
  | .answer _ o _ _ _ _ => objUnit o
  | .wait t _ _ => herdOf t

/-- A sync operation or answer fails its check (R303): sent again up to three times, and then lost, which its sender reports
as a hardware fault of class 0x05 (Table 16-12b; log 81). -/
def resendSync (id : Nat) (s : State) : State :=
  match Sparse.find s.syncMsgs id with
  | none => s
  | some p =>
    if p.resends < 3 then { s with syncMsgs := Sparse.set s.syncMsgs id { p with resends := p.resends + 1 } }
    else postHw 0x05 p.op.sender false 0 (s.delSync id)

/-- A sync operation or answer reaches its receiver, whose check of it passes or fails (R303). -/
def onSync (id : Nat) (ok : Bool) (s : State) (k : SyncMsg → State) : Out :=
  .next (match s.syncMsg id with
    | none => s
    | some m => if ok then k m else resendSync id s)

/-- SYNC_SIGNAL (R286 to R288): a signal in the network is applied to its object. -/
def execSyncSignal (id : Nat) (ok : Bool) (s : State) : Out :=
  onSync id ok s (fun m => match m with
    | .signal o v kind src _ => signalObj o v kind src (s.delSync id)
    | _ => s)

/-- ARRIVE_AT_OBJECT (R290, R291): the object takes the arrival, and its answer starts back. -/
def execArriveAtObject (id : Nat) (ok : Bool) (s : State) : Out :=
  onSync id ok s (fun m => match m with
    | .arrival t o ref rd pc first round =>
      let r := (s.sync o).arrive t first round
      let job := ((Sparse.find s.syncMsgs id).map (·.job)).getD 0
      putSync o r.1 { s with syncMsgs := Sparse.set s.syncMsgs id { job := job, op := .answer t o ref rd pc r.2 } }
    | _ => s)

/-- ARRIVE_ANSWER (R290, R291, R481): the entry and RD take the round, or the tile faults, also one that has stopped at END
meanwhile; an arrival at the closing object in a herd that holds the quiesce barrier parks the tile. -/
def execArriveAnswer (id : Nat) (ok : Bool) (s : State) : Out :=
  onSync id ok s (fun m => match m with
    | .answer t o ref rd pc ans =>
      let s := s.delSync id
      if (s.tile t).run = .faulted then s
      else
        match ans with
        | .modeFault => recordFault t 0 Code.syncMode pc (objAddr o) s
        | .misuse => recordFault t 0 Code.syncMisuse pc (objAddr o) s
        | .round g =>
          let s := s.updTile t (fun T => { T with
            arrivals := T.arrivals.map (fun e =>
              if e.2.ref = ref then (e.1, { e.2 with live := true, waiting := false, round := g }) else e)
            regs := if h : rd < 32 then
                (if T.awaits.any (fun a => a.id == id && !a.stale) then T.regs.set rd (word g) else T.regs)
              else T.regs
            awaits := (T.awaits.filter (fun a => a.id != id)).map (fun a =>
              if a.reg = rd && a.id < id then { a with stale := true } else a) })
          if s.closes t o && (s.part (s.partOf t)).asked.contains (herdOf t) then
            let s := s.updTile t (fun T => { T with hold := true })
            let T := s.tile t
            if T.run = .running && !T.syncTravel then parkTile t .quiesce s else s
          else s
    | _ => s)

/-- An SWAIT returns: the tile goes on past it (R135, R292). The beat counter of a tile that was halted meanwhile stands
still (R52). DESIGN CHOICE (log 93): Table 4-11 has no row for SWAIT, which is charged 1 issue beat at its return. -/
def swaitReturn (t o : Nat) (s : State) : State :=
  let s := (observeGen t o true s).updTile t (fun T => { T with syncTravel := false, syncReady := none, syncResends := 0 })
  if (s.tile t).run = .halted then
    s.updTile t (fun T => { T with pc := T.pc + 4, tahr := { T.tahr with pass := none } })
  else resumeTile t id (retire t 1 s id)

/-- SYNC_WAIT_AT_OBJECT (R135, R286, R288, R289): the wait holds, and its answer starts back, or it parks its tile at the
object; the object settles behind it. -/
def execSyncWaitAtObject (id : Nat) (ok : Bool) (s : State) : Out :=
  onSync id ok s (fun m => match m with
    | .wait t o g =>
      let s := s.delSync id
      let T := s.tile t
      if !T.alive || !T.syncTravel then s
      else if (s.sync o).holds g then settleObj o (s.updTile t (fun T => { T with syncReady := some o }))
      else
        let s := s.setSync o ((s.sync o).park t g)
        let s := s.updTile t (fun T => { T with syncTravel := false })
        settleObj o (if T.run = .halted then s.updTile t (fun T => { T with park := .sync o g }) else parkTile t (.sync o g) s)
    | _ => s)

/-- The tile stands where the answer to its SWAIT can reach it: the wait held at once and the tile has not parked, or it is
parked at the object. -/
def Tile.swaitOpen (T : Tile) : Bool :=
  T.syncTravel || (T.run == .parked && (match T.park with | .sync _ _ => true | _ => false))

/-- SYNC_WAIT_RESUME (R135, R289, R303): the answer to an SWAIT that held at once, or whose object has released, reaches its
tile, and passes its check or not: the object sends it again up to three times, and then its unit reports a hardware fault. -/
def execSyncWaitResume (t : Nat) (ok : Bool) (s : State) : Out :=
  onTile t s (fun s =>
    let T := s.tile t
    match T.syncReady with
    | some o =>
      if !T.alive || !T.swaitOpen then s
      else if ok then swaitReturn t o s
      else if T.syncResends < 3 then s.updTile t (fun T => { T with syncResends := T.syncResends + 1 })
      else postHw 0x05 (objUnit o) false 0 (s.updTile t (fun T => { T with syncReady := none, syncResends := 0 }))
    | none => s)

end Sys2Proof.Machine
end

