-- ==== Sys2Proof/Machine/Regs.lean ====
section
/-! DEFINITION. A tile's register block (spec/03 R92 to R97, spec/04 R112): CRR, CRW, the LO reads that latch, FTQ_CLR
and LOSS_POST. -/

namespace Sys2Proof.Machine

def PortRun.code : PortRun → Nat
  | .reset => 0
  | .opened => 1
  | .closed => 2

/-- TILE_STATUS (Table 3-7). -/
def Tile.statusReg (T : Tile) : Nat :=
  T.sticky + (if T.run = .parked then T.park.cause * 2 ^ 8 else 0) + T.run.code
/-- FAULT_CODE (Table 3-9): CODE reads 0 while the tile is not FAULTED, UNIT as recorded (log 91). -/
def Tile.faultReg (T : Tile) : Nat := T.faultUnit * 2 ^ 8 + if T.run = .faulted then T.faultCode else 0
/-- ENGINE_STATUS (Table 3-12). -/
def Tile.engineReg (T : Tile) : Nat :=
  bitSet 8 (fun w => (T.window w).opened) * 2 ^ 16 + T.ftq.entries.length % 16 * 2 ^ 8
    + (if (T.outstanding 2).isEmpty then 0 else 2 ^ 5) + (if T.mx.isEmpty then 0 else 2 ^ 4) + T.blocks.length % 8

/-- A window's registers by index in its block (Table 3-14). -/
def Window.reg (w : Window) (i : Nat) : Nat :=
  match i with
  | 0 => w.base.toNat
  | 1 => w.wend.toNat
  | 2 => w.sender.toNat
  | 3 => w.ctrl.toNat + (if w.opened then 1 else 0)
  | 4 => w.count
  | _ => 0

/-- A skip slot's registers by index in its block (Table 6-3). -/
def SkipSlot.reg (k : SkipSlot) (i : Nat) : Nat :=
  match i with
  | 0 => k.ctrl
  | 1 => k.thresh.toNat
  | 2 => k.elems % 2 ^ 32
  | 3 => k.elemsHi.toNat
  | 4 => k.sampled % 2 ^ 32
  | 5 => k.sampledHi.toNat
  | 6 => k.miss % 2 ^ 32
  | 7 => k.missHi.toNat
  | _ => 0

def Tile.execSlot (T : Tile) (k : Nat) : ExecSlot := Sparse.get {} T.vec.slots k
/-- The vector counters of slot k, or of the finished-tile queue for k = 6 (Table 7-4). -/
def Tile.scntReg (T : Tile) (k i : Nat) : Nat :=
  let x : Nat × Nat × Nat :=
    if k = 6 then ((amaxWord T.vec.ftqAmax).toNat, T.vec.ftqNonfin, T.vec.ftqSat)
    else ((amaxWord (T.execSlot k).amax).toNat, (T.execSlot k).nonfin, (T.execSlot k).sat)
  match i with
  | 0 => x.1
  | 1 => x.2.1
  | 2 => x.2.2
  | _ => 0

/-- Registers 0x000 to 0x050 (Table 3-5) by offset / 4. -/
def lowReg (t : Nat) (s : State) (i : Nat) : Nat :=
  let T := s.tile t
  match i with
  | 0 => t
  | 1 => s.steppingWord.toNat
  | 2 => T.statusReg
  | 3 => (if T.tahrMode then 2 else 0) + (if T.runBit then 1 else 0)
  | 4 => T.faultReg
  | 5 => T.faultPc.toNat
  | 6 => T.faultAddr % 2 ^ 32
  | 7 => T.faultAddr / 2 ^ 32
  | 8 => T.regionBase
  | 9 => T.regionSize
  | 10 => T.codeBase
  | 11 => T.codeSize
  | 12 => T.ringBase
  | 13 => T.ringSize
  | 14 => T.engineReg
  | 15 => T.port.state.code
  | 16 => T.beats % 2 ^ 32
  | 17 => T.beatHi.toNat
  | 18 => T.remoteReject
  | 19 => T.orphanCount
  | 20 => T.rewindCount
  | _ => 0

/-- Registers 0x980 to 0x998 (Table 17-11) by index. -/
def Tahr.reg (h : Tahr) (i : Nat) : Nat :=
  match i with
  | 0 => h.code.toNat * 2 ^ 8 + (if h.arrival then 2 else 0) + (if h.valid then 1 else 0)
  | 1 => h.pc.toNat
  | 2 => h.addr.toNat % 2 ^ 32
  | 3 => h.addr.toNat / 2 ^ 32
  | 4 => h.other.toNat
  | 5 => h.res.length
  | 6 => h.count
  | _ => 0

/-- Registers 0xA00 to 0xA10 (Table 9-7) by index. -/
def Tile.portReg (T : Tile) (i : Nat) : Nat :=
  match i with
  | 0 => T.port.job
  | 1 => T.ringFree
  | 2 => T.port.waitList.length * 2 ^ 24 + T.port.committed
  | 3 => T.port.readPos % 2 ^ 24
  | 4 => T.port.writePos % 2 ^ 24
  | _ => 0

/-- An arrival-table register (Table 10-3). -/
def Tile.arrReg (T : Tile) (i : Nat) : Nat :=
  match Sparse.find T.arrivals (i / 2) with
  | none => 0
  | some e => if i % 2 = 0 then e.ref.toNat else if e.live then 2 ^ 8 + e.round else 0

/-- The value of the register at a block offset that is a multiple of 4; 0 where none is assigned (R92). DESIGN CHOICE (log 107):
SUM_OPEN.OPEN, of 0 to 16 in Table 11-3, is the number of open contexts modulo 32 where a program exceeds R312's bound. -/
def tileReg (t : Nat) (s : State) (off : Nat) : Nat :=
  let T := s.tile t
  let i := off / 4
  if off < 0x100 then lowReg t s i
  else if off < 0x200 then (T.window ((off - 0x100) / 0x20)).reg (i % 8)
  else if off < 0x400 then 0
  else if off < 0x800 then (T.skip ((off - 0x400) / 0x20)).reg (i % 8)
  else if off < 0x870 then T.scntReg ((off - 0x800) / 0x10) (i % 4)
  else if off < 0xA00 then
    if 0x980 ≤ off then T.tahr.reg (i - 0x260)
    else match off with
      | 0x880 => T.vec.nonfinCnt % 2 ^ 32
      | 0x884 => T.vec.nonfinHi.toNat
      | 0x888 => T.vec.satCnt % 2 ^ 32
      | 0x88C => T.vec.satHi.toNat
      | 0x900 => T.vec.seedLo.toNat
      | 0x904 => T.vec.seedHi.toNat
      | 0x908 => T.vec.stepCtr.toNat
      | 0x940 => T.loss.value.toNat
      | 0x948 => T.loss.step.toNat
      | 0x94C => (if T.loss.lost then 2 else 0) + (if T.loss.posted then 1 else 0)
      | _ => 0
  else if off < 0xA20 then T.portReg (i - 0x280)
  else if off < 0xA40 then bitSet 32 (fun b => T.port.busy.contains ((off - 0xA20) * 8 + b))
  else if off = 0xA80 then (s.sums.filter (fun c => c.tile == t)).length % 32
  else if off = 0xA84 then T.sumAbandon
  else if off < 0xB00 then 0
  else if off < 0xB40 then T.arrReg (i - 0x2C0)
  else if off < 0xC00 then 0
  else (Sparse.get 0 T.port.handlers (i - 0x300)).toNat

/-- The high half of a counter, as a LO read latches it (R96). -/
def hiWord (n : Nat) : Word := word (n / 2 ^ 32)

/-- A LO read latches the high bits of its counter (R96, R177, R215). -/
def latchRead (off : Nat) (T : Tile) : Tile :=
  if off = 0x40 then { T with beatHi := hiWord T.beats }
  else if off = 0x880 then { T with vec := { T.vec with nonfinHi := hiWord T.vec.nonfinCnt } }
  else if off = 0x888 then { T with vec := { T.vec with satHi := hiWord T.vec.satCnt } }
  else if 0x400 ≤ off ∧ off < 0x800 then
    let k := (off - 0x400) / 0x20
    let x := T.skip k
    match off / 4 % 8 with
    | 2 => T.setSkip k { x with elemsHi := hiWord x.elems }
    | 4 => T.setSkip k { x with sampledHi := hiWord x.sampled }
    | 6 => T.setSkip k { x with missHi := hiWord x.miss }
    | _ => T
  else T

/-- A window register written while the window is closed, under its field masks (R85, Table 3-14). -/
def Window.writeReg (w : Window) (i v : Nat) : Window :=
  if w.opened then w
  else match i with
    | 0 => { w with base := word (bits v 3 21 * 8) }
    | 1 => { w with wend := word (bits v 3 22 * 8) }
    | 2 => { w with sender := word (bits v 16 16 * 2 ^ 16 + bits v 0 14) }
    | 3 => { w with ctrl := word (bits v 8 10 * 2 ^ 8 + bits v 2 2 * 4) }
    | _ => w

/-- A skip register written (Table 6-4). -/
def SkipSlot.writeReg (k : SkipSlot) (i v : Nat) : SkipSlot :=
  match i with
  | 0 => { k with ctrl := bits v 0 5 }
  | 1 => { k with thresh := word v }
  | _ => k

/-- A post of the loss of a step (R512, R513): LOST where it replaces one not yet taken. -/
def postLoss (t : Nat) (step : Word) (s : State) : State :=
  let lost := (s.tile t).loss.posted
  let s := s.updTile t (fun T => { T with loss := { T.loss with
    step := step, post := T.loss.value, posted := true, lost := T.loss.lost || lost } })
  let j := s.jobOfTile t
  if lost && s.jobUsed j && t == (s.part (s.partOf t)).herds.headD 0 * 32 then
    s.updJob j (fun J => { J with health := { J.health with lost := J.health.lost + 1 } })
  else s

/-- FTQ_CLR enters the vector queue (R214). -/
def clearFtqEntry (t : Nat) (s : State) : State :=
  vecAdvance t (s.updTile t (fun T => { T with vec := { T.vec with queue := T.vec.queue ++ [.ftqClr] } }))

/-- A tile's write to its own register block under the access codes (R9, R112). -/
def writeTileReg (t off : Nat) (v : Word) (s : State) : State :=
  let n := v.toNat
  let upd := s.updTile t
  if off = 0x8 then upd (fun T => T.clearSticky n)
  else if 0x100 ≤ off ∧ off < 0x200 then
    upd (fun T => T.setWindow ((off - 0x100) / 0x20) ((T.window ((off - 0x100) / 0x20)).writeReg (off / 4 % 8) n))
  else if 0x400 ≤ off ∧ off < 0x800 then
    upd (fun T => T.setSkip ((off - 0x400) / 0x20) ((T.skip ((off - 0x400) / 0x20)).writeReg (off / 4 % 8) n))
  else if off = 0x870 then if bit n 0 then clearFtqEntry t s else s
  else if off = 0x908 then upd (fun T => { T with vec := { T.vec with stepCtr := v } })
  else if off = 0x940 then upd (fun T => { T with loss := { T.loss with value := v } })
  else if off = 0x944 then postLoss t v s
  else if off = 0x94C then upd (fun T => { T with loss := { T.loss with lost := T.loss.lost && !bit n 1 } })
  else s

/-- CRR and CRW: the checks of R112, then the access. -/
def ctrlIssue (t : Nat) (ra : Reg) (imm : BitVec 16) (uses : List Reg) (s : State) (k : Nat → State → State) : State :=
  issue t (ra :: uses) s (fun s =>
    let off := (effOff ((s.tile t).reg ra) imm).toNat
    let addr := ctrlBase + t * 0x1000 + off
    if off % 4 != 0 then faultIssue t 0 ⟨Code.misaligned, addr⟩ s
    else if 0xFFF < off then faultIssue t 0 ⟨Code.regionBound, addr⟩ s
    else k off s)

/-- CRR (R112). -/
def execCrr (t : Nat) (rd ra : Reg) (imm : BitVec 16) (s : State) : Out :=
  onTile t s (fun s => ctrlIssue t ra imm [] s (fun off s =>
    let v := word (tileReg t s off)
    retire t 1 (s.updTile t (latchRead off)) (fun T => (T.setReg rd v).later rd 2)))

/-- CRW (R112): RD names the data register. -/
def execCrw (t : Nat) (rd ra : Reg) (imm : BitVec 16) (s : State) : Out :=
  onTile t s (fun s => ctrlIssue t ra imm [rd] s (fun off s =>
    writeTileReg t off ((s.tile t).reg rd) (retire t 1 s id)))

/-! ## The rows of single registers -/

/-- A register read by Ibex or a debugger: its value on the bus, and what the read latches (R93; log 12). -/
def busRead (t off : Nat) (s : State) : State :=
  { s.updTile t (latchRead off) with busData := leBytes 4 (tileReg t s off), busNack := false }

/-- BEAT_LO_READ (R96). -/
def execBeatLoRead (t : Nat) (s : State) : Out := onTile t s (busRead t 0x40)

/-- SKIP_COUNT_LO_READ (R177): ELEMS, SAMPLED or MISS of a skip slot. -/
def execSkipCountLoRead (t : Nat) (slot : Fin 32) (which : Fin 3) (s : State) : Out :=
  onTile t s (busRead t (0x408 + 0x20 * slot.val + 8 * which.val))

/-- VEC_COUNT_LO_READ (R215): VEC_NONFIN_LO or VEC_SAT_LO. -/
def execVecCountLoRead (t : Nat) (sat : Bool) (s : State) : Out :=
  onTile t s (busRead t (if sat then 0x888 else 0x880))

/-- FTQ_CLR (R214): a write of 1. -/
def execFtqClr (t : Nat) (s : State) : Out := onTile t s (clearFtqEntry t)

/-- LOSS_POST (R512): a write of the step. -/
def execLossPost (t : Nat) (step : Word) (s : State) : Out := onTile t s (postLoss t step)

/-! ## TILE_CONTROL.RUN -/

/-- TILE_RUN_START (R93): RUN = 1 starts a stopped tile at its entry offset. -/
def execTileRunStart (t : Nat) (s : State) : Out := onTile t s (startTile t)

/-- TILE_RUN_STOP (R93): RUN = 0 stops the tile at once. -/
def execTileRunStop (t : Nat) (s : State) : Out := onTile t s (stopTile t)

end Sys2Proof.Machine
end

