-- ==== Sys2Proof/Machine/SweepOps.lean ====
section
/-! DEFINITION. Faces and control sweeps (spec/15 R403, R404, R418, R419). -/

namespace Sys2Proof.Machine

/-- The order in which engines are assigned (R404). -/
def engineOrder : List Nat := [0, 3, 6, 9, 1, 4, 7, 10, 2, 5, 8, 11]
/-- The engines of an axis: 0 x, 1 y, 2 z (R404). -/
def Job.axisEngines (J : Job) (a : Nat) : List Nat :=
  match a with
  | 0 => engineOrder.take J.nx
  | 1 => (engineOrder.drop J.nx).take J.ny
  | _ => (engineOrder.drop (J.nx + J.ny)).take J.nz
/-- Every second element, from the first. -/
def everySecond : List Nat → List Nat
  | [] => []
  | [a] => [a]
  | a :: _ :: r => a :: everySecond r
/-- The links of a face in order; faces are numbered x−, x+, y−, y+, z−, z+ from 0 (R404). -/
def Job.faceLinks (J : Job) (f : Nat) : List Nat :=
  let es := J.axisEngines (f / 2)
  (everySecond (if f % 2 = 0 then es else es.drop 1)).flatMap (fun e => (List.range 8).map (fun i => 8 * e + i))
/-- The length of an axis. -/
def Job.axisLen (J : Job) (a : Nat) : Nat :=
  match a with
  | 0 => J.lx
  | 1 => J.ly
  | _ => J.lz
/-- Every link of a job's faces (R405). -/
def Job.allLinks (J : Job) : List Nat := (List.range 6).flatMap J.faceLinks
/-- The face that a link belongs to for a job. -/
def Job.faceOf (J : Job) (k : Nat) : Option Nat := (List.range 6).find? (fun f => (J.faceLinks f).contains k)
/-- The lowest-numbered UP link of a face that is not miscabled (R408, R418). -/
def State.upLink (s : State) (J : Job) (f : Nat) : Option Nat :=
  ((J.faceLinks f).filter (fun k => (s.link k).run == .up && !(s.link k).miscabled)).foldl
    (fun b k => match b with | none => some k | some m => some (min m k)) none

/-- Combining two values: OR of a bit for the flag sweep, the minimum for the others (R418). -/
def sweepJoin (kind a b : Nat) : Nat := if kind = 0 then max a b else min a b

/-- A content goes out over the lowest-numbered UP link of a face of a job, or waits until the face has one (R418). -/
def pushFace (j face lane n step : Nat) (o : LinkOut) (s : State) : State :=
  match s.upLink (s.job j) face with
  | none => s.updJob j (fun J => { J with faceWait := J.faceWait ++ [(face, lane, n, step, o)] })
  | some k => pushOut k lane n step (o.on k) s

/-- A link has come UP: what waited for its face goes out. -/
def flushFaces (j : Nat) (s : State) : State :=
  let l := (s.job j).faceWait
  l.foldl (fun s (f, lane, n, step, o) => pushFace j f lane n step o s) (s.updJob j (fun J => { J with faceWait := [] }))

/-- A contribution goes out on a face's control lane. -/
def sendSweep (j face kind step hop value : Nat) (s : State) : State :=
  pushFace j face 2 1 step (.sweep 0 kind step hop value) s

/-- Contributions go both ways round the axis at the head of a run. -/
def sendBoth (j : Nat) (r : SweepRun) (s : State) : State :=
  match r.axes with
  | [] => s
  | a :: _ => sendSweep j (2 * a + 1) r.kind r.step 1 r.value (sendSweep j (2 * a) r.kind r.step 1 r.value s)

/-- Hops that the ring of an axis takes (R418). -/
def Job.hops (J : Job) (a : Nat) : Nat := J.axisLen a / 2
/-- The head axis has delivered every hop from both sides. -/
def SweepRun.axisDone (r : SweepRun) (J : Job) : Bool :=
  match r.axes with
  | [] => true
  | a :: _ => (List.range (J.hops a)).all (fun h => [true, false].all (fun m => r.got.contains (m, h + 1)))

/-- Replace the run of a kind and step, or drop it. -/
def putSweep (j : Nat) (r : SweepRun) (keep : Bool) (s : State) : State :=
  s.updJob j (fun J => { J with
    sweeps := J.sweeps.filter (fun x => !(x.kind == r.kind && x.step == r.step)) ++ (if keep then [r] else []) })

/-- A contribution received on the head axis is combined and forwarded (R418). -/
def takeHop (j : Nat) (x : SweepIn) (r : SweepRun) (s : State) : SweepRun × State :=
  let v := sweepJoin r.kind r.value x.value
  let s := if x.hop < (s.job j).hops x.axis
    then sendSweep j (2 * x.axis + (if x.minus then 1 else 0)) r.kind r.step (x.hop + 1) v s else s
  ({ r with value := v, got := r.got ++ [(x.minus, x.hop)] }, s)

/-- The verdict sweep's value for no disagreement. -/
def noVerdict : Nat := 2 ^ 112 - 1
/-- What a verdict sweep still lacks on its head axis from a silent face, from which nothing comes: no disagreement, so that the
sweep ends on this module and on those beyond it (R422; log 46). -/
def SweepRun.fromSilent (r : SweepRun) (J : Job) : List SweepIn :=
  match r.axes with
  | [] => []
  | a :: _ =>
    if r.kind != 1 then []
    else [true, false].flatMap (fun m =>
      if J.silent.contains (2 * a + (if m then 0 else 1)) then
        ((List.range (J.hops a)).filter (fun h => !r.got.contains (m, h + 1))).map (fun h =>
          ({ kind := 1, step := r.step, axis := a, minus := m, hop := h + 1, value := noVerdict } : SweepIn))
      else [])
/-- It is taken as any contribution is. -/
def takeSilent (j : Nat) : List SweepIn → SweepRun → State → SweepRun × State
  | [], r, s => (r, s)
  | x :: l, r, s => let (r, s) := takeHop j x r s; takeSilent j l r s

/-- Contributions that wait for this run's head axis are taken, each hop once. -/
def takeWaiting (j : Nat) : List SweepIn → SweepRun → State → SweepRun × State
  | [], r, s => (r, s)
  | x :: l, r, s =>
    if x.kind = r.kind ∧ x.step = r.step ∧ x.link = none ∧ r.axes.head? = some x.axis then
      let (r, s) := if r.got.contains (x.minus, x.hop) then (r, s) else takeHop j x r s
      takeWaiting j l r (s.updJob j (fun J => { J with sweepIn := J.sweepIn.filter (fun y => y != x) }))
    else takeWaiting j l r s

/-- A run goes on while its head axis is complete; with no axis left its result stands. `fuel` bounds the axes. -/
def advanceSweep (j : Nat) : Nat → SweepRun → State → State
  | 0, r, s => putSweep j r true s
  | fuel + 1, r, s =>
    match r.axes with
    | [] => (putSweep j r false s).updJob j (fun J => { J with results := J.results ++ [(r.kind, r.step, r.value)] })
    | _ :: rest =>
      let (r, s) := takeWaiting j (s.job j).sweepIn r s
      let (r, s) := takeSilent j (r.fromSilent (s.job j)) r s
      if r.axisDone (s.job j) then
        let r := { r with axes := rest, got := [] }
        advanceSweep j fuel r (sendBoth j r s)
      else putSweep j r true s

/-- A sweep of a job begins on this module with its own contribution: along y and z for the flag, else x, y and z (R419,
R422, R517); axes of length 1 are passed. -/
def startSweep (j kind step value : Nat) (s : State) : State :=
  let J := s.job j
  let axes := (if kind = 0 then [1, 2] else [0, 1, 2]).filter (fun a => decide (1 < J.axisLen a))
  let r : SweepRun := { kind := kind, step := step, value := value, axes := axes }
  advanceSweep j 4 r (sendBoth j r s)

/-- A contribution arrives: into its run, or to wait for it. -/
def receiveSweep (j : Nat) (x : SweepIn) (s : State) : State :=
  let s := s.updJob j (fun J => { J with sweepIn := J.sweepIn ++ [x] })
  match (if x.link.isSome then none else (s.job j).sweeps.find? (fun r => r.kind == x.kind && r.step == x.step)) with
  | none => s
  | some r => advanceSweep j 4 r s

/-- Runs take what has been delivered to them meanwhile. -/
def resumeSweeps (j : Nat) (rs : List SweepRun) (s : State) : State := rs.foldl (fun s r => advanceSweep j 4 r s) s

/-- The result of a sweep, where it is there. -/
def Job.result (J : Job) (kind step : Nat) : Option Nat :=
  (J.results.find? (fun r => r.1 == kind && r.2.1 == step)).map (fun r => r.2.2)

end Sys2Proof.Machine
end

