-- ==== Sys2Proof/Machine/Kudu.lean ====
section
/-! DEFINITION. Gradient reduction (spec/13): contributions and their tree, rounds, the ring stage, the non-finite flag,
rearm, and the Kudu's own registers. -/

namespace Sys2Proof.Machine

namespace Code
def redState := 0x48
def redRange := 0x49
def redContrib := 0x4A
def redDup := 0x4B
def redRing := 0x4C
def redIncomplete := 0x4D
end Code

/-! ## The tree (R355) -/

/-- A binary32 code is a NaN or an infinity. -/
def nonfinite32 (w : Nat) : Bool := bits w 23 8 == 255

/-- Where a contribution came to rest in its tree. -/
structure RedRest where
  root : Bool
  level : Nat
  index : Nat
  vals : List Nat
  held : List (Nat × Nat × List Nat)
  /-- It combined with a held node, and an addition gave a NaN or an infinity. -/
  combined : Bool
  nf : Bool
  deriving DecidableEq, Repr

/-- The loop of R308 over pool blocks (R355); `fuel` bounds the levels. -/
def redLoop (c : Nat) : Nat → RedRest → RedRest
  | 0, x => x
  | fuel + 1, x =>
    if x.level = rootLevel c then { x with root := true }
    else
      let sib := if x.index % 2 = 0 then x.index + 1 else x.index - 1
      if c ≤ firstLeaf x.level sib then redLoop c fuel { x with level := x.level + 1, index := x.index / 2 }
      else
        match x.held.find? (fun h => h.1 == x.level && h.2.1 == sib) with
        | some h =>
          let v := List.zipWith add32 h.2.2 x.vals
          redLoop c fuel { x with
            level := x.level + 1, index := x.index / 2, vals := v, combined := true, nf := x.nf || v.any nonfinite32
            held := x.held.filter (fun y => !(y.1 == h.1 && y.2.1 == h.2.1)) }
        | none => { x with held := x.held ++ [(x.level, x.index, x.vals)] }

/-- Pool blocks that an entry's Kudu has (R350), and those held. -/
def RedEntry.pool (x : RedEntry) : Nat :=
  x.stageBlocks - 8 * x.bufGrans - (if 1 < x.ringLen then ceilDiv (64 * x.bufGrans) x.ringLen else 0)
def RedEntry.heldBlocks (x : RedEntry) : Nat := x.trees.foldl (fun n e => n + e.2.held.length) 0

/-- A root is applied to its buffer block: written in round 0, added afterwards (R356); whether the sum has a NaN or an
infinity. -/
def applyRoot (a : Nat) (first : Bool) (vals : List Nat) (s : State) : State × Bool :=
  let v := if first then vals else List.zipWith add32 ((chunks 4 (readBytes s.mem a 64)).map leNat) vals
  (s.writeMem a (f32Bytes v), !first && v.any nonfinite32)

/-! ## Completion and the ring stage (R358 to R366) -/

/-- Segment `j` of a share holds blocks from `segLo j` to `segLo (j + 1)` (R358). -/
def RedEntry.segLo (x : RedEntry) (j : Nat) : Nat := j * x.blocks / x.ringLen
def RedEntry.segBlocks (x : RedEntry) (j : Nat) : List Nat := (List.range (x.segLo (j + 1) - x.segLo j)).map (x.segLo j + ·)
/-- The hop that this module performs for segment `j` (R358). -/
def RedEntry.hopOf (x : RedEntry) (j : Nat) : Nat := (x.ringPos + 2 * x.ringLen - j - 1) % x.ringLen
/-- The device addresses of a segment's blocks in the buffer. -/
def segAddrs (k : Nat) (x : RedEntry) (j : Nat) : List Nat := (x.segBlocks j).map (fun b => shareAddr x.bufBase (k / 64) (b * 64))
/-- The buffer's words of a segment. -/
def segWords (k : Nat) (x : RedEntry) (j : Nat) (s : State) : List Nat :=
  (segAddrs k x j).flatMap (fun a => (chunks 4 (readBytes s.mem a 64)).map leNat)
/-- Words written to blocks in order, 16 to a block. -/
def writeSeg : List Nat → List Nat → State → State
  | [], _, s => s
  | a :: as, ws, s => writeSeg as (ws.drop 16) (s.writeMem a (f32Bytes (ws.take 16)))
/-- Element positions in the buffer of a segment's words (R364). -/
def segElems (k : Nat) (x : RedEntry) (j : Nat) : List Nat :=
  (x.segBlocks j).flatMap (fun b =>
    (List.range 16).map (fun i => (shareAddr 0 (k / 64) (b * 64)) / 4 + i))

/-- ring_in(v, h) (R358, R364): the value as it stands, or rounded stochastically into bfloat16 and widened. -/
def ringIn (s : State) (k : Nat) (x : RedEntry) (j h : Nat) (vals : List Nat) : List Nat :=
  if !x.ringFmt then vals
  else
    let seed := (s.job x.job).seed
    List.zipWith (fun v e =>
      let r := srBits seed x.step x.tensor (x.elemBase + h * x.bufGrans * 4096 + e)
      (fmtBf16.convert (.stochastic r) (f32 v)).1 * 2 ^ 16) vals (segElems k x j)

/-- Link blocks of a ring packet. -/
def RedEntry.pktBlocks (x : RedEntry) (p : RingPkt) : Nat := blocksOf (p.data.length * (if x.ringFmt then 2 else 4))
/-- A packet goes to the next position's link on the Kudu lane, under the entry's STEP (R413). -/
def sendRing (k : Nat) (x : RedEntry) (p : RingPkt) (s : State) : State :=
  pushOut x.nextLink 1 (x.pktBlocks p) p.step (.ring x.nextLink (k / 64) p) s

/-- The entry is in its ring stage, in RING or in CLOSING after it (R361, R368). -/
def RedEntry.inRing (x : RedEntry) : Bool := x.state == .ring || (x.state == .closing && x.closingRing)
/-- Every hop has been performed and every segment gathered (R361). -/
def RedEntry.ringDone (x : RedEntry) : Bool :=
  decide (x.ringLen ≤ 1) || (x.hopsDone.length == x.ringLen && x.gathered.length == x.ringLen)

/-- The entry becomes COMPLETE: GLOBAL_NF, GRAD_STEP in the status block of an enabled commit entry, unless the access to it
fails (R327 to R329), and the signal (R361, Table 14-3). -/
def completeRed (k : Nat) (hits : List StackHit) (s : State) : State :=
  let x := s.red k
  let c := s.com k
  let a := c.recordAt (k / 64) + 64
  match (if c.state = .off then .ok s else kuduAccess k hits [a] [a] s) with
  | .error s => s
  | .ok s =>
    let s := s.updRed k (fun x => { x with state := .complete, globalNf := x.localNf || x.nfIn })
    let s := if c.state = .off then s else s.writeMem (a + 8) (leBytes 4 x.step)
    signalFw x.job (s.job x.job).part x.syncRef s

/-- Owned segments whose final value has formed go out once NF_READY is set (R362). -/
def sendFinals (k : Nat) : List (Nat × List Nat) → State → State
  | [], s => s
  | (j, v) :: r, s =>
    let x := s.red k
    let s := sendRing k x ⟨x.ringTag, x.step, j, 0, true, x.localNf, v⟩ s
    sendFinals k r (s.updRed k (fun x => { x with gathered := x.gathered ++ [j], finals := x.finals.filter (fun f => f.1 != j) }))

/-- With NF_READY set, owned segments go out; the ring stage is over when every hop has been performed and every segment
gathered (R361, R362). -/
def finishRing (k : Nat) (hits : List StackHit) (s : State) : State :=
  let x := s.red k
  if !x.inRing || !x.nfReady then s
  else
    let s := if 1 < x.ringLen then sendFinals k x.finals s else s
    if (s.red k).ringDone && (s.red k).state == .ring then completeRed k hits s else s

/-- A scatter packet in its turn: this module's hop for its segment (R358), unless an access fails (R328, R329). -/
def scatterHop (k : Nat) (p : RingPkt) (hits : List StackHit) (s : State) : State :=
  let x := s.red k
  let h := x.hopOf p.seg
  let as := segAddrs k x p.seg
  if !x.inRing then s
  else
    match kuduAccess k hits as (if h = x.ringLen - 1 then as else []) s with
    | .error s => s
    | .ok s =>
      let v := List.zipWith add32 p.data (segWords k x p.seg s)
      let s := s.updRed k (fun x => { x with hopsDone := x.hopsDone ++ [p.seg], kuduNf := x.kuduNf || v.any nonfinite32 })
      if h = x.ringLen - 1 then
        let final := ringIn s k x p.seg h v
        (writeSeg as final s).updRed k (fun x => { x with finals := x.finals ++ [(p.seg, final)] })
      else sendRing k x ⟨x.ringTag, x.step, p.seg, h, false, false, ringIn s k x p.seg h v⟩ s

/-- A ring packet of the right step reaches its entry: a gather packet is written and forwarded, a scatter packet takes
this module's hop, or the ring room while the local rounds are open (R358, R360). -/
def ringDeliver (k : Nat) (p : RingPkt) (hits : List StackHit) (s : State) : State :=
  let x := s.red k
  if x.ringLen ≤ p.seg || p.data.length != 16 * (x.segBlocks p.seg).length then s
  else if p.gather then
    if !x.inRing || x.gathered.contains p.seg || p.seg == x.ringPos then s
    else
      let as := segAddrs k x p.seg
      match kuduAccess k hits [] as s with
      | .error s => s
      | .ok s =>
        let s := (writeSeg as p.data s).updRed k (fun x => { x with
          gathered := x.gathered ++ [p.seg], nfIn := x.nfIn || p.nf })
        let s := if (x.ringPos + 1) % x.ringLen = p.seg then s else sendRing k x p s
        finishRing k (leftHits s k hits [] as) s
  else if x.hopsDone.contains p.seg || x.scatterIn.any (fun q => q.seg == p.seg) || p.hop + 1 != x.hopOf p.seg then s
  else if x.state = .opened then s.updRed k (fun x => { x with scatterIn := some p })
  else finishRing k (leftHits s k hits (segAddrs k x p.seg) []) (scatterHop k p hits s)

/-- A ring packet that its entry can take faults it with RED_RING where it names another step, or where the entry is not in
RING (a scatter packet may come while the local rounds are open, R360); the reported address is the segment's first block
in the buffer (log 72). -/
def ringArrive (k : Nat) (p : RingPkt) (hits : List StackHit) (s : State) : State :=
  let x := s.red k
  if p.step ≠ x.step ∨ !(x.inRing || (x.state == .opened && !p.gather)) then
    redFault k Code.redRing (shareAddr x.bufBase (k / 64) (x.segLo p.seg * 64)) s
  else ringDeliver k p hits s

/-- A packet waits in its receive buffer: it is one step ahead of its entry (R414), or the ring room is taken (R360). -/
def RedEntry.ahead (x : RedEntry) (p : RingPkt) : Bool := p.step % 65536 == (x.step + 1) % 65536
def RedEntry.holds (x : RedEntry) (p : RingPkt) : Bool :=
  x.ahead p || (x.state == .opened && !p.gather && p.step == x.step && x.scatterIn.isSome)

/-- Packets in the receive buffers are taken in order, up to the first that still waits; `hits` is what one of the accesses for
them meets. -/
def serveRing (k : Nat) : List (Nat × RingPkt) → List StackHit → State → State
  | [], _, s => s
  | (l, p) :: r, hits, s =>
    let x := s.red k
    if x.holds p || s.kuduWaits k then s
    else
      let s := (s.updRed k (fun x => { x with ringHeld := r })).updLink l (fun y => y.handled 1 (x.pktBlocks p))
      serveRing k r (leftHits s k hits (segAddrs k x p.seg) []) (ringArrive k p hits s)

/-- Packets that an entry still has in receive buffers are dropped, and their credits freed. -/
def dropHeld (k : Nat) (s : State) : State :=
  let x := s.red k
  let s := x.ringHeld.foldl (fun s e => s.updLink e.1 (fun y => y.handled 1 (x.pktBlocks e.2))) s
  s.updRed k (fun x => { x with ringHeld := [], scatterIn := none })

/-- The ring stage begins (R358): hop 0 of this module's first segment, unless an access fails (R328, R329), then the packets
that wait (R360). -/
def startRing (k : Nat) (hits : List StackHit) (s : State) : State :=
  let x := s.red k
  if x.ringLen ≤ 1 then s
  else
    let j := (x.ringPos + x.ringLen - 1) % x.ringLen
    let as := segAddrs k x j
    match kuduAccess k hits as [] s with
    | .error s => s
    | .ok s =>
      let hits := leftHits s k hits as []
      let s := s.updRed k (fun x => { x with hopsDone := [j], scatterIn := none })
      let s := sendRing k x ⟨x.ringTag, x.step, j, 0, false, false, ringIn s k x j 0 (segWords k x j s)⟩ s
      match x.scatterIn with
      | some p => serveRing k x.ringHeld (leftHits s k hits (segAddrs k x p.seg) []) (scatterHop k p hits s)
      | none => serveRing k x.ringHeld hits s

/-- A round of the share closes (R356); `hits` is what an access of a ring stage that begins now meets. DESIGN CHOICE (log 108):
with RING_LEN = 1 the entry shows RING from its last local round until NF_READY makes it COMPLETE (R361). -/
def closeRound (k : Nat) (hits : List StackHit) (s : State) : State :=
  let x := s.red k
  let s := s.updRed k (fun x => { x with trees := [], rounds := x.rounds + 1, closedAt := s.time })
  let s := signalFw x.job (s.job x.job).part x.syncRef s
  if x.rounds + 1 = x.expectRounds then
    finishRing k hits (startRing k hits (s.updRed k (fun x => { x with state := .ring })))
  else s

/-! ## Contributions (R351 to R357) -/

/-- The checks of Table 13-3 on a block at address `a`. -/
def checkContribution (x : RedEntry) (job contrib a : Nat) : Option Nat :=
  if x.state != .opened || x.job != job then some Code.redState
  else if !within a 64 x.bufBase x.bufBytes then some Code.redRange
  else if x.contribs ≤ contrib then some Code.redContrib
  else if (Sparse.get {} x.trees (shareOff x.bufBase a / 64)).accepted.contains contrib
      || x.waiting.any (fun w => w.contrib == contrib && w.index == shareOff x.bufBase a / 64) then some Code.redDup
  else none

/-- A contribution's place in the tree of its block. -/
def placeContribution (x : RedEntry) (w : RedWait) : RedRest :=
  redLoop x.contribs 20 ⟨false, 0, w.contrib, w.data, (Sparse.get {} x.trees w.index).held, false, false⟩
/-- A contribution needs a pool block, and none is free (R353). -/
def RedEntry.lacksRoom (x : RedEntry) (w : RedWait) : Bool :=
  let r := placeContribution x w
  !r.root && !r.combined && decide (x.pool ≤ x.heldBlocks)

/-- The stack blocks that an acceptance reads, beside the pool's: its directory entry's (R350), and, for a root after round 0,
the buffer block (R356, R370). -/
def acceptReads (k : Nat) (x : RedEntry) (w : RedWait) : List Nat :=
  shareAddr x.stageBase (k / 64) (w.index * 8 / 64 * 64)
    :: (if (placeContribution x w).root && x.rounds != 0 then [shareAddr x.bufBase (k / 64) (w.index * 64)] else [])

/-- Accesses to the pool: one read where the contribution combines with held blocks, however many, and one write where the sum
is held (R370). -/
def poolAccesses (r : RedRest) : Nat := (if r.combined then 1 else 0) + (if r.root then 0 else 1)

/-- A block that passed its checks and has room is accepted, unless an access to the stack fails (R328, R329): counted, held
or combined, and a root applied. DESIGN CHOICE (log 108): what the staging area holds R350 does not specify; its bytes stay as
they last stood. -/
def acceptContribution (k : Nat) (w : RedWait) (hits : List StackHit) (s : State) : State :=
  let x := s.red k
  let r := placeContribution x w
  let a := shareAddr x.bufBase (k / 64) (w.index * 64)
  match kuduAccess k hits (acceptReads k x w) (if r.root then [a] else []) s with
  | .error s => s
  | .ok s =>
    let tree : RedTree := Sparse.get {} x.trees w.index
    let s := s.noteBlocks x.job false (poolAccesses r)
    let tree : RedTree := { tree with
      accepted := tree.accepted ++ [w.contrib], held := if r.root then [] else r.held, rooted := r.root }
    let s := s.updRed k (fun x => { x with
      trees := Sparse.set x.trees w.index tree, accepted := x.accepted + 1, kuduNf := x.kuduNf || r.nf })
    let q : Kudu := Sparse.get {} s.kudus (k / 64)
    let s := { s with kudus := Sparse.set s.kudus (k / 64) { q with accept := (q.accept + 1) % 2 ^ 64 } }
    let s := match (s.tile w.tile).moverOp w.num with
      | some o => blockDone w.tile o w.block s
      | none => s
    if r.root then
      let (s, nf) := applyRoot a (x.rounds == 0) r.vals s
      let s := s.updRed k (fun x => { x with kuduNf := x.kuduNf || nf })
      let x := s.red k
      if (x.trees.filter (fun e => e.2.rooted)).length = x.blocks
      then closeRound k (leftHits s k hits (acceptReads k x w) [a]) s else s
    else s

/-- Transfers that a stack's Kudu holds deferred (R57): contributions that wait for a pool block, and held commit requests. -/
def State.deferred (s : State) (stack : Nat) : Nat :=
  ((s.reds.filter (fun e => e.1 / 64 == stack)).map (fun e => e.2.waiting.length)).sum
    + (s.coms.filter (fun e => e.1 / 64 == stack && e.2.held)).length

/-- CONTRIBUTION_BLOCK (R352 to R354): block `n` of an ACCUM transfer reaches its Kudu; `crcOk` says that it passes its check,
and `hits` what the Kudu's own accesses meet. A block that lacks a pool block is deferred in the Kudu's queue, or stays in
its crossing where that is full (R57), or where the Kudu's accesses have to wait (R330). -/
def execContributionBlock (t num n : Nat) (crcOk : Bool) (hits : List StackHit) (s : State) : Out :=
  onTile t s (fun s => withBlock t num n s (fun o b s =>
    let d := o.desc
    let a := b.addr
    let stack := s.unitOf a
    let k := entryKey stack d.redEntry
    if d.kind != 3 || s.kuduWaits k then s
    else if (s.mc stack).run != .enabled then moverFault t o Code.memRefused a s
    else if !crcOk then blockRetry t o n s
    else
      let x := s.red k
      match checkContribution x (s.tile t).port.job d.contrib a with
      | some code =>
        moverFault t o code a (s.updRed k (fun x => { x with state := .faulted, fault := code }))
      | none =>
        match readCheck t (d.locAt n) 64 s with
        | .error (f, s) => contextFault (s.jobOfTile t) f.code f.addr s
        | .ok s =>
          let w : RedWait := ⟨t, num, n, d.contrib, shareOff x.bufBase a / 64,
            (chunks 4 (s.herdBytes t (d.locAt n) 64)).map leNat⟩
          if !x.lacksRoom w then acceptContribution k w hits (dropOut b s)
          else if s.deferred stack < Config.deferDepth stack then
            (dropOut b s).updRed k (fun x => { x with waiting := x.waiting ++ [w] })
          else s))

/-- KU_POOL_WAIT rises by the controller clocks that a block waited (Table 13-2). -/
def Kudu.waited (q : Kudu) (clocks : Nat) : Kudu :=
  { q with poolWait := satAdd max32 q.poolWait clocks, countSat := q.countSat || satHits max32 q.poolWait clocks }

/-- POOL_WAIT_END (R353): the first waiting block of an open entry that can be accepted now is; `clocks` is how long it
waited. -/
def execPoolWaitEnd (stack : Stack) (e : Fin 64) (clocks : Nat) (hits : List StackHit) (s : State) : Out :=
  .next (
    let k := entryKey stack.val e.val
    let x := s.red k
    match (if x.state = .opened && !s.kuduWaits k then x.waiting.find? (fun w => !x.lacksRoom w) else none) with
    | none => s
    | some w =>
      let s := s.updRed k (fun x => { x with waiting := x.waiting.filter (· != w) })
      let s := { s with kudus := Sparse.set s.kudus stack.val ((Sparse.get {} s.kudus stack.val : Kudu).waited clocks) }
      acceptContribution k w hits s)

/-! ## Ring packets (R360, R366, R414) -/

/-- RING_PACKET (R358, R360): the packet of one segment arrives over a link for a stack's Kudu. One that is a step ahead is
held, keeping its credit, and counted in LK_HELD (R414), and one that finds the ring room taken waits under the link's
credits (R360); one that names no entry, or another step, faults with RED_RING (R352). While the Kudu's accesses have to
wait (R330) it comes later; a miscabled link carries none (R408). -/
def execRingPacket (stack : Stack) (link : LinkId) (tag step seg hop : Nat) (gather nf : Bool) (data : List Nat)
    (hits : List StackHit) (s : State) : Out :=
  .next (
    let l := link.val
    let p : RingPkt := ⟨tag, step, seg, hop, gather, nf, data⟩
    if (s.link l).miscabled then s.updLink l (fun y => y.handled 1 (blocksOf (4 * data.length)))
    else match (List.range 64).find? (fun e =>
        let x := s.red (entryKey stack.val e)
        x.ringTag == tag && decide (1 < x.ringLen) && (x.state == .opened || x.inRing || x.state == .complete)) with
    | none => contextFault (s.jobOfLink l) Code.redRing 0 (s.updLink l (fun y => y.handled 1 (blocksOf (4 * data.length))))
    | some e =>
      let k := entryKey stack.val e
      let x := s.red k
      let n := x.pktBlocks p
      if s.kuduWaits k then s
      else if x.holds p then
        (s.updRed k (fun x => { x with ringHeld := x.ringHeld ++ [(l, p)] })).updLink l
          (fun y => if x.ahead p then { y with held := (y.held + n) % 2 ^ 32 } else y)
      else ringArrive k p hits (s.updLink l (fun y => y.handled 1 n)))

/-! ## The flag (R365) -/

/-- The keys of a job's entries that are not FREE. -/
def State.redsOf (s : State) (j : Nat) : List Nat :=
  (s.reds.filter (fun e => e.2.job == j && e.2.state != .free)).map (·.1)
/-- Every entry of the job has reached its last local round, and NF_READY is not yet set in all of them. -/
def State.lastRounds (s : State) (j : Nat) : Bool :=
  let ks := s.redsOf j
  ks.all (fun k => (s.red k).inRing || (s.red k).nfReady) && ks.any (fun k => (s.red k).inRing && !(s.red k).nfReady)
/-- The module flag (R365). -/
def State.moduleFlag (s : State) (j : Nat) : Bool :=
  (s.part (s.job j).part).nonfin || (s.part (s.job j).part).nonfinSeen || (s.redsOf j).any (fun k => (s.red k).kuduNf)
/-- The step that the job's entries reduce. -/
def State.redStep (s : State) (j : Nat) : Nat := ((s.redsOf j).head?.map (fun k => (s.red k).step)).getD 0

/-- At a release report (R365): the first that comes more than 1 µs after the last round close of every entry starts the
flag sweep. -/
def flagAtRelease (j : Nat) (s : State) : State :=
  if s.lastRounds j && !(s.job j).nfRelease && (s.redsOf j).all (fun k => decide ((s.red k).closedAt + 1000 < s.time)) then
    startSweep j 0 (s.redStep j) (if s.moduleFlag j then 1 else 0) (s.updJob j (fun J => { J with nfRelease := true }))
  else s

/-- NF_READY_WRITE (R365): once its conditions hold, LOCAL_NF takes the plane flag and NF_READY is set in every entry of
the job; the partition's NONFIN flag clears. `hits` is what an access of an entry that becomes COMPLETE meets; while one has
to wait (R330), so does the write. -/
def execNfReadyWrite (j : BitVec 8) (hits : List StackHit) (s : State) : Out :=
  .next (
    let j := j.toNat
    let step := s.redStep j
    match (s.job j).result 0 step with
    | none => s
    | some v =>
      if !s.lastRounds j || !(s.job j).nfRelease || (s.redsOf j).any s.kuduWaits then s
      else
        let ks := s.redsOf j
        let s := ks.foldl (fun s k => s.updRed k (fun x => { x with localNf := v != 0, nfReady := true })) s
        let s := s.updJob j (fun J => { J with
          nfRelease := false, results := J.results.filter (fun r => !(r.1 == 0 && r.2.1 == step)) })
        let p := (s.job j).part
        let s := flagReached p (fun r => { r with nonfin := false })
          (s.updPart p (fun P => { P with nonfin := false, nonfinSeen := false }))
        ks.foldl (fun s k => finishRing k hits s) s)

/-! ## Rearm, closing, registers -/

/-- A COMPLETE entry is rearmed (R369); ring packets held for the new step are delivered (R414). -/
def rearm (k : Nat) (hits : List StackHit) (s : State) : State :=
  let x := s.red k
  if x.state != .complete then s
  else
    serveRing k x.ringHeld hits (s.updRed k (fun x => { x with
      rounds := 0, accepted := 0, kuduNf := false, localNf := false, nfReady := false, globalNf := false
      step := (x.step + 1) % 2 ^ 32, state := .opened, trees := [], hopsDone := [], gathered := [], finals := []
      nfIn := false, scatterIn := none }))

/-- Blocks that wait at an entry are refused with RED_STATE (R368), which makes it FAULTED (R352). -/
def refuseWaiting (k : Nat) (s : State) : State :=
  let ws := (s.red k).waiting
  let s := s.updRed k (fun x => if ws.isEmpty then x else { x with waiting := [], state := .faulted, fault := Code.redState })
  ws.foldl (fun s w =>
    match (s.tile w.tile).moverOp w.num with
    | some o => moverFault w.tile o Code.redState (o.desc.memAt w.block) s
    | none => s) s

/-- A disable moves an entry to CLOSING (R368): waiting blocks are refused, and the held nodes of the open round freed; the
contributions that it had accepted still count (R371). An entry in
RING goes on with its ring stage; ring packets of one that is not are dropped, since their local value never forms, as
are those of a step that it will not reach (log 83). -/
def closeEntry (k : Nat) (s : State) : State :=
  if (s.red k).state = .free then s
  else refuseWaiting k (dropHeld k (s.updRed k (fun x => { x with
    closingRing := x.state == .ring, state := .closing
    trees := Sparse.mapVals (fun _ r => { r with held := [] }) x.trees })))

/-- An entry in CLOSING has handled every ring packet (R368). -/
def RedEntry.closed (x : RedEntry) : Bool := x.state == .closing && (!x.closingRing || x.ringDone)

/-- An entry returns to FREE, its configuration kept. -/
def freeEntry (k : Nat) (s : State) : State :=
  (dropHeld k s).updRed k (fun x => { x with
    state := .free, trees := [], waiting := [], hopsDone := [], gathered := [], finals := [], nfIn := false
    closingRing := false, rounds := 0, accepted := 0, kuduNf := false, localNf := false, nfReady := false
    globalNf := false, fault := 0 })

/-- KU_ACCEPT_LO_READ (R349): the low half on the bus, the high half latched. -/
def execKuAcceptLoRead (stack : Stack) (s : State) : Out :=
  .next (
    let q : Kudu := Sparse.get {} s.kudus stack.val
    { s with kudus := Sparse.set s.kudus stack.val { q with acceptHi := hiWord q.accept }
             busData := leBytes 4 q.accept, busNack := false })

end Sys2Proof.Machine
end

