-- ==== Sys2Proof/Machine/Commit.lean ====
section
/-! DEFINITION. The commit (spec/14 sections 14.3 to 14.5, 14.9): shard records, the update rules, the working copy, the
replica digest, and a share's commit as its block writes in order. -/

namespace Sys2Proof.Machine

namespace Code
def commitReq := 0x4E
def replicaDiverge := 0x4F
end Code

/-! ## Shard records (Table 14-3) -/

/-- The request block and the status block of share `k`. -/
def State.request (s : State) (k : Nat) : Nat := readNat s.mem ((s.com k).recordAt (k / 64)) 64
def State.status (s : State) (k : Nat) : Nat := readNat s.mem ((s.com k).recordAt (k / 64) + 64) 64

namespace Req
def step (r : Nat) : Nat := bits r 0 32
def lr (r : Nat) : Nat := bits r 32 32
def c1 (r : Nat) : Nat := bits r 64 32
def c2 (r : Nat) : Nat := bits r 96 32
def forceSkip (r : Nat) : Bool := bit r 128
def reserved (r : Nat) : Nat := bits r 129 383
end Req

namespace Stat
def momTag (t : Nat) : Nat := bits t 0 32
def wTag (t : Nat) : Nat := bits t 32 32
def gradStep (t : Nat) : Nat := bits t 64 32
def lastStep (t : Nat) : Nat := bits t 96 32
def accStep (t : Nat) : Nat := bits t 128 32
def accSkip (t : Nat) : Bool := bit t 160
def skips (t : Nat) : Nat := bits t 192 64
def digest (t : Nat) : Nat := bits t 256 64
def digestK (t : Nat) : Nat := bits t 320 32
end Stat

/-- The write of share `k`'s status block. -/
def statusWrite (s : State) (k t : Nat) : Nat × List Byte := ((s.com k).recordAt (k / 64) + 64, leBytes 64 t)

/-! ## Elements (R373) -/

/-- The `n` bytes of an element at share offset `o` of the array at `x`, as a number. -/
def elemNat (s : State) (k x o n : Nat) : Nat :=
  leNat ((List.range n).map (fun i => readByte s.mem (shareAddr x (k / 64) (o + i))))
/-- The byte writes of an element. -/
def elemWrites (k x o n v : Nat) : List (Nat × List Byte) :=
  List.zipWith (fun i b => (shareAddr x (k / 64) (o + i), [b])) (List.range n) (leBytes n v)

/-! ## The update rules (R379) -/

/-- An element's new moments and master. -/
structure Update where
  m1 : Nat
  m2 : Nat
  master : Nat
  deriving DecidableEq, Repr

def div32 (a b : Nat) : Nat := rne32 ((f32 a).div (f32 b))
def sqrt32 (a : Nat) : Nat := rne32 (f32 a).sqrt
/-- master := rne48(w − u). -/
def newMaster (w u : Nat) : Nat := fmtW48.ieee ((fmtW48.decode w).add (f32 u).neg)

/-- The update of one element by the entry's RULE, from gradient, moments and master of slot c; for DIRECT `m2` is slot
n's. -/
def ComEntry.update (c : ComEntry) (rq g m1 m2 w : Nat) : Update :=
  let w32 := rne32 (fmtW48.decode w)
  let decay := mul32 c.wd w32
  let lr := Req.lr rq
  match c.rule with
  | 0 =>
    let m := add32 (mul32 c.b1 m1) g
    ⟨m, m2, newMaster w (mul32 lr (add32 m decay))⟩
  | 1 =>
    let m := add32 (mul32 c.b1 m1) (mul32 c.a1 g)
    let v := add32 (mul32 c.b2 m2) (mul32 c.a2 (mul32 g g))
    let d := div32 (mul32 m (Req.c1 rq)) (add32 (sqrt32 (mul32 v (Req.c2 rq))) c.eps)
    ⟨m, v, newMaster w (mul32 lr (add32 d decay))⟩
  | _ => ⟨m1, m2, newMaster w (mul32 lr (add32 m2 decay))⟩

/-- The update of element `i` of share `k`, on acceptance with commit count `cnt` (R378). -/
def State.elemUpdate (s : State) (k i cnt : Nat) : Update :=
  let c := s.com k
  let x := s.red k
  let moment (a : Nat) := elemNat s k a (i * 4) 4
  let m2 := if c.rule = 1 then moment (c.m2 cnt) else if c.rule = 2 then moment (c.m2 (cnt + 1)) else 0
  c.update (s.request k) (moment x.bufBase) (moment (c.m1 cnt)) m2 (elemNat s k (c.master cnt) (i * 6) 6)

/-! ## The working copy (R381, R382) -/

/-- WORK_FMT's format. -/
def ComEntry.workFormat (c : ComEntry) : FFmt := if c.workFmt = 1 then fmtE4M3 else if c.workFmt = 2 then fmtE5M2 else fmtBf16
/-- A master as a working element, and whether the conversion saturated. -/
def ComEntry.workElem (c : ComEntry) (master : Nat) : Nat × Bool :=
  c.workFormat.convert .nearest ((fmtW48.decode master).scale (-(signedOf 8 c.workExp)))
/-- The share offset of element `i` of the working copy. -/
def ComEntry.workOff (c : ComEntry) (i : Nat) : Nat :=
  let z := c.workSize
  if c.workLayout then
    let q := i / 1024
    let t := i % 1024
    q / c.perGranule * 4096 + q % c.perGranule * c.recBytes + c.hdrBytes + (64 * (t % 16) + t / 16) * z
  else i * z
/-- The writes of element `i` of the working copy from its master. -/
def workWrite (c : ComEntry) (k i master : Nat) : List (Nat × List Byte) :=
  elemWrites k c.workBase (c.workOff i) c.workSize (c.workElem master).1
/-- The writes of the working copy from a list of masters. -/
def workWrites (c : ComEntry) (k : Nat) (masters : List Nat) : List (Nat × List Byte) :=
  (List.zipWith (workWrite c k) (List.range masters.length) masters).flatten

/-! ## CRC-64 (R389) -/

/-- Eight steps of the CRC with polynomial 0x42F0_E1EB_A9EA_3693, not reflected. -/
def crcBits : Nat → Nat → Nat
  | 0, r => r
  | n + 1, r =>
    crcBits n (if bit r 63 then ((r * 2) % 2 ^ 64) ^^^ 0x42F0E1EBA9EA3693 else r * 2)
/-- The CRC-64 of bytes in order, from 0. -/
def crc64 (bs : List Byte) : Nat := bs.foldl (fun r b => crcBits 8 (r ^^^ (b.toNat * 2 ^ 56))) 0

/-! ## A share's commit (R378) -/

/-- A master is NaN or infinite (R379). -/
def badMaster (m : Nat) : Bool := (fmtW48.decode m).nonfinite

/-- The writes of the commit of share `k` in the order of R378, by phase: the moments, commit point 1, master and working copy
element by element, commit point 2; or a skip's one. -/
def commitPhases (s : State) (k : Nat) : List (List (Nat × List Byte)) :=
  let c := s.com k
  let t := s.status k
  let acc := Stat.accStep t
  if Stat.accSkip t then [[statusWrite s k (setBits (setBits t 192 64 (Stat.skips t + 1)) 96 32 acc)]]
  else
    let cnt := Stat.wTag t
    let ups := (List.range c.used).map (fun i => s.elemUpdate k i cnt)
    let is := List.range c.used
    let moments := if c.rule = 2 then [] else
      (List.zipWith (fun i u => elemWrites k (c.m1 (cnt + 1)) (i * 4) 4 u.m1
        ++ (if c.rule = 1 then elemWrites k (c.m2 (cnt + 1)) (i * 4) 4 u.m2 else [])) is ups).flatten
    let t1 := setBits t 0 32 (cnt + 1)
    let masters := ups.map (·.master)
    let mw := (List.zipWith (fun i m => elemWrites k (c.master (cnt + 1)) (i * 6) 6 m ++ workWrite c k i m) is masters).flatten
    let dig := c.digestEvery ≠ 0 ∧ (cnt + 1) % 2 ^ 32 % c.digestEvery = 0
    let t2 := if dig then setBits (setBits t1 256 64 (crc64 (masters.flatMap (leBytes 6)))) 320 32 (cnt + 1) else t1
    let t2 := setBits (setBits t2 32 32 (cnt + 1)) 96 32 acc
    let t2 := setBits t2 352 32 (min max32 (masters.filter badMaster).length)
    let t2 := setBits t2 384 32 (min max32 (masters.filter (fun m => (c.workElem m).2)).length)
    [moments, [statusWrite s k t1], mw, [statusWrite s k t2]]
/-- All of them. -/
def commitWrites (s : State) (k : Nat) : List (Nat × List Byte) := (commitPhases s k).flatten

/-- The writes of a phase as block writes: those to one 64-byte block are one write, made where its last byte has formed
(R330). -/
def blockGroups : List (Nat × List Byte) → List (List (Nat × List Byte))
  | [] => []
  | w :: r =>
    let gs := blockGroups r
    let mine (g : List (Nat × List Byte)) : Bool := g.any (fun v => v.1 / 64 == w.1 / 64)
    if gs.any mine then gs.map (fun g => if mine g then w :: g else g) else [w] :: gs
/-- The block writes of a commit: each phase after every block of the one before (R378). -/
def commitBlocks (s : State) (k : Nat) : List (List (Nat × List Byte)) := (commitPhases s k).flatMap blockGroups

/-- Writes made in order. -/
def applyWrites (l : List (Nat × List Byte)) (s : State) : State := l.foldl (fun s w => s.writeMem w.1 w.2) s

/-- The commit of a share is cut off by the end of its context: some first part of its block writes has been made (R386; which
part is free). -/
def interruptCommit (k : Nat) (s : State) : State :=
  let s := if (s.com k).busy then
      { applyWrites ((commitBlocks s k).take (Config.cutAt s.free)).flatten s with free := s.free + 1 } else s
  s.updCom k (fun c => { c with
    state := .off, busy := false, request := false, held := false, askers := [], digestIn := [] })

/-- The x faces' links carry this module's digest to both neighbours (R389, R419). The exchange names the step after the
commit's, so that it reaches each neighbour as that one reaches the step (log 75). -/
def sendDigest (k : Nat) (s : State) : State :=
  let t := s.status k
  let j := (s.red k).job
  if (s.job j).lx ≤ 1 then s
  else
    [0, 1].foldl (fun s f =>
      pushFace j f 2 1 (Stat.lastStep t + 1) (.digest 0 (k % 64) (k / 64) (Stat.digestK t) (Stat.digest t)) s) s

/-- A neighbour's digest that came over link `l` is compared with this share's own: any difference faults the job, with the
entry and the stack as the shard record's address, and the neighbour's link (R389, log 75). -/
def compareDigest (k l cnt value : Nat) (s : State) : State :=
  let t := s.status k
  if cnt = Stat.digestK t ∧ value = Stat.digest t then s
  else
    redFault k Code.replicaDiverge ((s.com k).recordAt (k / 64)) (s.updJob (s.red k).job (fun J => { J with
      diverged := if J.diverged.isSome then J.diverged else some (k, l) }))

/-- Neighbours' digests are compared once the job has reached the step that they name and this share has formed its own
of that commit. -/
def checkDigests (k : Nat) (s : State) : State :=
  let t := s.status k
  let step := (s.job (s.red k).job).linkStep
  let due (d : Nat × Nat × Nat × Nat) : Bool := stepCompare d.2.1 step != .ahead && !newer 32 d.2.2.1 (Stat.digestK t)
  let l := (s.com k).digestIn
  let s := s.updCom k (fun c => { c with digestIn := l.filter (fun d => !due d) })
  (l.filter due).foldl (fun s d => compareDigest k d.1 d.2.2.1 d.2.2.2 s) s

/-- The share blocks that a commit reads: the gradient, the moments and the master of slot c, and its shard record. -/
def commitReads (s : State) (k : Nat) : List Nat :=
  let c := s.com k
  let cnt := Stat.wTag (s.status k)
  let share (a n : Nat) : List Nat := (List.range (ceilDiv n 64)).map (fun i => shareAddr a (k / 64) (64 * i))
  [c.recordAt (k / 64), c.recordAt (k / 64) + 64]
    ++ (if Stat.accSkip (s.status k) then [] else
      share (s.red k).bufBase (4 * c.used) ++ share (c.m1 cnt) (4 * c.used) ++ share (c.master cnt) (6 * c.used)
        ++ (if c.rule = 0 then [] else share (c.m2 (if c.rule = 1 then cnt else cnt + 1)) (4 * c.used)))

/-- The blocks that a commit writes. -/
def commitWritten (s : State) (k : Nat) : List Nat := (commitWrites s k).map (fun w => w.1 / 64 * 64)

/-- COMMIT_END (R378): a share's commit or skip finishes, signals COMMIT_REF, and rearms the reduction entry; `hits` is what
its accesses meet, and may end the context instead (R328, R329). -/
def execCommitEnd (stack : Stack) (e : Fin 64) (hits : List StackHit) (s : State) : Out :=
  .next (
    let k := entryKey stack.val e.val
    let c := s.com k
    if !c.busy || s.kuduWaits k then s
    else
      match kuduAccess k hits (commitReads s k) (commitWritten s k) s with
      | .error s => s
      | .ok s =>
        let before := Stat.digestK (s.status k)
        let rest := leftHits s k hits (commitReads s k) (commitWritten s k)
        let s := applyWrites (commitWrites s k) s
        let formed := Stat.digestK (s.status k) != before
        let s := if formed then sendDigest k s else s
        let s := s.updCom k (fun c => { c with busy := false, state := if c.state = .closing then .closing else .ready })
        let s := rearm k rest (signalFw (s.red k).job (s.job (s.red k).job).part c.commitRef s)
        if formed then checkDigests k s else s)

/-- DIGEST_RECEIVED (R389, R414, R419): a neighbour's replica digest of commit count `cnt` arrives over a link, naming a
step. One step ahead, it is held with its credit; one of a commit that this share has not finished is kept until its own
digest stands; else it is compared. A miscabled link carries none (R408). -/
def execDigestReceived (link : LinkId) (stack : Stack) (e : Fin 64) (step cnt value : Nat) (s : State) : Out :=
  .next (
    let l := link.val
    let k := entryKey stack.val e.val
    let keep (s : State) : State := s.updCom k (fun c => { c with digestIn := c.digestIn ++ [(l, step, cnt, value)] })
    let free (s : State) : State := s.updLink l (fun x => x.handled 2 1)
    if (s.com k).state = .off || (s.link l).miscabled then free s
    else
      match stepCompare step (s.job (s.red k).job).linkStep with
      | .ahead => (keep s).updLink l (fun x => { x with held := (x.held + 1) % 2 ^ 32 })
      | .skew => stepSkewFault l (free s)
      | .same => checkDigests k (keep (free s)))

end Sys2Proof.Machine
end

