-- ==== Sys2Proof/Machine/Link.lean ====
section
/-! DEFINITION. Frecel links (spec/15 sections 15.2 to 15.6): blocks that arrive, retrains, training and identity, lasers,
landings, the link step, job aborts. -/

namespace Sys2Proof.Machine

/-! ## Blocks that arrive (R397 to R399, R410, R414) -/

/-- Header fields of Table 15-1. -/
def RxBlock.ofBits (h : Nat) (data : List Byte) : RxBlock where
  lane := bits h 36 2
  kind := bits h 32 4
  step := bits h 80 16
  tag := bits h 48 16
  xfer := bits h 0 24
  data := data

/-- Every unacknowledged block is sent again (R397, R398). -/
def Link.resendAll (x : Link) : Link :=
  let n := x.replay.length
  { x with
    replay := x.replay.map (fun b => { b with sends := b.sends + 1 })
    resend := (x.resend + n) % 2 ^ 32, tx := (x.tx + n) % 2 ^ 64 }

/-- Blocks up to the acknowledged SEQ leave the replay buffer. -/
def Link.acked (x : Link) (ack : Nat) : Link := { x with replay := x.replay.filter (fun b => newer 16 b.seq ack) }

/-- A header's ACK, NAK, CR_LANE and CREDITS take effect. -/
def Link.takeHeader (x : Link) (h : Nat) : Link :=
  let x := x.acked (bits h 96 16)
  let x := if bit h 31 then x.resendAll else x
  (if bits h 38 2 < 3 then x.addCredit (bits h 38 2) (bits h 40 8) else x).flush

/-- The end-to-end answer of an inbound transfer goes back (R410, R411), under a tag and a step: a refusal under those of the
transfer's own block, so that its sender takes it also where they are not this link's (log 97). -/
def sendAnswer (k xfer tag step : Nat) (ok : Bool) (s : State) : State := pushTagged k 0 1 tag step (.answer k xfer ok) s

/-- A block's check code at its controller (R327, R328; log 82): how often it fails is free; up to three failures are
retries, and the fourth is the answer `false`. -/
def checkBlock (a : Nat) (s : State) : Bool × State :=
  let u := s.unitOf a
  let n := Config.blockFails s.free
  let s := (List.range (min n 3)).foldl (fun s _ => s.updMc u Mc.countRetry) { s with free := s.free + 1 }
  if n ≤ 3 then (true, s) else (false, s.updMc u Mc.countFail)

/-- A controller accepts a block that lands for the job of link `k`: it is enabled, its range is not the host's, and the
block passes its check; none where it does not, with the fault of the receiving context (R325, R328, R342, R411). -/
def landBlock (k a : Nat) (bs : List Byte) (s : State) : Except State State :=
  let j := s.jobOfLink k
  if (s.mc (s.unitOf a)).run != .enabled || !s.clearOfCxl a 64 then .error (contextFault j Code.memRefused a s)
  else
    let (ok, s) := checkBlock a (s.noteBlocks j (decide (ddrBase ≤ a)) 1)
    if ok then .ok (noteRequest a none (s.writeMem a bs)) else .error (contextFault j Code.memCrc a s)

/-- The bytes of a transfer. -/
def Landing.total (l : Landing) : Nat := l.rows * l.rowBytes
/-- The address of byte `n` of a transfer. -/
def Landing.at (l : Landing) (n : Nat) : Nat := l.addr + n / l.rowBytes * l.pitch + n % l.rowBytes

/-- Payload blocks of 64 bytes land one after another, up to the first that its controller does not accept. -/
def landAll (k : Nat) (l : Landing) : Nat → List (List Byte) → State → Except State State
  | _, [], s => .ok s
  | n, b :: r, s =>
    if n < l.total then
      match landBlock k (l.at n) b s with
      | .error s => .error s
      | .ok s => landAll k l (n + 64) r s
    else .ok s

/-- A transfer has wholly landed: its end-to-end answer goes back, and its signal is due (R411); a checkpoint
in a buddy slot, which is no landing of the job's program, signals nothing (R521). -/
def finishLanding (k : Nat) (l : Landing) (s : State) : State :=
  if l.total ≤ l.done then
    let s := s.updLink k (fun x => { x with
      landing := x.landing.filter (fun m => m.xfer != l.xfer)
      landed := if x.syncEn && !l.buddy then x.landed + 1 else x.landed })
    sendAnswer k l.xfer (s.link k).bindTag (s.job (s.jobOfLink k)).linkStep true s
  else s

/-- A data block at the head of the delivered blocks goes to its transfer: it lands, or it is dropped where the transfer
was refused or its header discarded. -/
def takeData (k : Nat) (b : RxBlock) (s : State) : State :=
  match (s.link k).landing.find? (fun l => l.xfer == b.xfer) with
  | none => s
  | some l =>
    let l' := { l with done := l.done + 256 }
    if l.refused then
      if b.kind = 3 then s.updLink k (fun x => { x with landing := x.landing.filter (fun m => m.xfer != l.xfer) }) else s
    else
      let put (l' : Landing) (s : State) : State :=
        s.updLink k (fun x => { x with landing := x.landing.map (fun m => if m.xfer = l.xfer then l' else m) })
      match landAll k l l.done (chunks 64 b.data) s with
      | .ok s => finishLanding k l' (put l' s)
      | .error s =>
        let s := if b.kind = 3 then s.updLink k (fun x => { x with landing := x.landing.filter (fun m => m.xfer != l.xfer) })
          else put { l' with refused := true } s
        sendAnswer k l.xfer b.tag b.step false s

/-- A data block has to wait for a write to one of its 64-byte blocks that is sent again (R330). -/
def State.landWaits (s : State) (k : Nat) (b : RxBlock) : Bool :=
  match (s.link k).landing.find? (fun l => l.xfer == b.xfer) with
  | some l => !l.refused &&
    (List.range 4).any (fun i => decide (l.done + 64 * i < l.total) && s.underRetry (l.at (l.done + 64 * i)))
  | none => false

/-- Data blocks are taken from the front while no transfer header stands there, and none that has to wait. -/
def drainLink (k : Nat) : Nat → State → State
  | 0, s => s
  | fuel + 1, s =>
    match (s.link k).delivered with
    | [] => s
    | b :: r =>
      if b.kind = 1 || s.landWaits k b then s
      else drainLink k fuel (takeData k b (s.updLink k (fun x => { x.free 0 with delivered := r })))

/-- A program-lane block of the right step is delivered: an end-to-end answer to the sender's side, the rest to be
landed. -/
def deliverProgram (k : Nat) (b : RxBlock) (s : State) : State :=
  if b.kind = 4 then s.updLink k (fun x => { x.free 0 with answers := x.answers ++ [b.xfer] })
  else
    let s := s.updLink k (fun x => { x with delivered := x.delivered ++ [b] })
    drainLink k (s.link k).delivered.length s

/-- A block of the program lane is compared with RX_STEP (R414). -/
def comparedProgram (k : Nat) (b : RxBlock) (s : State) : State :=
  match stepCompare b.step (s.link k).rxStep with
  | .same => deliverProgram k b s
  | .ahead => s.updLink k (fun x => { x with held := (x.held + 1) % 2 ^ 32, heldBlocks := x.heldBlocks ++ [b] })
  | .skew => stepSkewFault k (s.updLink k (fun x => x.free 0))

/-- A block whose tag differs from TAG (R410). -/
def RxBlock.foreignTo (b : RxBlock) (x : Link) : Bool := b.tag != x.bindTag

/-- A good block of a lane is taken in; one of the Kudu or control lane keeps its receive-buffer space until the packet that
it carries is handled (R399, R414). A miscabled link carries no job traffic (R408). -/
def takeBlock (k : Nat) (b : RxBlock) (s : State) : State :=
  if 2 < b.lane then s
  else if (s.link k).miscabled then s.updLink k (fun x => x.free b.lane)
  else if b.foreignTo (s.link k) then
    let s := s.updLink k (fun x => { x.free b.lane with foreign := (x.foreign + 1) % 2 ^ 32 })
    if b.lane = 0 ∧ b.kind = 1 then sendAnswer k b.xfer b.tag b.step false s else s
  else if b.lane = 0 then comparedProgram k b s
  else if b.lane = 1 then s.updLink k (fun x => { x with kuduIn := x.kuduIn + 1 })
  else s.updLink k (fun x => { x with ctrlIn := x.ctrlIn + 1 })

/-- LINK_BLOCK_ARRIVAL (R397): a block with its header, payload and check code; `parity` says that its parity could be
corrected. One that fails is discarded and NAK set; a good one takes effect. -/
def execLinkBlockArrival (link : LinkId) (header : BitVec 128) (payload : List Byte) (code : DWord) (parity : Bool)
    (s : State) : Out :=
  .next (
    let k := link.val
    let x := s.link k
    let h := header.toNat
    if x.run != .up && x.run != .closing then s
    else
    let s := s.noteLink (if bits h 36 2 = 3 then 0 else s.jobOfLink k) 1
    if !parity || crc64 (leBytes 16 h ++ payload) != code.toNat || bits h 112 16 != x.rxSeq then
      s.updLink k (fun x => { x with crcFail := (x.crcFail + 1) % 2 ^ 32, nak := true })
    else
      let s := linkRuns k (sendLink k (fun x => { x.takeHeader h with rxSeq := (x.rxSeq + 1) % 65536 }) s)
      takeBlock k (RxBlock.ofBits h payload) s)

/-! ## Transfers from a neighbour (R410, R411) -/

/-- Every row of a transfer lies in a range. -/
def rowsWithin (addr pitch rows rowBytes lo len : Nat) : Bool :=
  (List.range rows).all (fun r => within (addr + r * pitch) rowBytes lo len)

/-- The rows lie in a buddy slot of the job, on a link of the z− face, over which a neighbour's checkpoint comes: while this
module takes the same checkpoint, in the slot of its number (R521; log 48). -/
def State.landsInBuddy (s : State) (k addr pitch rows rowBytes : Nat) : Bool :=
  let J := s.job (s.jobOfLink k)
  let slots := match J.health.run with
    | some r => [2 + r.slot]
    | none => [2, 3]
  J.faceOf k == some 4 && slots.any (fun n => match J.health.areas[n]? with
    | some a => rowsWithin addr pitch rows rowBytes a.base a.size
    | none => false)
/-- The rows lie in the link's landing range, or in a buddy slot (R410, R521). -/
def State.mayLand (s : State) (k addr pitch rows rowBytes : Nat) : Bool :=
  let x := s.link k
  rowsWithin addr pitch rows rowBytes x.landBase (x.landSize * 4096) || s.landsInBuddy k addr pitch rows rowBytes

/-- LINK_WRITE_ARRIVAL (R409, R410): the transfer header at the front of the delivered blocks names these rows. -/
def execLinkWriteArrival (link : LinkId) (addr pitch rows rowBytes : Nat) (s : State) : Out :=
  .next (
    let k := link.val
    match (s.link k).delivered with
    | [] => s
    | b :: r =>
      if b.kind != 1 then s
      else
        let ok := s.mayLand k addr pitch rows rowBytes
        let l : Landing := {
          xfer := b.xfer, addr := addr, pitch := pitch, rows := rows, rowBytes := rowBytes, refused := !ok
          buddy := s.landsInBuddy k addr pitch rows rowBytes }
        let s := s.updLink k (fun x => { x.free 0 with delivered := r, landing := x.landing ++ [l] })
        let s := if ok then finishLanding k l s
          else sendAnswer k b.xfer b.tag b.step false (s.updLink k (fun x => { x with refused := (x.refused + 1) % 2 ^ 32 }))
        drainLink k (s.link k).delivered.length s)

/-- LANDING_SIGNAL (R411): a landed transfer signals LK_LAND_SYNC by +1, with Ibex firmware as the last signaller. -/
def execLandingSignal (link : LinkId) (s : State) : Out :=
  .next (
    let k := link.val
    let x := s.link k
    if x.landed = 0 then s
    else signalFw (s.jobOfLink k) (s.partOfLink k) x.landSync (s.updLink k (fun x => { x with landed := x.landed - 1 })))

/-- RX_STEP is written, and held blocks of that step are delivered in order (R413, R414). -/
def setRxStep (k step : Nat) (s : State) : State :=
  let hb := (s.link k).heldBlocks
  let s := s.updLink k (fun x => { x with
    rxStep := step % 65536, heldBlocks := hb.filter (fun b => b.step != step % 65536) })
  (hb.filter (fun b => b.step == step % 65536)).foldl (fun s b => deliverProgram k b s) s

/-- The commit entries of a job that are not OFF, by key of each share (R375). -/
def State.comsOf (s : State) (j : Nat) : List Nat :=
  (s.coms.filter (fun e => e.2.state != .off && (s.red e.1).job == j)).map (·.1)

/-! ## Retrain, training, light (R398, R400, R402) -/

/-- A laser source module that its engine can use. -/
def Laser.usable (x : Laser) : Bool := x.present && !x.shorted
def State.laser (s : State) (n : Nat) : Laser := Sparse.get {} s.lasers n
/-- An engine has light to send: it and the laser branches are powered (Table 22-3), and one of its two laser source modules can be
used (Table 15-5). -/
def State.engineLit (s : State) (e : Nat) : Bool :=
  s.power.optics && s.power.lasers && ((s.laser (2 * e)).usable || (s.laser (2 * e + 1)).usable)

/-- A link that carries blocks retrains: it leaves UP, or, where it is draining, sends nothing until it is back (R398,
R400). -/
def startRetrain (k : Nat) (s : State) : State :=
  let s := s.updLink k (fun x => { x with retrain := (x.retrain + 1) % 2 ^ 32 })
  if (s.link k).run = .closing then s.updLink k (fun x => { x with darkClose := true }) else setLinkRun k .retraining s
/-- The link carries blocks: it is UP, or draining with its light. -/
def Link.carries (x : Link) : Bool := x.run == .up || (x.run == .closing && !x.darkClose)

/-- LINK_RETRAIN (R398): one SEQ has been sent 8 times, a wavelength is dark, or error correction has lost lock. -/
def execLinkRetrain (link : LinkId) (lockLost : Bool) (s : State) : Out :=
  .next (
    let x := s.link link.val
    if x.carries && (lockLost || x.light != 15 || x.replay.any (fun b => decide (8 ≤ b.sends)))
    then startRetrain link.val s else s)

/-- RETRAIN_END (R398): with four wavelengths and light to send (R402), the link is UP again and resumes from the first
unacknowledged block; one that was disabled meanwhile drains (R400). -/
def execRetrainEnd (link : LinkId) (s : State) : Out :=
  .next (
    let k := link.val
    let x := s.link k
    if x.light != 15 || !s.engineLit (k / 8) then s
    else if x.run = .closing && x.darkClose then
      linkRuns k (sendLink k (fun x => ({ x with darkClose := false }).resendAll.flush) s)
    else if x.run != .retraining then s
    else linkRuns k (flushFaces (s.jobOfLink k) (sendLink k (fun x => x.resendAll.flush) (setLinkRun k .up s))))

/-- LINK_FAIL_TIMEOUT (R398): 40 ms have passed since the link left UP; one that was to drain abandons its blocks. -/
def execLinkFailTimeout (link : LinkId) (s : State) : Out :=
  .next (
    let k := link.val
    let x := s.link k
    if x.run = .retraining then failLink k s
    else if x.run = .closing && x.darkClose then abandonBlocks k s
    else s)

/-- ORIENTATION_STEP (Table 15-3): an enabled end without a training pattern uses its pair the other way round. -/
def execOrientationStep (link : LinkId) (s : State) : Out :=
  .next (if (s.link link.val).run = .down then s.updLink link.val (fun x => { x with swapped := !x.swapped }) else s)

/-- TRAINING_PATTERN_RECEIVED (R400): DOWN becomes TRAINING. -/
def execTrainingPatternReceived (link : LinkId) (s : State) : Out :=
  .next (
    if (s.link link.val).run = .down ∧ s.engineLit (link.val / 8) then
      setLinkRun link.val .training (s.updLink link.val (fun x => { x with light := 15 }))
    else s)

/-- OPTICS (Tables 16-12a, 16-12c): a slot or link of 0xFF names none. -/
def postOptics (engine slot link kind : Nat) (s : State) : State :=
  postEvent 0 Ev.optics (engine * 2 ^ 16 + slot * 2 ^ 8 + link)
    (leBytes 1 engine ++ leBytes 1 slot ++ leBytes 1 link ++ leBytes 1 kind) s

/-- The far end declared a face that does not face this one (R408, Table 15-5). -/
def miscabled (face far : Nat) : Bool := face < 6 && far != face / 2 * 2 + (1 - face % 2)

/-- LINK_UP (Table 15-3): identities are exchanged, SEQ and credits initialised, and the link is UP. Its receive buffers start
empty, as the far end's credits say (R399; log 98). -/
def execLinkUp (link : LinkId) (serial : DWord) (farLink : LinkId) (farFace : Fin 8) (s : State) : Out :=
  .next (
    let k := link.val
    let x := s.link k
    if x.run != .training || !s.engineLit (k / 8) then s
    else
      let bad := miscabled x.face farFace.val
      let s := s.updLink k (fun x => { x with
        farSerial := serial.toNat, farLink := farLink.val, miscabled := bad
        txSeq := 0, rxSeq := 0, credit0 := 512, credit1 := 256, credit2 := 32, replay := [], nak := false
        owed0 := 0, owed1 := 0, owed2 := 0, kuduIn := 0, ctrlIn := 0, heldBlocks := [], delivered := [], landing := []
        darkClose := false })
      let s := setLinkRun k .up s
      let s := if x.swapped then postOptics (k / 8) 0xFF k 2 s else s
      let s := if bad then postOptics (k / 8) 0xFF k 3 s else s
      linkRuns k (flushFaces (s.jobOfLink k) (sendLink k Link.flush s)))

/-- LIGHT_LOSS (Table 15-5): `light` is what a link receives now, one bit for each wavelength. -/
def execLightLoss (link : LinkId) (light : BitVec 4) (s : State) : Out :=
  .next (
    let k := link.val
    let x := s.link k
    let s := s.updLink k (fun x => { x with light := light.toNat })
    if light.toNat = 15 || x.run = .disabled then s
    else
      let s := if light.toNat = 0 then postOptics (k / 8) 0xFF k 1 s
        else if (List.range 4).any (fun w => bit x.light w && !bit light.toNat w) then postOptics (k / 8) 0xFF k 4 s
        else s
      if x.carries then startRetrain k s else if x.run = .training then setLinkRun k .down s else s)

/-- An engine's links without light to send: those that were UP or retraining fail, those in training are DOWN, and those that
were draining abandon their blocks (R398, R402). -/
def darkEngine (e : Nat) (s : State) : State :=
  (List.range 8).foldl (fun s i =>
    let k := 8 * e + i
    match (s.link k).run with
    | .up | .retraining => failLink k s
    | .training => setLinkRun k .down s
    | .closing => abandonBlocks k s
    | _ => s) s

/-- LASER_FAULT (Table 15-5): the module in a slot is absent, or shorted and switched off. While the laser branches are off,
nothing detects it, and it is reported when they come on (`reportLasers`). -/
def execLaserFault (slot : Fin 24) (shorted : Bool) (s : State) : Out :=
  .next (
    let n := slot.val
    let x := s.laser n
    let x := if shorted then { x with shorted := true, powered := false } else { x with present := false, powered := false }
    let s := { s with lasers := Sparse.set s.lasers n x }
    let e := n / 2
    if !s.power.lasers then s
    else if s.engineLit e then postOptics e n 0xFF 5 s
    else darkEngine e (postOptics e n 0xFF 6 s))

/-- The laser branches come on: each absent or shorted module that they meet is reported, as LASER_FAULT reports one (Table 15-5,
R557, R559; log 52). -/
def reportLasers (s : State) : State :=
  (List.range 24).foldl (fun s n =>
    if (s.laser n).usable then s else postOptics (n / 2) n 0xFF (if s.engineLit (n / 2) then 5 else 6) s) s

/-- LASER_INSERT (R554): an inserted module is detected and powered; one put in while the laser branches are off stands there
until they come on. -/
def execLaserInsert (slot : Fin 24) (s : State) : Out :=
  .next (
    let n := slot.val
    let on := s.power.lasers
    let s := { s with lasers := Sparse.set s.lasers n { present := true, shorted := false, powered := on } }
    if on then postOptics (n / 2) n 0xFF 7 s else s)

/-- LK_TX_LO_READ (R401): bits 31:0 on the bus, bits 63:32 latched. -/
def execLkTxLoRead (link : LinkId) (s : State) : Out :=
  .next (
    let x := s.link link.val
    { s.updLink link.val (fun x => { x with txHi := hiWord x.tx }) with busData := leBytes 4 x.tx, busNack := false })

/-! ## Job aborts (R416) -/

/-- The module index of a job's module (section 15.4). -/
def Job.moduleIndex (J : Job) : Nat := J.x + J.lx * (J.y + J.ly * J.z)

/-- A job abort goes out, once, on the control lane of every link bound to the job. -/
def sendAbort (j origin : Nat) (s : State) : State :=
  let J := s.job j
  if !J.bound || J.abortSent then s
  else
    let s := s.updJob j (fun J => { J with abortSent := true })
    J.allLinks.foldl (fun s k =>
      if (s.link k).run = .up ∨ (s.link k).run = .retraining then pushOut k 2 1 J.linkStep (.abort k origin) s else s) s

/-- A job abort that `origin` began is forwarded once, and the context faults with JOB_ABORTED, naming that module (R416). -/
def takeAbort (k origin : Nat) (s : State) : State :=
  let j := s.jobOfLink k
  if !s.jobUsed j || !(s.job j).bound || (s.job j).abortSent then s
  else contextFault j Code.jobAborted origin (sendAbort j origin s)

/-- A job abort or a buddy request arrives on the control lane of link `k`, and `deliver` is what it does. Where the job's links
are bound, its STEP_TAG is compared with the link step: one that is ahead is held with its credit, any other difference
faults the job (R414). A miscabled link carries none (R408). -/
def takeControl (k step : Nat) (origin : Option Nat) (deliver : State → State) (s : State) : State :=
  let j := s.jobOfLink k
  let J := s.job j
  let free (s : State) : State := s.updLink k (fun x => x.handled 2 1)
  if (s.link k).miscabled then free s
  else
    match (if J.bound then stepCompare step J.linkStep else .same) with
    | .same => deliver (free s)
    | .ahead => (s.updJob j (fun J => { J with ctrlHeld := J.ctrlHeld ++ [(k, step, origin)] })).updLink k (fun x =>
        { x with held := (x.held + 1) % 2 ^ 32 })
    | .skew => stepSkewFault k (free s)

/-- JOB_ABORT_RECEIVED (R416, R414): a neighbour's job abort arrives over a link under a STEP_TAG. -/
def execJobAbortReceived (link : LinkId) (origin : Fin 4096) (step : Nat) (s : State) : Out :=
  .next (takeControl link.val step (some origin.val) (takeAbort link.val origin.val) s)

end Sys2Proof.Machine
end

