-- ==== Sys2Proof/Machine/Health.lean ====
section
/-! DEFINITION. Run health and checkpoints (spec/20 sections 20.3, 20.4), and commit requests, which wait for both (R377,
R517, R521). -/

namespace Sys2Proof.Machine

def State.updHealth (s : State) (j : Nat) (f : Health → Health) : State := s.updJob j (fun J => { J with health := f J.health })

/-- The health sweep is on (R517). -/
def Health.on (h : Health) : Bool := h.thresh != 0 || h.ckptEvery != 0
/-- A slot is pinned (R520). -/
def Health.pinned (h : Health) : Bool := h.local0.pinned || h.local1.pinned
def Health.slot (h : Health) (n : Nat) : CkptSlot := if n = 0 then h.local0 else h.local1
def Health.setSlot (h : Health) (n : Nat) (x : CkptSlot) : Health :=
  if n = 0 then { h with local0 := x } else { h with local1 := x }
/-- The first address of a slot's area, in order local 0, local 1, buddy 0, buddy 1 (R519). -/
def Health.area (h : Health) (n : Nat) : Allot := h.areas.getD n ⟨0, 0⟩

/-- The key of a value of Table 20-1 in the shadow copies and lifetime totals. -/
def counterKey (cls index value : Nat) : Nat := cls * 2 ^ 40 + index * 2 ^ 16 + value

namespace Reason
def spike := 1
def noPost := 2
def complete := 3
def failed := 4
end Reason

/-- The post of a step: as it was taken, or, where the step had none, the last loss and the NONFIN flag as it stands. -/
def State.postSeen (s : State) (j step : Nat) : PostSeen :=
  let h := (s.job j).health
  if h.postStep = some step then h.post
  else { loss := h.post.loss, nonfin := (s.part (s.job j).part).nonfin }

/-- A HEALTH event (Table 20-5a) about a step whose post was `x`. -/
def postHealth (j reason slot step : Nat) (x : PostSeen) (s : State) : State :=
  let J := s.job j
  let h := J.health
  let flags := (if x.spike then 1 else 0) + (if h.pinned then 2 else 0) + (if x.nonfin then 4 else 0)
  postEvent J.part Ev.health (j * 256 + reason)
    (leBytes 1 j ++ leBytes 1 reason ++ leBytes 1 flags ++ leBytes 1 slot ++ leBytes 4 step ++ leBytes 4 x.loss
      ++ leBytes 4 (rne32 (fmtF64.decode h.ema))
      ++ leBytes 8 (Sparse.get 0 s.period.shadow (counterKey 7 j 5))
      ++ leBytes 8 (Sparse.get 0 s.period.shadow (counterKey 7 j 6))) s

/-! ## Checkpoints (R519 to R522) -/

/-- Reduction and commit entry numbers, die × 64 + entry, of a share's key. -/
def entryOf (k : Nat) : Nat := k / 64 / 4 * 64 + k % 64
/-- The keys of the four shares of an entry number. -/
def sharesOf (e : Nat) : List Nat := (List.range 4).map (fun i => entryKey (e / 64 * 4 + i) (e % 64))
/-- The commit entries of a job, in order. -/
def State.comEntries (s : State) (j : Nat) : List Nat :=
  ((s.comsOf j).map entryOf).foldl (fun l e => if l.contains e then l else l ++ [e]) []

/-- z of R519. -/
def ComEntry.ckptSize (c : ComEntry) : Nat := if c.rule = 0 then 10 else 14
/-- Bytes of one share, and of an entry, in a slot (R519). -/
def ComEntry.shareBytes (c : ComEntry) : Nat := ceilDiv (512 + c.ckptSize * c.used) 4096 * 4096
/-- The size S of a slot for a job (R519). -/
def State.slotSize (s : State) (j : Nat) : Nat :=
  4096 + ((s.comEntries j).map (fun e => 4 * (s.com ((sharesOf e).headD 0)).shareBytes)).sum
/-- The offset of share `k` in a slot that holds entries `es`: entries in order, their shares in order of stacks (log 40). -/
def State.shareAt (s : State) (es : List Nat) (k : Nat) : Nat :=
  4096 + ((es.takeWhile (· != entryOf k)).map (fun e => 4 * (s.com ((sharesOf e).headD 0)).shareBytes)).sum
    + k / 64 % 4 * (s.com k).shareBytes

/-- The bytes of the first `n` bytes of share `k` of an array. -/
def shareBytesOf (s : State) (k x n : Nat) : List Byte :=
  (List.range n).map (fun o => readByte s.mem (shareAddr x (k / 64) o))
/-- The bytes of share `k`'s arrays of slot `c` (section 20.4). -/
def ckptBytes (s : State) (k c : Nat) : List Byte :=
  let x := s.com k
  shareBytesOf s k (x.master c) (6 * x.used) ++ shareBytesOf s k (x.m1 c) (4 * x.used)
    ++ (if x.rule = 0 then [] else shareBytesOf s k (x.m2 c) (4 * x.used))

/-- The status block that a slot holds of share `k`. -/
def State.slotStatus (s : State) (j slot k : Nat) : Nat :=
  readNat s.mem (((s.job j).health.area slot).base + s.shareAt ((s.job j).health.slot slot).entries k) 64

/-- The local slot that the next checkpoint writes (R520). -/
def Health.nextSlot (h : Health) : Nat :=
  if !h.local0.complete then 0 else if !h.local1.complete then 1 else if h.local0.order < h.local1.order then 0 else 1

/-- The first block of a byte range whose memory controller is not enabled (R325). -/
def State.refusedIn (s : State) (a n : Nat) : Option Nat :=
  ((List.range (ceilDiv (a % 4096 + n) 4096)).map (fun i => max (a / 64 * 64) (a / 4096 * 4096 + 4096 * i))).find? (fun b =>
    (s.mc (s.unitOf b)).run != .enabled)
/-- Ibex firmware's own accesses to some byte ranges for job `j`, of which `hits` meet something: a channel that is not enabled
refuses one, a block fails its check four times, or a read meets an uncorrectable block, and the job's context faults (R325,
R328, R329); the code is beside the state. They count for the job (R479). -/
def ibexAccess (j : Nat) (hits : List StackHit) (reads writes : List (Nat × Nat)) (s : State) : Except (Nat × State) State :=
  let touch (rs : List (Nat × Nat)) (a : Nat) : Bool := rs.any (fun r => overlaps a 64 r.1 r.2)
  let stop (code a : Nat) (s : State) : Nat × State := (code, contextFault j code a s)
  let ue (a : Nat) (s : State) : Nat × State := stop Code.dramUncorrectable a (noteUe (s.unitOf a) 0 a s)
  match (reads ++ writes).findSome? (fun r => s.refusedIn r.1 r.2) with
  | some a => .error (stop Code.memRefused a s)
  | none =>
    let s := s.noteRanges j (reads ++ writes)
    match s.badBlocks.find? (touch reads) with
    | some a => .error (ue a s)
    | none => meetHits j (touch reads) (touch writes) (stop Code.memCrc) ue hits s

/-- The checkpoint in progress fails: HEALTH 0x04; commands that waited for it wait for the next. -/
def failCkpt (j : Nat) (s : State) : State :=
  match (s.job j).health.run with
  | none => s
  | some r =>
    postHealth j Reason.failed r.slot r.step r.seen (s.updHealth j (fun h => { h with
      run := none, asked := h.asked ++ h.taking, taking := [] }))

/-- A checkpoint is marked complete (R522). -/
def completeCkpt (j step : Nat) (s : State) : State :=
  match (s.job j).health.run with
  | none => s
  | some r =>
    if r.step != step then s
    else
      let spans := decide (1 < (s.job j).lz)
      let done := (s.job j).health.taking
      let s := s.updHealth j (fun h =>
        let order := max h.local0.order h.local1.order + 1
        let x := { h.slot r.slot with complete := true, pinned := r.code == 0, order := order }
        let h := if r.code = 1 then { h with
          local0 := { h.local0 with pinned := false }, local1 := { h.local1 with pinned := false }
          buddy0 := { h.buddy0 with pinned := false }, buddy1 := { h.buddy1 with pinned := false } } else h
        let h := h.setSlot r.slot x
        let b : CkptSlot := { x with pinned := r.code == 0 }
        let h := if spans then (if r.slot = 0 then { h with buddy0 := b } else { h with buddy1 := b }) else h
        { h with run := none, taking := [] })
      let s := postHealth j Reason.complete r.slot r.step r.seen s
      done.foldl (finishPlain .ok) s

/-- This module has written the checkpoint: the completion sweep begins here (R522). -/
def writtenCkpt (j : Nat) (s : State) : State :=
  match (s.job j).health.run with
  | none => s
  | some r =>
    startSweep j 3 r.step r.step (s.updHealth j (fun h => { h with run := some { r with written := true, buddy := none } }))

/-- The link of a face that a checkpoint's transfer takes: the lowest-numbered one that is UP, or else one whose retrain it
waits for (R411). -/
def State.waitLink (s : State) (J : Job) (f : Nat) : Option Nat :=
  (s.upLink J f).orElse (fun _ => (J.faceLinks f).find? (fun k => (s.link k).run == .retraining && !(s.link k).miscabled))

/-- The local copy is committed: the slot goes to the z+ neighbour where there is one (R521). -/
def sendBuddy (j : Nat) (hits : List StackHit) (s : State) : State :=
  let J := s.job j
  match J.health.run with
  | none => s
  | some r =>
    if J.lz ≤ 1 then writtenCkpt j s
    else
      match s.waitLink J 5 with
      | none => failCkpt j s
      | some k =>
        let a := J.health.area r.slot
        match ibexAccess j hits [(a.base, a.size)] [] s with
        | .error e => e.2
        | .ok s =>
          let x := (s.link k).nextXfer
          let s := s.updLink k (fun l => { l with nextXfer := (x + 1) % 2 ^ 24 })
          let s := pushOut k 0 (blocksOf a.size) J.linkStep (.buddy k x r.slot r.step (readBytes s.mem a.base a.size)) s
          s.updHealth j (fun h => { h with run := some { r with buddy := some (k, x) } })

/-- A checkpoint of step `n` begins on sweep code `code`: the status blocks are captured (R520). The herd mover copies the slot
only afterwards (R521), so no block of the capture carries the check code of R327 (log 100). -/
def beginCkpt (j n code : Nat) (s : State) : State :=
  let s := failCkpt j s
  let h := (s.job j).health
  let slot := h.nextSlot
  let a := (h.area slot).base
  let ks := s.comsOf j
  let kOf := ((ks.head?).map (fun k => Stat.wTag (s.status k))).getD 0
  let es := s.comEntries j
  match ibexAccess j [] (ks.map (fun k => ((s.com k).recordAt (k / 64) + 64, 64)))
      ((a, 4096) :: ks.map (fun k => (a + s.shareAt es k, 64))) s with
  | .error e => e.2
  | .ok s =>
    let s := ks.foldl (fun s k => s.writeMem (a + s.shareAt es k) (leBytes 64 (s.status k))) s
    let s := s.writeMem a (leBytes 4 n ++ leBytes 4 kOf ++ leBytes 1 (if code = 0 then 1 else 0))
    let s := s.updHealth j (fun h =>
      { h.setSlot slot { step := n, k := kOf, code := code, entries := es } with
        run := some { slot := slot, step := n, code := code, entries := es, seen := s.postSeen j n }, taking := h.asked, asked := [] })
    if es.isEmpty then sendBuddy j [] s else s

/-! ## The health sweep (R514 to R518) -/

/-- The health sweep of step `n` has ended with a code (R518, R520). -/
def healthResult (j n code : Nat) (s : State) : State :=
  let s := s.updHealth j (fun h => { h with sweptDone := some n })
  let h := (s.job j).health
  let s := if code = 0 then postHealth j Reason.spike 0 n (s.postSeen j n) s else s
  let due := code == 1 || (!h.pinned && (code == 0 || (code == 2 && h.ckptEvery != 0 && n % h.ckptEvery == 0)))
  if due && !h.areas.isEmpty then beginCkpt j n code s else s

/-- Results of the health and completion sweeps take effect; `fuel` bounds their number. -/
def settleHealth (j : Nat) : Nat → State → State
  | 0, s => s
  | fuel + 1, s =>
    match (s.job j).results.find? (fun r => r.1 == 2 || r.1 == 3) with
    | none => s
    | some (kind, step, v) =>
      let s := s.updJob j (fun J => { J with results := J.results.filter (fun r => r != (kind, step, v)) })
      settleHealth j fuel (if kind = 2 then healthResult j step v s else completeCkpt j v s)

/-- The byte ranges of share `k`'s first `n` bytes of an array at `x`: a granule of each 16 KiB (R373). -/
def shareRanges (k x n : Nat) : List (Nat × Nat) :=
  (List.range (ceilDiv n 4096)).map (fun i => (shareAddr x (k / 64) (4096 * i), min 4096 (n - 4096 * i)))
/-- The ranges of share `k`'s arrays of slot `c` (section 20.4). -/
def ckptRanges (s : State) (k c : Nat) : List (Nat × Nat) :=
  let x := s.com k
  shareRanges k (x.master c) (6 * x.used) ++ shareRanges k (x.m1 c) (4 * x.used)
    ++ (if x.rule = 0 then [] else shareRanges k (x.m2 c) (4 * x.used))
/-- What the copy of entry `n` into a slot at `a` reads, the shares' arrays of the captured slot, and what it writes, their places
in the slot. -/
def State.copyReads (s : State) (j slot n : Nat) : List (Nat × Nat) :=
  (sharesOf n).flatMap (fun k => ckptRanges s k (Stat.wTag (s.slotStatus j slot k) % 2))
def State.copyWrites (s : State) (a : Nat) (all : List Nat) (n : Nat) : List (Nat × Nat) :=
  (sharesOf n).map (fun k => (a + s.shareAt all k + 512, (s.com k).shareBytes - 512))

/-- CHECKPOINT_COPY_END (R521, R522): the copy of one entry into the local slot has finished, unless one of its accesses has
failed (R325, R328, R329). It comes later than a mover write that is sent again to a block that it copies (R330). -/
def execCheckpointCopyEnd (j : BitVec 8) (die : Fin 4) (e : Fin 64) (hits : List StackHit) (s : State) : Out :=
  .next (
    let j := j.toNat
    let n := die.val * 64 + e.val
    match (s.job j).health.run with
    | none => s
    | some r =>
      let a := ((s.job j).health.area r.slot).base
      let all := ((s.job j).health.slot r.slot).entries
      let reads := s.copyReads j r.slot n
      let writes := s.copyWrites a all n
      if !r.entries.contains n || s.rangesWait (reads ++ writes) then s
      else
        match ibexAccess j hits reads writes s with
        | .error e => e.2
        | .ok s =>
        let s := (sharesOf n).foldl (fun s k =>
          s.writeMem (a + s.shareAt all k + 512) (ckptBytes s k (Stat.wTag (s.slotStatus j r.slot k) % 2))) s
        let es := r.entries.filter (· != n)
        let s := s.updHealth j (fun h => { h with run := some { r with entries := es } })
        if es.isEmpty then settleHealth j 4 (sendBuddy j hits s) else s)

/-- This module contributes to the health sweep of step `n`, once (R517). -/
def contribute (j n code : Nat) (s : State) : State :=
  if (s.job j).health.swept = some n then s
  else settleHealth j 4 (startSweep j 2 n code (s.updHealth j (fun h => { h with swept := some n })))

/-- The check of a taken post (R514): the new EMA and warm, and whether it is a spike. -/
def Health.check (h : Health) (loss : Nat) : Health × Bool :=
  if h.thresh = 0 then (h, false)
  else
    let l := f32 loss
    let ema := fmtF64.decode h.ema
    let spike := l.nonfinite || (h.warm == 16 && (rne64 (ema.mul (f32 h.thresh))).lt false l)
    if spike then (h, true)
    else
      let next := if h.warm = 0 then l else rne64 (ema.add (rne64 ((f32 h.alpha).mul (rne64 (l.add ema.neg)))))
      ({ h with ema := fmtF64.ieee next, warm := min (h.warm + 1) 16 }, false)

/-- The code that this module contributes to a health sweep (R517). -/
def Health.sweepCode (h : Health) (spike : Bool) : Nat := if spike then 0 else if h.asked.isEmpty then 2 else 1

/-- The loss tile of a partition (R512). -/
def State.lossTile (s : State) (p : Nat) : Nat := (s.part p).herds.headD 0 * 32

/-- Ibex takes, discards or leaves the pending post of a job that holds its herds (R513). -/
def takePost (j : Nat) (s : State) : State :=
  let J := s.job j
  let t := s.lossTile J.part
  let x := (s.tile t).loss
  if !x.posted then s
  else
    let p := x.step.toNat
    let clear (s : State) := s.updTile t (fun T => { T with loss := { T.loss with posted := false } })
    if p = J.linkStep then
      let (h, spike) := J.health.check x.post.toNat
      let s := clear (s.updHealth j (fun _ => { h with
        posts := satAdd max32 h.posts 1, spikes := if spike then satAdd max32 h.spikes 1 else h.spikes
        postStep := some p, post := ⟨spike, (s.part J.part).nonfin, x.post.toNat⟩ }))
      if h.on then contribute j p (h.sweepCode spike) s else s
    else if newer 32 J.linkStep p then clear (s.updHealth j (fun h => { h with stale := satAdd max32 h.stale 1 }))
    else s

/-! ## Commit requests (R377) -/

/-- A request of share `k` for step `n` has to wait: for the health sweep of the step (R517), or for a checkpoint's copy
of the slot that its commit would write (R521). -/
def State.requestWaits (s : State) (k n : Nat) : Bool :=
  let j := (s.red k).job
  let h := (s.job j).health
  (h.on && h.sweptDone != some n)
    || (match h.run with
        | none => false
        | some r => r.entries.contains (entryOf k) && !((s.red k).globalNf || Req.forceSkip (s.request k))
            && (Stat.wTag (s.status k) + 1) % 2 == Stat.wTag (s.slotStatus j r.slot k) % 2)

/-- The request is accepted, and the transfer that brought it has its answer (R377, R57), unless the write of the status block
fails (R328). -/
def acceptRequest (k : Nat) (hits : List StackHit) (s : State) : State :=
  let x := s.red k
  let skip := x.globalNf || Req.forceSkip (s.request k)
  let t := setBits (setBits (s.status k) 128 32 x.step) 160 1 (if skip then 1 else 0)
  let w := statusWrite s k t
  match kuduAccess k hits [] [w.1] s with
  | .error s => s
  | .ok s => answerRequest k ((s.writeMem w.1 w.2).updCom k (fun c => { c with
      state := .committing, busy := true, request := false, held := false }))

/-- The request's fault, if any (R367, R377). -/
def State.requestFault (s : State) (k : Nat) : Option Nat :=
  let x := s.red k
  let r := s.request k
  if x.state != .complete then some Code.redIncomplete
  else if Req.reserved r != 0 || Req.step r != x.step || Stat.accStep (s.status k) == x.step then some Code.commitReq
  else none

/-- A commit request of step `n` waits. Without a taken post, this module contributes code 2 and counts the step; a post that
was taken before the sweep was turned on contributes now (R515, R517). -/
def noPost (j n : Nat) (s : State) : State :=
  let h := (s.job j).health
  if h.on && h.swept != some n then
    if h.postStep = some n then contribute j n (h.sweepCode h.post.spike) s
    else
    let s := s.updHealth j (fun h => { h with noPosts := satAdd max32 h.noPosts 1 })
    contribute j n 2 (postHealth j Reason.noPost 0 n (s.postSeen j n) s)
  else s

/-- Kudu reads the shard record of share `k`: the request is handled by `go`, or dropped where it faults the context (R367, R377)
or a read fails (R328, R329). -/
def readRequest (k : Nat) (hits : List StackHit) (s : State) (go : List StackHit → State → State) : State :=
  let a := (s.com k).recordAt (k / 64)
  let drop (s : State) : State := s.updCom k (fun c => { c with request := false, held := false })
  match kuduAccess k hits [a, a + 64] [] s with
  | .error s => drop s
  | .ok s =>
    match s.requestFault k with
    | some code => redFault k code a (drop s)
    | none => go (leftHits s k hits [a, a + 64] []) s

/-- A request that has to wait goes into the Kudu's queue, and its crossing entries free, or it stays in them where that queue is
full (R57). -/
def deferRequest (k : Nat) (s : State) : State :=
  if s.deferred (k / 64) < Config.deferDepth (k / 64) then
    (s.com k).askers.foldl (fun s a => moverRuns (herdOf a.1) s) ((dropAskers k s).updCom k (fun c => { c with held := true }))
  else s

/-- COMMIT_REQUEST (R377): a request that stands before its Kudu faults the context, waits, or is accepted; a second one while
the commit runs faults too. `hits` is what Kudu's accesses meet; one that has to wait (R330) comes later. -/
def execCommitRequest (stack : Stack) (e : Fin 64) (hits : List StackHit) (s : State) : Out :=
  .next (
    let k := entryKey stack.val e.val
    let c := s.com k
    if !c.request || c.held || !(c.state == .ready || c.busy) || s.kuduWaits k then s
    else readRequest k hits s (fun hits s =>
      let n := (s.red k).step
      let s := noPost (s.red k).job n s
      if s.requestWaits k n then deferRequest k s else acceptRequest k hits s))

/-- COMMIT_REQUEST_RESUME (R517, R521): a held request is accepted once nothing holds it, or faults where its entry has
changed meanwhile (R367). -/
def execCommitRequestResume (stack : Stack) (e : Fin 64) (hits : List StackHit) (s : State) : Out :=
  .next (
    let k := entryKey stack.val e.val
    let c := s.com k
    if !c.held || c.busy || c.state != .ready || s.kuduWaits k || s.requestWaits k (s.red k).step then s
    else readRequest k hits s (acceptRequest k))

/-- The sweep has been turned on while commit requests are held: they wait for it now, and without a post this module contributes
(R517). -/
def heldPosts (j : Nat) (s : State) : State :=
  ((s.comsOf j).filter (fun k => (s.com k).held)).foldl (fun s k => noPost j (s.red k).step s) s

/-! ## End-to-end answers (R411) and buddy slots (R523) -/

/-- A LINK_WRITE of a tile is answered. -/
def mvAnswered (t : Nat) (o : MoverOp) (ok : Bool) (s : State) : State :=
  if ok then chargeBytes (s.jobOfTile t) (o.desc.rows * o.desc.rowBytes) (updMover t o.num (fun o => { o with answeredOk := true }) s)
  else moverFault t o Code.linkRefused 0 s

/-- END_TO_END_ANSWER (R410, R411): the first answer received completes its LINK_WRITE or a checkpoint's transfer, or ends
it. -/
def execEndToEndAnswer (link : LinkId) (ok : Bool) (s : State) : Out :=
  .next (
    let k := link.val
    match (s.link k).answers with
    | [] => s
    | x :: r =>
      let s := s.updLink k (fun l => { l with answers := r })
      match s.tiles.findSome? (fun e =>
          (e.2.mover.find? (fun o => o.desc.kind == 4 && o.desc.link == k && o.sentAll && o.xfer == x)).map (fun o => (e.1, o))) with
      | some (t, o) => mvAnswered t o ok s
      | none =>
        match s.jobs.find? (fun e => match e.2.health.run with | some q => q.buddy == some (k, x) | none => false) with
        | none => s
        | some (j, _) => if ok then settleHealth j 4 (writtenCkpt j s) else failCkpt j s)

/-- The slot of two that a rollback selects: the pinned one, or else the newest complete one (R523). -/
def selectSlot (a b : CkptSlot) : Option Nat :=
  if a.complete && a.pinned then some 0 else if b.complete && b.pinned then some 1
  else if a.complete && (!b.complete || decide (b.order < a.order)) then some 0
  else if b.complete then some 1 else none

/-- A slot's bytes with its pin as it stands in byte 8 of the header (R523; log 40). -/
def slotBytes (s : State) (a : Allot) (pinned : Bool) : List Byte :=
  let b := readBytes s.mem a.base a.size
  b.take 8 ++ leBytes 1 (if pinned then 1 else 0) ++ b.drop 9

/-- A neighbour's request for a buddy slot over link `k`: Ibex firmware sends the pinned one, or else the newest complete one
(R523), unless one of the reads fails (R325, R328, R329). -/
def serveBuddy (k : Nat) (hits : List StackHit) (s : State) : State :=
  let j := s.jobOfLink k
  let J := s.job j
  let h := J.health
  match (if h.areas.isEmpty then none else selectSlot h.buddy0 h.buddy1) with
  | none => s
  | some n =>
    let a := h.area (2 + n)
    match ibexAccess j hits [(a.base, a.size)] [] s with
    | .error e => e.2
    | .ok s =>
      let x := (s.link k).nextXfer
      let s := s.updLink k (fun l => { l with nextXfer := (x + 1) % 2 ^ 24 })
      let slot := if n = 0 then h.buddy0 else h.buddy1
      pushOut k 0 (blocksOf a.size) J.linkStep (.buddy k x n slot.step (slotBytes s a slot.pinned)) s

/-- BUDDY_SLOT_REQUEST (R523, R414): a neighbour's request for a buddy slot arrives over a link under a STEP_TAG. -/
def execBuddySlotRequest (link : LinkId) (step : Nat) (hits : List StackHit) (s : State) : Out :=
  .next (takeControl link.val step none (serveBuddy link.val hits) s)

end Sys2Proof.Machine
end

