-- ==== Sys2Proof/Machine/Faults.lean ====
section
/-! DEFINITION. Hardware faults (spec/16 Table 16-12b; R48, R55, R501): what Ibex firmware reports and stops. -/

namespace Sys2Proof.Machine

/-- Every tile of a partition. -/
def State.partTiles (s : State) (p : Nat) : List Nat :=
  (s.part p).herds.flatMap (fun h => (List.range 32).map (fun i => h * 32 + i))

/-- Ibex firmware stops every partition (R48): no tile runs, no switch goes on, and FW is STOPPED until reset (R425). -/
def stopAll (s : State) : State :=
  let s := s.liveParts.foldl (fun s p =>
    let s := (s.partTiles p).foldl (fun s t =>
      if (s.tile t).alive && (s.tile t).run != .stopped then stopTile t s else s) s
    s.updPart p (fun P => { P with incoming := 0, armed := false, leaving := false, asked := [] })) s
  { s with fw := .stopped }

/-- A hardware fault that stops every partition. -/
def fatalFault (cls idx value : Nat) (s : State) : State := stopAll (postHw cls idx true value s)

/-- A partition faults for a hardware fault: the job that holds its herds, or that is being switched into them, or else every
ready job, with code 0 (R55, R504; log 13). -/
def faultPart (p : Nat) (s : State) : State :=
  let P := s.part p
  if P.holding != 0 then contextFault P.holding 0 0 s
  else if P.incoming != 0 then contextFault P.incoming 0 0 s
  else ((s.jobsOf p).filter (fun j => (s.job j).state == .ready)).foldl (fun s j => contextFault j 0 0 s) s

/-- DROOP (R47): the core slows without stopping, and only time passes. -/
def execDroop (_domain : Nat) (s : State) : Out := .next s

end Sys2Proof.Machine
end

