-- ==== Sys2Proof/Machine/Chamois.lean ====
section
/-! DEFINITION. Chamois (spec/19) and the core rails (spec/02 sections 2.2, 2.3): voltage steps, the energy account,
pacing, ceilings, margins, wear records, and the release report at which they act. -/

namespace Sys2Proof.Machine

/-! ## The rails (R40 to R45) -/

/-- RAIL_SETTLED (R45, Table 2-3): a domain, a quad or 128 for the spine, has settled; the spine is lowered once every
quad domain is at or below the new step. -/
def execRailSettled (domain : Nat) (s : State) : Out :=
  .next (
    let s := if domain = 128 then { s with spineSettled := true }
      else if domain < s.quadCount then s.updQuad domain (fun x => { x with settled := true }) else s
    let qs := List.range s.quadCount
    let top := (qs.map (fun q => (s.quad q).step)).foldl max 0
    if qs.all (fun q => (s.quad q).settled) && decide (top < s.spineStep) then
      { s with spineStep := top, spineSettled := false } else s)

/-! ## Margins and bars (R502 to R504) -/

/-- What waits for a domain at a boundary takes effect: its code rises or falls, a step is barred. Step 0 barred is a
hardware fault. -/
def quadBoundary (q : Nat) (s : State) : State :=
  let x := s.quad q
  let code := if x.rise then min 7 (x.margin + 1) else if x.fall then x.margin - 1 else x.margin
  let bar := match x.barNext, x.barred with
    | some b, some c => some (min b c)
    | some b, none => some b
    | none, c => c
  let s := s.updQuad q (fun x => { x with margin := code, rise := false, fall := false, barNext := none, barred := bar })
  let s := match bar with
    | some b => if (Sparse.find s.flash.bars q) = some b then s else { s with flash := s.flash.bar q b }
    | none => s
  if bar = some 0 ∧ x.barred ≠ some 0 then
    let p := s.partOfQuad q
    let s := postHw 0x23 q false 0 s
    if p = 0 then s else faultPart p s
  else s

/-- The code-7 equivalent of a slack at a code, in 0.01% (R525). -/
def slack7 (slack code : Nat) : Int := 10000 - (((10000 - slack) * (100 + 3 * code) + 120) / 121 : Nat)

/-- A domain's monitors report a slack: below 5%, its code is to rise or its step to be barred. -/
def readSlack (r : SlackReading) (s : State) : State :=
  if s.quadCount ≤ r.quad then s
  else
    let k := (s.quad r.quad).step
    let s := s.updQuad r.quad (fun x =>
      let low := match Sparse.find x.slack k with | some v => min v r.slack | none => r.slack
      let day := match x.dayLow with | some v => min v r.slack | none => r.slack
      let low7 := match x.low7 with | some v => min v (slack7 r.slack x.margin) | none => slack7 r.slack x.margin
      let x := { x with slack := Sparse.set x.slack k low, low7 := some low7, dayLow := some day }
      if 500 ≤ r.slack then x
      else if x.margin < 7 then { x with rise := true }
      else { x with barNext := match x.barNext with | some b => some (min b k) | none => some k })
    if s.partOfQuad r.quad = 0 then quadBoundary r.quad s else s

/-- MARGIN_DAILY_LOWER (R502): 24 hours have passed; domains whose monitors reported ample slack throughout fall by one, at
their next boundary or at once where no partition holds them. -/
def execMarginDailyLower (s : State) : Out :=
  .next ((List.range s.quadCount).foldl (fun s q =>
    let x := s.quad q
    let ample := match x.dayLow with | some v => decide (1200 ≤ v) | none => false
    let s := s.updQuad q (fun x => { x with dayLow := none, fall := x.fall || (ample && decide (0 < x.margin)) })
    if s.partOfQuad q = 0 then quadBoundary q s else s) s)

/-- The lowest code-7 equivalent slack over all domains since the last wear record, with its quad. -/
def State.lowestSlack7 (s : State) : Int × Nat :=
  (List.range s.quadCount).foldl (fun b q =>
    match (s.quad q).low7 with
    | some v => if v < b.1 then (v, q) else b
    | none => b) (10000, 0)

/-- Lifetime corrected errors by stack and channel, and their sum; lifetime link resends by engine (Table 20-1). -/
def State.unitCe (s : State) : List Nat := (List.range 32).map (fun u => Sparse.get 0 s.period.lifetime (counterKey 3 u 0))
def State.lifeCe (s : State) : Nat := s.unitCe.sum
def State.engineResends (s : State) : List Nat :=
  (List.range 12).map (fun e => ((List.range 8).map (fun i => Sparse.get 0 s.period.lifetime (counterKey 5 (8 * e + i) 0))).sum)

/-- WEAR_RECORD (R524): the record of the last 24 powered hours, with the highest temperatures ever recorded (R505); an
interrupted one is invalid and leaves the one before it. -/
def execWearRecord (interrupted : Bool) (s : State) : Out :=
  .next (
      let qs := List.range s.quadCount
      let (s7, q7) := s.lowestSlack7
      let before := s.flash.wear.head?
      let top (a b : Option Int) : Option Int := match a with | some x => some (match b with | some y => max x y | none => x) | none => b
      let r : WearRec := {
        hours := s.flash.hours + 24
        codes := qs.map (fun q => (q, (s.quad q).margin))
        slacks := qs.flatMap (fun q => (s.quad q).slack.map (fun e => (q, e.1, e.2)))
        s7 := s7
        s7Quad := q7
        topCode := (qs.map (fun q => (s.quad q).margin)).foldl max 0
        junction := top s.chamois.topJunction (before.bind (·.junction))
        hbm := top s.chamois.topHbm (before.bind (·.hbm))
        trips := s.flash.trips
        ce := s.unitCe
        resends := s.engineResends }
      if interrupted then { s with flash := s.flash.writeWear r false }
      else
      let s := qs.foldl (fun s q => s.updQuad q (fun x => { x with slack := [], low7 := none })) s
      { s with flash := s.flash.writeWear r true })

/-! ## Samples and windows (R492 to R494, R498, R500) -/

/-- The activity keys of a herd in the sample that ends: of the job that holds it, and of those that held it before (R488). -/
def State.actKeys (s : State) (h : Nat) : List Nat :=
  (s.actKey h :: (s.chamois.acts.map (·.1)).filter (fun k => k % 65536 == h)).eraseDups
/-- The core energy at step 8 of one activity key, in pJ (Table 19-1, R492): its counters, and the herd-memory accesses and
router or bridge transfers that they have added, which are free (log 99). -/
def State.actBase (s : State) (k : Nat) : Nat :=
  let a : HerdActivity := Sparse.get {} s.chamois.acts k
  410 * a.mx4 + 230 * a.mx8 + 200 * a.mx16 + 40 * a.vx + 25 * Config.memAccesses s.free k + 60 * Config.netTransfers s.free k
/-- The core voltage of a quad in mV. -/
def State.quadVolt (s : State) (q : Nat) : Nat := stepVolt (s.quad q).step
/-- The energy of some activity keys, at the voltage of their herds' quads. -/
def State.actEnergy (s : State) (ks : List Nat) : Rat :=
  (ks.map (fun k => (s.actBase k : Rat) * ((s.quadVolt (k % 65536 / 4) * s.quadVolt (k % 65536 / 4) : Nat) : Rat) / 562500)).sum
/-- Energy of block accesses and link blocks, in pJ. -/
def BlockUse.energy (b : BlockUse) : Rat := ((2300 * b.hbm + 15000 * b.ddr + 310 * b.link : Nat) : Rat)
/-- Every herd that the module has. -/
def State.allHerds (s : State) : List Nat := List.range s.herdCount

/-- The hottest sensor of a quad domain, and of the spine (R492). -/
def hottestOf (temps : List QuadTemp) (q : Nat) : Int :=
  ((temps.filter (fun t => t.quad == q)).map (·.junction)).max?.getD 0
def hottestAll (temps : List QuadTemp) : Int := (temps.map (·.junction)).max?.getD 0
/-- Leakage of some quad domains in a sample, in pJ, and of the spine domain. -/
def State.quadLeak (s : State) (temps : List QuadTemp) (qs : List Nat) : Rat :=
  (((qs.map (fun q => Config.leakage q (s.quadVolt q) (hottestOf temps q))).sum : Nat) : Rat)
def State.spineLeak (s : State) (temps : List QuadTemp) : Rat :=
  (Config.leakage 128 (stepVolt s.spineStep) (hottestAll temps) : Rat)

/-- The uncalibrated charge of a job in a sample, in µJ (R488). -/
def sampleCharge (s : State) (j : Nat) : Rat :=
  (s.actEnergy ((s.allHerds.flatMap s.actKeys).filter (fun k => k / 65536 == j))
    + (Sparse.get {} s.chamois.uses j : BlockUse).energy) / 1000000

/-- A job is charged whole µJ (R488). -/
def chargeEnergy (j : Nat) (n : Nat) (s : State) : State :=
  s.updJob j (fun J => { J with acct := { J.acct with
    now := { J.acct.now with energy := J.acct.now.energy + n }, lifeEnergy := J.acct.lifeEnergy + n } })

/-- Hints of a partition's tiles are collected (R495). -/
def collectHints (p : Nat) (s : State) : State :=
  (s.partTiles p).foldl (fun s t =>
    let hs := (s.tile t).hints
    if hs.isEmpty then s
    else
      (s.updPart p (fun P => { P with
        hintAt := hs.foldl (fun m e => Sparse.set m ((e.1 + 1) * 65536 + t) e.2) P.hintAt })).updTile t
          (fun T => { T with hints := [] })) s

/-- The greater of two readings. -/
def maxReading (a : Option Int) (b : Int) : Option Int :=
  match a with
  | some x => some (max x b)
  | none => some b

/-- A partition's temperatures and pacing at a sample (R498, R500); `strained` says that a module-wide condition holds. -/
def partSample (strained : Bool) (temps : List QuadTemp) (hbmTemps : List StackTemp) (p : Nat) (s : State) : State :=
  let qs := (s.part p).quads
  let dies := qs.map (fun q => s.dieOf (4 * q))
  let at' (j h : Int) : Bool := temps.any (fun t => qs.contains t.quad && decide (j ≤ t.junction))
    || hbmTemps.any (fun t => dies.contains (t.stack / 4) && decide (h ≤ t.temp))
  let pressed := strained || at' 840 760
  s.updPpower p (fun x => { x with
    pacing := if pressed then min 7 (x.pacing + 1) else x.pacing
    pressedAt := if pressed then s.time else x.pressedAt
    hot := at' 800 720
    warmAt := if at' 760 680 then s.time else x.warmAt
    ticks := x.ticks + 1 })

/-- Ibex firmware runs: the module samples and its windows end, while FW is READY, and in STOPPED too (R425, R492, R506). -/
def FwState.runs (f : FwState) : Bool := f == .ready || f == .stopped

/-- CHAMOIS_SAMPLE (R492): the 4 µs sample collects the counters, and reads temperatures, slacks and the memory, optics, DIMM,
control and CXL terms, in pJ; it forms the estimate, charges the jobs, sets pacing, and collects hints and loss posts. -/
def execChamoisSample (other : Nat) (temps : List QuadTemp) (hbmTemps : List StackTemp) (slacks : List SlackReading)
    (s : State) : Out :=
  .next (
    if !s.fw.runs then s
    else
      let c := s.chamois
      let idleHerds := s.allHerds.filter (fun h => s.partOfHerd h == 0)
      let idleQuads := (List.range s.quadCount).filter (fun q => s.partOfQuad q == 0)
      let idle : Rat := (s.actEnergy (idleHerds.flatMap s.actKeys) + s.quadLeak temps idleQuads) / 1000000
      let core : Rat := (s.actEnergy (s.allHerds.flatMap s.actKeys) + s.quadLeak temps (List.range s.quadCount) + s.spineLeak temps) / 1000000
      let outer : Rat := ((c.uses.map (fun e => e.2.energy)).sum + (other : Rat)) / 1000000
      let raw : Rat := (core + outer) * (1073 / 1000)
      let est := raw * c.factor
      let js := s.jobs.map (·.1)
      let charges := js.map (fun j => (j, (sampleCharge s j * c.factor).floor.toNat))
      let charged : Nat := (charges.map (·.2)).sum
      let bases := s.allHerds.map (fun h => (s.partOfHerd h, ((s.actKeys h).map s.actBase).sum))
      let s := charges.foldl (fun s e => chargeEnergy e.1 e.2 s) { s with free := s.free + 1 }
      let rest : Rat := est - (charged : Rat)
      let s := s.updCham (fun c => { c with
        samples := (est :: c.samples).take 5
        window := c.window + est, raw := c.raw + raw, outer := c.outer + (outer + idle) * c.factor
        acts := [], uses := [], total := c.total + est
        modEnergy := c.modEnergy + rest, modLife := c.modLife + rest
        junction := temps.foldl (fun m t => maxReading m t.junction) c.junction
        hbm := hbmTemps.foldl (fun m t => maxReading m t.temp) c.hbm
        topJunction := temps.foldl (fun m t => maxReading m t.junction) c.topJunction
        topHbm := hbmTemps.foldl (fun m t => maxReading m t.temp) c.topHbm })
      let strained := decide (7200 * 20 < s.chamois.samples.sum) || decide ((100 * c.budget : Nat) < s.chamois.carry)
      let s := s.liveParts.foldl (fun s p => collectHints p (partSample strained temps hbmTemps p s)) s
      let s := bases.foldl (fun s a => if a.1 = 0 then s else s.updPpower a.1 (fun x => { x with act := x.act + a.2 })) s
      let s := slacks.foldl (fun s r => readSlack r s) s
      s.liveParts.foldl (fun s p => if (s.part p).holding = 0 || s.fw != .ready then s else takePost (s.part p).holding s) s)

/-- ENERGY_WINDOW (R493, R494, R506): the 1 ms window ends; `measured` is the input energy in µJ. -/
def execEnergyWindow (measured : Nat) (s : State) : Out :=
  .next (
    if !s.fw.runs then s
    else
      let half (r : Option Int) (old : Nat) : Nat := match r with | some v => wrapInt 16 v | none => old
      s.updCham (fun c =>
        let carry := c.carry + c.window - ((c.budget * 1000 : Nat) : Rat)
        let ratio : Rat := if c.raw = 0 then c.factor else (measured : Rat) / c.raw
        { c with
          carry := if carry < 0 then 0 else carry
          factor := if ratio < 9 / 10 then 9 / 10 else if 11 / 10 < ratio then 11 / 10 else ratio
          fixed := c.outer / 1000
          budget := c.nextBudget.getD c.budget
          nextBudget := none
          window := 0, raw := 0, outer := 0, junction := none, hbm := none
          bmcHbm := half c.hbm c.bmcHbm
          bmcJunction := half c.junction c.bmcJunction
          bmcWatts := measured / 1000 % 65536 }))

/-! ## The release report (R316) -/

/-- A partition's boundary: margins and bars, the ceiling, the end of pacing, the step (R496, R498, R500, R502, R504). -/
def partBoundary (p : Nat) (s : State) : State :=
  let s := (s.part p).quads.foldl (fun s q => quadBoundary q s) s
  let x := s.ppower p
  let ceiling := if x.hot then x.ceiling - 1 else if x.warmAt + 10000000 ≤ s.time then min 12 (x.ceiling + 1) else x.ceiling
  let pacing := if x.pressedAt + 1000000 ≤ s.time then 0 else x.pacing
  let s := s.updPpower p (fun x => { x with ceiling := ceiling, pacing := pacing })
  let s := commandStep p (s.chooseStep p) s
  let s := s.updPpower p (fun x => { x with act := 0, ticks := 0 })
  s.updPart p (fun P => { P with
    hintAt := (P.hintAt.filter (fun e => decide (2 ≤ e.1 / 65536))).map (fun e => (e.1 - 65536, e.2)) })

/-- The pre-emption quiesce is armed (R481): the job has held the herds for its slice, and another job is ready. -/
def armQuiesce (j : Nat) (s : State) : State :=
  let J := s.job j
  let P := s.part J.part
  let other := (s.jobsOf J.part).any (fun k => k != j && (s.job k).state == .ready)
  if P.holding = j && !P.armed && !P.leaving && J.td == .none && other && decide (J.weight * 1000000 ≤ J.sliceNs)
  then s.updPart J.part (fun P => { P with armed := true, asked := [] }) else s

/-- A report waits for no flag raised before it (R316). -/
def Report.free (r : Report) : Bool := !(r.fault || r.halt || r.nonfin)

/-- RELEASE_REPORT (R316): Ibex receives the oldest release report of the closing object of job `j`, once every flag raised
before it has reached Ibex. -/
def execReleaseReport (j : BitVec 8) (s : State) : Out :=
  .next (
    let j := j.toNat
    match (s.job j).reports with
    | [] => s
    | r :: l =>
      if !r.free then s else
      let p := (s.job j).part
      let s := s.updJob j (fun J => { J with reports := l, reported := some r })
      let s := if (s.part p).holding = j then partBoundary p s else s
      armQuiesce j (flagAtRelease j s))

/-! ## The hard trip (R501) -/

/-- Rails switch off, and the contents of herd memory, HBM and the DDR tier are lost. -/
def dropMemory (s : State) : State :=
  { s with
    mem := memOfCells ((s.mem.filter (fun e => decide (e.1 < 0x8000000000000))).map (fun e => (e.1, Config.powerOnByte s.free e.1))
      ++ s.mem.filter (fun e => decide (0x8000000000000 ≤ e.1)))
    eccBad := [], eccSoft := [], badBlocks := [], free := s.free + 1 }

/-- The reading of a sensor at which the comparator trips, in 0.125 °C: 112 °C of a junction sensor, 105 °C of an HBM stack. -/
def tripLimit (sensor : Nat) : Int := if sensor < 64 then 896 else 840
/-- The controllers of HBM and DDR are without power: no access reaches one, and the channels are OFF (Table 16-6). -/
def mcsOff (s : State) : State :=
  { s with
    mcs := Sparse.mapVals (fun _ m => if m.run = .enabled ∨ m.run = .training then { m with run := .disabled } else m) s.mcs
    lives := Sparse.mapVals (fun k x => if k / 65536 = 4 then { x with run := .off } else x) s.lives }
/-- A link without power: DISABLED, dark, and with nothing left in its buffers; its counters stand. -/
def Link.unpowered (x : Link) : Link :=
  { x with
    run := .disabled, light := 0, waiting := [], replay := [], nak := false, darkClose := false
    credit0 := 0, credit1 := 0, credit2 := 0, owed0 := 0, owed1 := 0, owed2 := 0, kuduIn := 0, ctrlIn := 0
    heldBlocks := [], delivered := [], landing := [] }
/-- The optics and laser rails are off (R501, Table 22-3): every engine is dark and every link DISABLED, which are OFF (Table
16-6), and no slot is supplied. -/
def opticsOff (s : State) : State :=
  { s with
    links := Sparse.mapVals (fun _ x => x.unpowered) s.links
    lasers := Sparse.mapVals (fun _ x => { x with powered := false }) s.lasers
    lives := Sparse.mapVals (fun k x => if k / 65536 = 2 ∨ k / 65536 = 3 then { x with run := .off } else x) s.lives }

end Sys2Proof.Machine
end

