-- ==== Sys2Proof/Machine/LifeOps.lean ====
section
/-! DEFINITION. Lifecycle objects as other families use them (spec/16 section 16.6): the state of one, and what follows when
it is OFF again. -/

namespace Sys2Proof.Machine

def lifeKey (kind idx : Nat) : Nat := kind * 65536 + idx
def State.life (s : State) (kind idx : Nat) : Life := Sparse.get {} s.lives (lifeKey kind idx)
def State.updLife (s : State) (kind idx : Nat) (f : Life → Life) : State :=
  { s with lives := Sparse.set s.lives (lifeKey kind idx) (f (s.life kind idx)) }

/-- A start-up begins: the lifecycle state, and a DDR channel's MC_STATE (Table 16-6). -/
def beginStart (kind idx : Nat) (w : Nat × Nat) (s : State) : State :=
  let s := s.updLife kind idx (fun x => { x with run := .starting, enables := [w], pend := none, disables := [] })
  if kind = 4 then s.updMc (16 + idx) (fun m => { m with run := .training }) else s

/-- An object is OFF: the DISABLE commands that waited end OK, and a pending enable's start-up begins (Table 16-7). -/
def lifeOff (kind idx : Nat) (s : State) : State :=
  let x := s.life kind idx
  let s := x.disables.foldl (finishPlain .ok) s
  match x.pend with
  | some w => beginStart kind idx w s
  | none => s.updLife kind idx (fun x => { x with run := .off, enables := [], disables := [] })

/-- A teardown moves a reduction or commit entry to OFF (Table 18-4): commands that waited for a start-up in progress end
REJECTED_STATE (R440). -/
def lifeTorn (kind idx : Nat) (s : State) : State :=
  let x := s.life kind idx
  if x.run = .off then s
  else lifeOff kind idx (x.enables.foldl (finishPlain .rejectedState) s)

end Sys2Proof.Machine
end

