-- ==== Sys2Proof/Machine/Partition.lean ====
section
/-! DEFINITION. The fault handler, the quiesce, teardown and switches (spec/17 section 17.8; spec/18 sections 18.4 to 18.6;
spec/11 section 11.4). -/

namespace Sys2Proof.Machine

/-! ## Contexts (Table 18-2) -/

/-- A set of stacks or channels includes a die's four (R470). -/
def dieIn (set d : Nat) : Bool := bits set (4 * d) 4 == 15
/-- The partition has context areas (R476). -/
def State.hasAreas (s : State) (p : Nat) : Bool :=
  let P := s.part p
  P.quads.all (fun q => dieIn P.hbmSet (s.dieOf (4 * q)))

/-- Bytes of all regions of one herd of a job. -/
def Job.regionTotal (J : Job) : Nat := J.regionBase 32
/-- An address lies in a region of a job's herds. -/
def regionCell (herds : List Nat) (total a : Nat) : Bool :=
  herds.contains (a / 0x1000000) && decide (a % 0x1000000 < total)
/-- The keys of the sync objects of a job: its declared herd objects, and the partition's device objects. -/
def State.jobObjs (s : State) (j : Nat) : List Nat :=
  let J := s.job j
  let P := s.part J.part
  P.herds.flatMap (fun h => (J.syncs.filter (fun d => !d.dev)).map (fun d => herdObj h d.obj)) ++ P.devObjs.map devObj

/-- The state of a job as it lies in its partition's herds. -/
def State.contextOf (s : State) (j : Nat) : Ctx :=
  let J := s.job j
  let herds := (s.part J.part).herds
  { tiles := (s.usedTiles j).map (fun t => (t, s.tile t))
    mem := s.mem.filter (fun e => regionCell herds J.regionTotal e.1)
    syncs := (s.jobObjs j).map (fun o => (o, s.sync o)) }

/-- The read of the herds' regions for a save finds their errors (R72): correctable words are written back and counted, and
an uncorrectable one faults the job's context. The caches' correctable words are corrected with them. -/
def readForSave (j : Nat) (s : State) : State :=
  let J := s.job j
  let herds := (s.part J.part).herds
  let mine (w : Nat) : Bool := regionCell herds J.regionTotal (w * 8)
  let bad := s.eccBad.filter mine
  let s := (s.eccSoft.filter mine).foldl (fun (s : State) (w : Nat) =>
    let h := w * 8 / 0x1000000
    { s with herdCe := Sparse.set s.herdCe h (satAdd max32 (Sparse.get 0 s.herdCe h) 1) }) s
  let s := { s with eccSoft := s.eccSoft.filter (fun w => !mine w) }
  let s := (s.usedTiles j).foldl (fun s t => s.updTile t (fun T => { T with vec := { T.vec with cacheSoft := [] } })) s
  match bad with
  | [] => s
  | w :: r => contextFault j Code.memoryUncorrectable (r.foldl min w * 8) s


/-- A job's state is saved (R482, Table 18-4 event 6): traffic that no job pays (R479, R488). -/
def saveCtx (j : Nat) (s : State) : State :=
  let s := readForSave j (s.noteBlocks (partUse (s.job j).part) false ((s.job j).ctxBlocks (s.part (s.job j).part).herds))
  let c := s.contextOf j
  let p := (s.job j).part
  s.updJob j (fun J => { J with ctx := some c, step := s.stepOf p })

/-- The skip slots of a restored tile, with the period counters of the tile as it stands. -/
def keepSkips (new old : Sparse SkipSlot) : Sparse SkipSlot :=
  (List.range 32).foldl (fun m k =>
    let x : SkipSlot := Sparse.get {} new k
    let y : SkipSlot := Sparse.get {} old k
    let z := { x with elems := y.elems, sampled := y.sampled, miss := y.miss }
    if z = {} then m else Sparse.set m k z) []
/-- A restored tile keeps the tile's own period counters, which Table 18-2 does not save (log 41). -/
def Tile.keepCounters (new old : Tile) : Tile :=
  { new with
    remoteReject := old.remoteReject, orphanCount := old.orphanCount, rewindCount := old.rewindCount
    sumAbandon := old.sumAbandon
    tahr := { new.tahr with count := old.tahr.count }
    vec := { new.vec with nonfinCnt := old.vec.nonfinCnt, satCnt := old.vec.satCnt }
    skips := keepSkips new.skips old.skips }

/-- A restored sync object keeps the object's own period counter (R285, log 41). -/
def SyncObj.keepCounters (new old : SyncObj) : SyncObj := { new with releases := old.releases, relSat := old.relSat }

/-- A saved context is restored into the herds (R483): the regions with fresh error codes (R72), the tiles and the sync objects
with the period counters that stand there, and the partition's other objects at their reset values (R284). A job's first
context is restored as its load left it, with the counters 0 (Table 17-8 event 2, R284). -/
def restoreCtx (j : Nat) (c : Ctx) (s : State) : State :=
  let s := vecLeave (s.job j).part (s.noteBlocks (partUse (s.job j).part) false ((s.job j).ctxBlocks (s.part (s.job j).part).herds))
  let J := s.job j
  let P := s.part J.part
  let first := !J.everHeld
  let mine (w : Nat) : Bool := regionCell P.herds J.regionTotal (w * 8)
  let s := { s with
    mem := memOfCells (s.mem.filter (fun (e : Host.Cell) => !regionCell P.herds J.regionTotal e.1) ++ c.mem)
    eccBad := s.eccBad.filter (fun w => !mine w), eccSoft := s.eccSoft.filter (fun w => !mine w) }
  let s := (s.partTiles J.part).foldl (fun (s : State) t =>
    let T := Sparse.get Tile.reset c.tiles t
    s.setTile t (if first then T else T.keepCounters (s.tile t))) s
  let old := s.syncs
  let put (s : State) (o : Nat) (x : SyncObj) : State :=
    s.setSync o (if first then x else x.keepCounters (Sparse.get {} old o))
  let s := (P.herds.flatMap (fun h => (List.range 256).map (herdObj h)) ++ P.devObjs.map devObj).foldl
    (fun (s : State) (o : Nat) => if (Sparse.find s.syncs o).isSome then put s o {} else s) s
  let s := c.syncs.foldl (fun (s : State) e => put s e.1 e.2) s
  vecEnter j (s.updPart J.part (fun P => { P with resident := j }))

/-! ## Teardown (Table 18-4) -/

/-- The quiesce barrier of a teardown is sent (event 1). -/
def beginTeardown (j : Nat) (s : State) : State :=
  let p := (s.job j).part
  (s.updJob j (fun J => { J with td := .quiesce, answered := [] })).updPart p (fun P => { P with asked := [] })

/-- Event 2: tiles that are neither FAULTED nor HALTED are STOPPED, and outstanding operations end. -/
def stopContext (j : Nat) (s : State) : State :=
  let s := (s.usedTiles j).foldl (fun s t =>
    match (s.tile t).run with
    | .faulted | .halted => endOps t s
    | _ => stopTile t s) s
  s.updJob j (fun J => { J with td := .clean })

/-- The tiles of an item in the sync network, and its object. -/
def SyncPkt.touches (ts os : List Nat) (p : SyncPkt) : Bool :=
  match p.op with
  | .signal o _ _ _ _ => os.contains o
  | .arrival t o _ _ _ _ _ => ts.contains t || os.contains o
  | .answer t o _ _ _ _ => ts.contains t || os.contains o
  | .wait t o _ => ts.contains t || os.contains o

/-- Event 4 for the tiles that hold the job: ports reset, everything in flight discarded, open sums abandoned. A request or
packet that has not been delivered counts as discarded at its receiver's reset port (R261, R270). -/
def discardFlights (j : Nat) (s : State) : State :=
  let ts := s.usedTiles j
  let os := s.jobObjs j
  let s := (s.msgs.filter (fun e => ts.contains e.2.dst && (e.2.recv == .request || e.2.recv == .packet
      || e.2.recv == .rewound || e.2.recv == .landed))).foldl
    (fun (s : State) e => s.updTile e.2.dst (fun T => T.countOrphan 1)) s
  let s := ts.foldl (fun s t => (List.range 8).foldl (fun s w => abandonSums t w s) (resetPort t s)) s
  let s := ts.foldl (fun s t => s.updTile t (fun T => { T with
    windows := Sparse.mapVals (fun _ w => { w with inFlight := 0 }) T.windows })) s
  { s with
    msgs := s.msgs.filter (fun e => !(ts.contains e.2.sender || ts.contains e.2.dst))
    puts := s.puts.filter (fun e => !(ts.contains e.2.sender || ts.contains e.2.dst))
    syncMsgs := s.syncMsgs.filter (fun e => !e.2.touches ts os) }

/-- Reduction entries that a refused contribution made FAULTED while their lifecycle object was OFF (R352). -/
def State.strayReds (s : State) : List Nat :=
  (s.reds.filter (fun e => e.2.state == .faulted && (s.life 5 (entryOf e.1)).run == .off)).map (·.1)

/-- Event 5: reduction entries FREE, commit entries OFF, also one whose reduction entry had been disabled by itself (R440), links
unbound. An entry that a contribution to it made FAULTED while it
was not enabled is FREE again with the first teardown (log 72). -/
def freeEntries (j : Nat) (s : State) : State :=
  let s := s.strayReds.foldl (fun s k => freeEntry k s) s
  let ks := s.redsOf j
  let cs := s.comsOf j
  let entries (l : List Nat) : List Nat := (l.map entryOf).foldl (fun l e => if l.contains e then l else l ++ [e]) []
  let s := cs.foldl (fun s k => interruptCommit k s) s
  let s := ks.foldl (fun s k => freeEntry k (interruptCommit k s)) s
  let s := (entries (ks ++ cs)).foldl (fun s e => lifeTorn 6 e s) s
  let s := (entries ks).foldl (fun s e => lifeTorn 5 e s) s
  let J := s.job j
  let s := if J.bound then J.allLinks.foldl (fun s k => s.updLink k Link.unbind) s else s
  s.updJob j (fun J => { J with bound := false, ctrlHeld := [] })

/-- What waits on the job's context ends: a checkpoint in progress fails (R522); commands that wait for one, or for the
concord check, end REJECTED_STATE. -/
def endWaits (j : Nat) (s : State) : State :=
  let s := failCkpt j s
  let h := (s.job j).health
  let s := (h.asked ++ h.taking).foldl (finishPlain .rejectedState) s
  let s := match (s.job j).concord with
    | some c => finishPlain .rejectedState s (c.mailbox, c.seq)
    | none => s
  s.updJob j (fun J => { J with
    concord := none, sweeps := [], sweepIn := [], results := [], faceWait := [], silent := []
    nfRelease := false, ctxFault := none, answered := []
    health := { J.health with asked := [], taking := [] } })

/-- Event 7: the job is torn down; JOB_ABORT commands end; the herds go to the next ready job (R485). -/
def tornDown (j : Nat) (s : State) : State :=
  let J := s.job j
  let p := J.part
  let s := s.updJob j (fun J => { J with state := .tornDown, td := .none, aborts := [] })
  let s := J.aborts.foldl (finishPlain .ok) s
  let P := s.part p
  if P.holding = j then freeHerds p s
  else if P.incoming = j then takeHerds p (s.updPart p (fun P => { P with incoming := 0 }))
  else s

/-- Events 3 to 7 for a job that holds its herds. -/
def cleanHolding (j : Nat) (save : Bool) (s : State) : State :=
  let s := endWaits j (freeEntries j (discardFlights j s))
  tornDown j (if save && s.hasAreas (s.job j).part then saveCtx j s else s)

/-- Events 3 to 5 for a job that does not hold the herds apply to its saved state (Table 18-5). One whose state lies in the herds
alone, since it has ended or has not run yet, is cleaned there and saved (R484). -/
def cleanSaved (j : Nat) (s : State) : State :=
  if (s.part (s.job j).part).resident = j ∧ (s.job j).ctx.isNone then cleanHolding j true (stopContext j s)
  else
  let s := s.updJob j (fun J => { J with ctx := J.ctx.map (fun c => { c with
    tiles := Sparse.mapVals (fun _ T => { T with port := { T.port with
      state := .reset, ring := [], waitList := [], queue := [] } }) c.tiles }) })
  tornDown j (endWaits j (freeEntries j s))

/-- A job's context is torn down: through the quiesce where it holds the herds, and at once in its saved state where it does
not hold them (R484, R486). -/
def tearDown (j : Nat) (s : State) : State :=
  let J := s.job j
  let P := s.part J.part
  if J.td != .none || J.state == .tornDown then s
  else if P.holding = j then beginTeardown j s
  else cleanSaved j s

/-- TEARDOWN_QUIESCE_TIMEOUT (Table 18-4 event 2): 10 ms have passed. -/
def execTeardownQuiesceTimeout (j : BitVec 8) (s : State) : Out :=
  .next (
    let j := j.toNat
    let J := s.job j
    if J.td = .quiesce ∧ (s.part J.part).holding = j ∧ !(s.part J.part).leaving then stopContext j s else s)

/-- TEARDOWN_END (Table 18-4 events 3 to 7). -/
def execTeardownEnd (j : BitVec 8) (s : State) : Out :=
  .next (
    let j := j.toNat
    if (s.job j).td = .clean then cleanHolding j true s else s)

/-! ## The fault handler (R468, R469) -/

/-- A CONTEXT_FAULT event (Table 16-12a). `who` is the module or the neighbour that R416 and R389 have the report name: for
those two codes it stands in bytes 12 to 15, for which the table has no field, and is 0 for every other (log 103). -/
def postContextFault (j code unit tile pc who addr : Nat) (s : State) : State :=
  postEvent (s.job j).part Ev.contextFault j
    (leBytes 1 j ++ leBytes 1 code ++ leBytes 1 unit ++ leBytes 1 0 ++ leBytes 2 tile ++ leBytes 2 0 ++ leBytes 4 pc
      ++ leBytes 4 who ++ leBytes 8 addr) s

/-- The tiles of a partition are those of job `j`: it holds the herds, or it was the last to hold them and no job holds
them now (a job whose last tile ended before the answer to its ARRIVE came, R291). -/
def Partition.hasTilesOf (P : Partition) (j : Nat) : Bool := P.holding == j || (P.holding == 0 && P.resident == j)

/-- The faulted job is reported once, and its teardown and job abort start: for a job that is being switched in, when the
switch-in has completed (Table 18-5). -/
def reportFault (j : Nat) (s : State) : State :=
  let J := s.job j
  if J.td != .none || J.state == .tornDown || (s.part J.part).incoming == j then s
  else
    let t := if (s.part J.part).hasTilesOf j then (s.usedTiles j).find? (fun t => (s.tile t).run == .faulted) else none
    match t, J.ctxFault with
    | some t, _ =>
      let T := s.tile t
      tearDown j (sendAbort j J.moduleIndex (postContextFault j T.faultCode T.faultUnit t T.faultPc.toNat 0 T.faultAddr s))
    | none, some (code, addr) =>
      if code = Code.jobAborted then tearDown j (sendAbort j addr (postContextFault j code 0xFF 0xFFFF 0 addr 0 s))
      else
        let who := if code = Code.replicaDiverge then (J.diverged.map (·.2)).getD 0 else 0
        tearDown j (sendAbort j J.moduleIndex (postContextFault j code 0xFF 0xFFFF 0 who addr s))
    | none, none => s

/-- FAULT_FLAG (R468): a partition's FAULT flag reaches the fault handler. -/
def execFaultFlag (p : Fin 17) (s : State) : Out :=
  .next (
    let p := p.val
    if !(s.part p).fault then s
    else
      let s := flagReached p (fun r => { r with fault := false }) (s.updPart p (fun P => { P with fault := false }))
      (s.jobsOf p).foldl (fun s j => reportFault j s) s)

/-- HALT_FLAG (R469): each tile newly halted by a trap or BRK is posted; the context stays live. -/
def execHaltFlag (p : Fin 17) (s : State) : Out :=
  .next (
    let p := p.val
    let j := (s.part p).holding
    if !(s.part p).halt then s
    else
      let s := flagReached p (fun r => { r with halt := false }) (s.updPart p (fun P => { P with halt := false }))
      (s.partTiles p).foldl (fun s t =>
        let l := (s.tile t).haltNew
        if l.isEmpty then s
        else
          let s := s.updTile t (fun T => { T with haltNew := [] })
          if j = 0 then s else l.foldl (fun s h => postContextFault j h.code h.unit t h.pc 0 h.addr s) s) s)

/-- NONFIN_FLAG (R315): Ibex firmware records the partition's NONFIN flag. -/
def execNonfinFlag (p : Fin 17) (s : State) : Out :=
  .next (
    if (s.part p.val).nonfin then
      flagReached p.val (fun r => { r with nonfin := false }) (s.updPart p.val (fun P => { P with nonfinSeen := true }))
    else s)

/-! ## The quiesce (R315, R468, R481) -/

/-- The barrier is out for a partition: armed for a switch, or sent by a teardown. -/
def State.barrierOut (s : State) (p : Nat) : Bool :=
  let P := s.part p
  P.armed || (P.holding != 0 && (s.job P.holding).td == .quiesce)

/-- QUIESCE_REQUEST (R315): a herd receives the barrier; its tiles park after their next ARRIVE at the closing object. -/
def execQuiesceRequest (h : Nat) (s : State) : Out :=
  onHerd h s (fun s =>
    let p := s.partOfHerd h
    if p = 0 || !s.barrierOut p || (s.part p).asked.contains h then s
    else s.updPart p (fun P => { P with asked := P.asked ++ [h] }))

/-- A tile lets its herd answer (Table 11-5, R468): stopped or faulted, or parked, for a switch by R481 or in END (R482); a
halted tile counts as parked for a teardown. -/
def Tile.quiet (T : Tile) (switch : Bool) : Bool :=
  match T.run with
  | .running => false
  | .stopped | .faulted => true
  | .parked => !switch || T.park == .quiesce || T.park == .endUnits || T.park == .endDrain
  | .halted => !switch

/-- QUIESCE_ANSWER (R315): a herd answers; with the last one the teardown goes on, or the switch-out starts, unless a used tile
has faulted (R482). -/
def execQuiesceAnswer (h : Nat) (s : State) : Out :=
  onHerd h s (fun s =>
    let p := s.partOfHerd h
    let P := s.part p
    let j := P.holding
    let J := s.job j
    let switch := J.td == .none
    if p = 0 || j = 0 || P.leaving || !s.barrierOut p || !P.asked.contains h || J.answered.contains h
        || !(J.tilesIn h).all (fun t => (s.tile t).quiet switch) then s
    else
      let s := s.updJob j (fun J => { J with answered := J.answered ++ [h] })
      if !P.herds.all (fun g => (s.job j).answered.contains g) then s
      else if !switch then stopContext j s
      else if (s.usedTiles j).any (fun t => (s.tile t).run == .faulted) then s
      else (s.updJob j (fun J => { J with answered := [] })).updPart p (fun P => { P with leaving := true }))

/-! ## Switches (R482, R483) -/

/-- Nothing of the outgoing job is left to happen (R482). -/
def State.drained (s : State) (j : Nat) : Bool :=
  let ts := s.usedTiles j
  let os := s.jobObjs j
  ts.all (fun t => (s.tile t).unitsDone && !(s.tile t).draining)
    && s.msgs.all (fun e => !ts.contains e.2.sender && !ts.contains e.2.dst)
    && s.puts.all (fun e => !ts.contains e.2.sender)
    && s.sums.all (fun c => !ts.contains c.tile)
    && s.syncMsgs.all (fun e => !e.2.touches ts os)
    && (s.redsOf j).all (fun k => !(s.com k).busy && !(s.com k).request)

/-- Tiles parked by R481 run on. -/
def resumeHeld (j : Nat) (s : State) : State :=
  (s.usedTiles j).foldl (fun s t =>
    let s := s.updTile t (fun T => { T with hold := false })
    if (s.tile t).run = .parked && (s.tile t).park = .quiesce then resumeTile t id s else s) s

/-- SWITCH_OUT_DRAIN_END (R482): the drain is complete; the job's state is saved, its ports are reset (Table 9-5a) and its
herds are free. A job that has faulted meanwhile, reported already or seen at the save, is torn down, with this save as event
6 (R486). -/
def execSwitchOutDrainEnd (p : Fin 17) (s : State) : Out :=
  .next (
    let p := p.val
    let P := s.part p
    let j := P.holding
    if !P.leaving || !s.drained j then s
    else
      let s := saveCtx j s
      let s := (s.usedTiles j).foldl (fun s t => resetPort t s) s
      let s := reportFault j s
      if (s.job j).td != .none then cleanHolding j false (stopContext j s)
      else freeHerds p (s.updJob j (fun J => { J with state := .ready })))

/-- SWITCH_ABANDON (R482): 100 ms after the last park the drain has not finished; the tiles resume. -/
def execSwitchAbandon (p : Fin 17) (s : State) : Out :=
  .next (
    let p := p.val
    let P := s.part p
    let j := P.holding
    if !P.leaving || s.drained j then s
    else
      let s := s.updPart p (fun P => { P with leaving := false, armed := false, asked := [] })
      if (s.job j).td != .none then s
      else
        let s := s.updJob j (fun J => { J with
          acct := { J.acct with now := { J.acct.now with abandons := J.acct.now.abandons + 1 } } })
        resumeHeld j s)

/-- Sync operations and answers of job `r`, other than `j`, whose tiles and objects the herds still hold, are in the network. -/
def State.syncBehind (s : State) (r j : Nat) : Bool :=
  r != 0 && r != j && s.syncMsgs.any (fun e => e.2.touches (s.usedTiles r) (s.jobObjs r))

/-- SWITCH_IN_END (R483): the incoming job's state is restored and its tiles run; on its first switch-in it starts at its
entry offsets; a fault that met it meanwhile is reported now (R486). A job that was loaded into the herds and has not held them
yet is saved first (log 18). The sync operations of an ended job that are still in the network are taken first, so that none
meets the incoming job's tiles or objects (log 105). -/
def execSwitchInEnd (p : Fin 17) (s : State) : Out :=
  .next (
    let p := p.val
    let P := s.part p
    let j := P.incoming
    let r := P.resident
    if j = 0 || s.fw == .stopped || s.syncBehind r j then s
    else
      let s := if r != 0 && r != j && s.jobUsed r && !(s.job r).everHeld then saveCtx r s else s
      let s := match (s.job j).ctx with
        | some c => (restoreCtx j c s).updJob j (fun J => { J with ctx := none })
        | none => s
      let s := s.updPart p (fun P => { P with holding := j, incoming := 0, resident := j })
      let first := !(s.job j).everHeld
      let s :=
        if first then startJobTiles j s
        else resumeHeld j (s.updJob j (fun J => { J with
          state := .holding, sliceNs := 0
          acct := { J.acct with now := { J.acct.now with switches := J.acct.now.switches + 1 } } }))
      if (s.job j).ctxFault.isSome then raiseFault p s else s)

end Sys2Proof.Machine
end

