-- ==== Sys2Proof/Machine/Period.lean ====
section
/-! DEFINITION. Periods and ledgers (spec/20 section 20.1, spec/18 section 18.8): the latch of every period counter, the
lifetime totals, the ledger check. -/

namespace Sys2Proof.Machine

/-! ## The counters of Table 20-1, in its order -/

def herdCounters (s : State) (h : Nat) : List Nat :=
  Sparse.get 0 s.herdCe h :: (List.range 256).map (fun k => (s.sync (herdObj h k)).releases)
def Mc.counters (m : Mc) : List Nat := [m.ce, m.crcRetry, m.crcFail, m.ue]
def Kudu.counters (q : Kudu) : List Nat := [q.accept, q.poolWait]
def Link.counters (x : Link) : List Nat := [x.resend, x.retrain, x.crcFail, x.held, x.foreign, x.refused, x.tx]
def jobCounters (s : State) (j : Nat) : List Nat :=
  let h := (s.job j).health
  [h.posts, h.spikes, h.noPosts, h.stale, h.lost, (s.vecOf j).1, (s.vecOf j).2]
def devCounters (s : State) (first : Nat) : List Nat :=
  (List.range 256).map (fun i => (s.sync (devObj (first + i))).releases)

/-- The running counters of a scope (Table 20-1). -/
def scopeCounters (s : State) (cls idx : Nat) : List Nat :=
  match cls with
  | 1 => (s.tile idx).counters
  | 2 => herdCounters s idx
  | 3 => (s.mc idx).counters
  | 4 => (Sparse.get {} s.kudus idx : Kudu).counters
  | 5 => (s.link idx).counters
  | 6 => [(s.mb idx).evMerged]
  | 7 => jobCounters s idx
  | 8 => devCounters s idx
  | _ => []

/-- Every scope of the module that can hold a count, in order. -/
def State.scopes (s : State) : List (Nat × Nat) :=
  s.tiles.map (fun e => (1, e.1)) ++ (List.range s.herdCount).map (fun h => (2, h))
    ++ (List.range 32).map (fun u => (3, u)) ++ (List.range 16).map (fun k => (4, k))
    ++ s.links.map (fun e => (5, e.1)) ++ (List.range 17).map (fun m => (6, m))
    ++ s.jobs.map (fun e => (7, e.1)) ++ (List.range 4).map (fun i => (8, 256 * i))

/-- The counts of every scope that are not 0, by key. -/
def State.counts (s : State) : Sparse Nat :=
  s.scopes.flatMap (fun c =>
    let l := scopeCounters s c.1 c.2
    (List.zipWith (fun i v => (counterKey c.1 c.2 i, v)) (List.range l.length) l).filter (fun e => e.2 != 0))

/-! ## Restarting -/

def SkipSlot.restart (k : SkipSlot) : SkipSlot := { k with elems := 0, sampled := 0, miss := 0 }
def Tile.restart (T : Tile) : Tile :=
  { T with
    remoteReject := 0, orphanCount := 0, rewindCount := 0, sumAbandon := 0
    tahr := { T.tahr with count := 0 }
    vec := { T.vec with nonfinCnt := 0, satCnt := 0 }
    skips := Sparse.mapVals (fun _ k => k.restart) T.skips }
def Job.restart (J : Job) : Job :=
  { J with
    acct := { J.acct with latched := J.acct.now, now := {} }
    vecGone := (0, 0), vecFrom := (0, 0), satGone := false, satFrom := []
    health := { J.health with posts := 0, spikes := 0, noPosts := 0, stale := 0, lost := 0 } }

/-- Every period counter restarts from 0 (R508). -/
def restartAll (s : State) : State :=
  { s with
    tiles := Sparse.mapVals (fun _ T => T.restart) s.tiles
    herdCe := []
    syncs := Sparse.mapVals (fun _ o => { o with releases := 0, relSat := false }) s.syncs
    mcs := Sparse.mapVals (fun _ m => { m with ce := 0, crcRetry := 0, crcFail := 0, ue := 0 }) s.mcs
    kudus := Sparse.mapVals (fun _ q => { q with accept := 0, poolWait := 0 }) s.kudus
    links := Sparse.mapVals (fun _ x => { x with
      resend := 0, retrain := 0, crcFail := 0, held := 0, foreign := 0, refused := 0, tx := 0 }) s.links
    mailboxes := Sparse.mapVals (fun _ m => { m with evMerged := 0 }) s.mailboxes
    jobs := Sparse.mapVals (fun _ J => J.restart) s.jobs
    chamois := { s.chamois with modLatched := s.chamois.modEnergy, modEnergy := 0, total := 0, gone := 0 } }

/-! ## Time -/

/-- `ns` nanoseconds pass (R52): the module time counter, and the time that jobs hold their herds (R480, R487). -/
def passTime (ns : Nat) (s : State) : State :=
  if !s.boot.booted then s
  else
    { s with
      time := s.time + ns
      jobs := Sparse.mapVals (fun j J =>
        if (s.part J.part).holding = j then { J with
          heldNs := J.heldNs + ns, sliceNs := J.sliceNs + ns
          acct := { J.acct with now := { J.acct.now with heldNs := J.acct.now.heldNs + ns } } }
        else J) s.jobs }

/-! ## The boundary -/

/-- Every job is torn down at once (R490). -/
def tearAll (s : State) : State :=
  (s.jobs.map (·.1)).foldl (fun s j =>
    if (s.job j).state = .tornDown then s
    else if (s.part (s.job j).part).holding = j then cleanHolding j true (stopContext j s)
    else cleanSaved j s) s

/-- A term that fails (R490, R491). -/
def ledgerFails (f : LedgerFinding) (s : State) : State :=
  match f.program with
  | some j => if s.jobUsed j then s.updJob j (fun J => { J with acct := { J.acct with programErr := true } }) else s
  | none =>
    if s.hwFaulted then s
    else
      let tahr := s.jobs.any (fun e => e.2.tahr)
      let s := postAll Ev.ledgerBreak (f.term * 65536 + f.unit)
        (leBytes 2 f.term ++ leBytes 2 f.unit ++ leBytes 4 0 ++ leBytes 8 f.expected ++ leBytes 8 f.found
          ++ leBytes 1 (if tahr then 1 else 0)) s
      if tahr then s else { tearAll s with fw := .stopped }

/-- The sticky flags that exclude a sync object's ledger term (R297). -/
def SyncObj.excluded (o : SyncObj) : Bool := o.misuse || o.underflow || o.overflow
/-- The sync objects of a job: those of its saved context, or the partition's while the job is there. -/
def State.objectsOf (s : State) (j : Nat) : List SyncObj :=
  let J := s.job j
  match J.ctx with
  | some c => c.syncs.map (·.2)
  | none =>
    let P := s.part J.part
    if P.resident = j then (s.syncs.filter (fun e => P.ownsObj e.1)).map (·.2) else []

/-- Jobs with a ledger term that is excluded, since a sync object has a sticky flag or a counter of the job has saturated, are
marked (R297, R491). -/
def markProgramErrors (s : State) : State :=
  { s with jobs := Sparse.mapVals (fun j J =>
      if (s.objectsOf j).any SyncObj.excluded || s.satOf j then
        { J with acct := { J.acct with programErr := true } } else J) s.jobs }

/-! ## The ledger (R489, Table 18-7) -/

/-- A term of one unit, as a finding where it does not hold. -/
def termOf (term unit expected found : Nat) (ok : Bool) : List LedgerFinding :=
  if ok then [] else [{ term := term, unit := unit, expected := expected, found := found }]

/-- Granted ring space whose packet has not committed: the flights of its records. -/
def PortUnit.uncommitted (P : PortUnit) : List Nat :=
  P.ring.filterMap (fun r => match r with | .msg id _ _ false => some id | _ => none)
/-- A flight holds a ring credit at tile `t` (R256). -/
def State.holdsCredit (s : State) (t id : Nat) : Bool :=
  match s.msg id with
  | some m => m.dst == t && !m.direct && (m.recv == .granted || m.recv == .packet || m.recv == .rewound || m.recv == .landed)
  | none => false
/-- Term 0x01's credits of a tile: every granted range is held by the flight that took it, and by one alone (R256, R275). -/
def State.creditTerms (s : State) (t : Nat) (T : Tile) : List LedgerFinding :=
  let l := T.port.uncommitted
  let n := (l.eraseDups.filter (s.holdsCredit t)).length
  termOf 1 t l.length n (n == l.length)
/-- Terms 0x01 and 0x04 of a tile: its ring's records lie within RING_SIZE (R275), and its transfers have delivered no block
more than once (R345). -/
def Tile.terms (t : Nat) (T : Tile) : List LedgerFinding :=
  termOf 1 t T.ringSize T.port.used (decide (T.port.used ≤ T.ringSize))
    ++ T.mover.flatMap (fun o => termOf 4 t o.desc.blocks o.done.length
        (decide (o.done.length ≤ o.desc.blocks) && decide (o.rowsAnswered ≤ o.rowsSent) && decide (o.rowsSent ≤ o.desc.rows)))
/-- Term 0x02 of a sync object that is not excluded: VALUE is what the signals and arrivals since the reference point leave of it
after the releases, and WAITERS counts the tiles parked there (R297). -/
def SyncObj.terms (k : Nat) (o : SyncObj) : List LedgerFinding :=
  if o.excluded || o.relSat then []
  else termOf 2 k o.due.toNat o.value (o.due == (o.value : Int)) ++ termOf 2 k o.parked.length o.waiters (o.waiters == o.parked.length)
/-- Term 0x03 of an open sum context (R314). -/
def SumCtx.terms (c : SumCtx) : List LedgerFinding :=
  let n := c.held.length + (c.contribs - c.accepted.length)
  termOf 3 c.tile c.contribs n (decide (n ≤ c.contribs))
/-- Term 0x05 of a reduction entry that is neither FREE nor FAULTED (R371). -/
def RedEntry.terms (k : Nat) (x : RedEntry) : List LedgerFinding :=
  let n := x.contribs * 64 * x.bufGrans * x.rounds + (x.trees.map (fun e => e.2.accepted.length)).sum
  if x.state = .free ∨ x.state = .faulted then []
  else termOf 5 k n x.accepted (n == x.accepted) ++ termOf 5 k x.pool x.heldBlocks (decide (x.heldBlocks ≤ x.pool))
/-- Term 0x06 of a share that is not OFF: MOM_TAG - W_TAG is 0, or 1 while COMMITTING (R393). -/
def State.commitTerms (s : State) (k : Nat) (c : ComEntry) : List LedgerFinding :=
  let w := Stat.wTag (s.status k)
  let m := Stat.momTag (s.status k)
  if c.state = .off then [] else termOf 6 k w m (m == w || (c.state == .committing && m == (w + 1) % 2 ^ 32))
/-- Term 0x07: every pending enable's command is still to end in a final record (R446). -/
def State.pendTerms (s : State) (k : Nat) (x : Life) : List LedgerFinding :=
  match x.pend with
  | some (m, q) => termOf 7 k 1 0 ((s.mb m).cmds.any (fun c => c.seq == q))
  | none => []
/-- The SEQs of a replay buffer's blocks follow each other up to the last one sent (R397). -/
def Link.seqsOk (x : Link) : Bool :=
  let n := x.replay.length
  x.replay.map (·.seq) == (List.range n).map (fun i => (x.txSeq + 65536 - n % 65536 + i) % 65536)
/-- Term 0x08: every block sent has its place in the sequence, and of each lane's receive-buffer blocks what stands there, the
credits still to be returned and the credits in hand are no more than the lane has (R397, R399). -/
def Link.terms (k : Nat) (x : Link) : List LedgerFinding :=
  let lane (size here credit : Nat) : List LedgerFinding :=
    termOf 8 k size here (decide (here ≤ size)) ++ termOf 8 k size credit (decide (credit ≤ size))
  lane 512 (x.heldBlocks.length + x.delivered.length + x.owed0) x.credit0 ++ lane 256 (x.kuduIn + x.owed1) x.credit1
    ++ lane 32 (x.ctrlIn + x.owed2) x.credit2 ++ termOf 8 k 256 x.replay.length (decide (x.replay.length ≤ 256))
    ++ termOf 8 k 0 1 x.seqsOk
/-- Term 0x09: the jobs' charges and the module record equal the estimator's total (R488, R493). -/
def State.energyTerms (s : State) : List LedgerFinding :=
  let c := s.chamois
  let n : Rat := (((s.jobs.map (fun e => e.2.acct.now.energy)).sum + c.gone : Nat) : Rat) + c.modEnergy
  termOf 9 0 c.total.floor.toNat n.floor.toNat (n == c.total)

/-- The terms that do not hold of the counts that the module has, before they restart (R489; the rest of each term, log 68). -/
def State.ledgerTerms (s : State) : List LedgerFinding :=
  s.tiles.flatMap (fun e => s.creditTerms e.1 e.2 ++ e.2.terms e.1) ++ s.syncs.flatMap (fun e => e.2.terms e.1) ++ s.sums.flatMap SumCtx.terms
    ++ s.reds.flatMap (fun e => e.2.terms e.1) ++ s.coms.flatMap (fun e => s.commitTerms e.1 e.2)
    ++ s.lives.flatMap (fun e => s.pendTerms e.1 e.2) ++ s.links.flatMap (fun e => e.2.terms e.1) ++ s.energyTerms

/-- PERIOD_BOUNDARY (R507, R508, R489): the module time counter has reached the boundary; every unit latches and
restarts; Ibex firmware adds up the lifetime totals and checks the ledger, of which `finding` is a failure that the counts
here do not show. -/
def execPeriodBoundary (finding : Option LedgerFinding) (s : State) : Out :=
  .next (
    if !s.boot.booted then s
    else
      let q := s.period
      let s := passTime (q.start + q.length - s.time) s
      let c := s.counts
      let found := s.ledgerTerms ++ finding.toList
      let life := c.foldl (fun m e => Sparse.set m e.1 (Sparse.get 0 m e.1 + e.2)) q.lifetime
      let s := restartAll (markProgramErrors s)
      let s := { s with period := { q with
        index := q.index + 1, start := q.start + q.length, length := q.setting
        latchedIndex := q.index, latchedLength := q.length, shadow := c, lifetime := life } }
      found.foldl (fun s f => ledgerFails f s) s)

end Sys2Proof.Machine
end

