-- ==== Sys2Proof/Machine/BlockRegs.lean ====
section
/-! DEFINITION. Register blocks outside the tiles as words: Kudu tables (Tables 13-1, 13-2, 14-2), memory controllers (Table
12-12), links (Table 15-4), mailboxes (Table 16-1), the sideband registers (Table 19-4). -/

namespace Sys2Proof.Machine

/-! ## Reduction entries (Table 13-1) -/

def RedRun.code : RedRun → Nat
  | .free => 0
  | .opened => 1
  | .ring => 2
  | .complete => 3
  | .closing => 4
  | .faulted => 5

/-- The RW fields as (low bit, width), in the order of the ENABLE items (Table 16-9). -/
def redFields : List (Nat × Nat) :=
  [(448, 64), (384, 64), (352, 32), (320, 32), (288, 32), (256, 32), (208, 48), (192, 16),
   (176, 16), (160, 16), (144, 16), (56, 8), (49, 7), (45, 4), (40, 5), (37, 1)]

/-- The RW fields of an entry, in that order. -/
def RedEntry.values (x : RedEntry) : List Nat :=
  [x.bufBase, x.stageBase, x.bufGrans, x.stageBlocks, x.step, x.syncRef.toNat, x.elemBase, x.tensor,
   x.ringTag, x.contribs, x.expectRounds, x.job, x.nextLink, x.ringPos, x.ringLen, if x.ringFmt then 1 else 0]

/-- Fields packed into a number. -/
def packFields : List (Nat × Nat) → List Nat → Nat
  | (lo, n) :: f, v :: r => v % 2 ^ n * 2 ^ lo + packFields f r
  | _, _ => 0

/-- The entry as its 512 bits. -/
def RedEntry.word512 (x : RedEntry) : Nat :=
  packFields redFields x.values + x.rounds * 2 ^ 128 + x.accepted % 2 ^ 64 * 2 ^ 64
    + (if x.globalNf then 2 ^ 36 else 0) + (if x.localNf then 2 ^ 35 else 0) + (if x.nfReady then 2 ^ 34 else 0)
    + (if x.kuduNf then 2 ^ 33 else 0) + x.fault * 2 ^ 8 + x.state.code

/-- An entry with its RW fields from a number's bits. -/
def RedEntry.withBits (x : RedEntry) (n : Nat) : RedEntry :=
  { x with
    bufBase := bits n 448 64, stageBase := bits n 384 64, bufGrans := bits n 352 32, stageBlocks := bits n 320 32
    step := bits n 288 32, syncRef := word (bits n 256 32), elemBase := bits n 208 48, tensor := bits n 192 16
    ringTag := bits n 176 16, contribs := bits n 160 16, expectRounds := bits n 144 16, job := bits n 56 8
    nextLink := bits n 49 7, ringPos := bits n 45 4, ringLen := bits n 40 5, ringFmt := bit n 37 }

/-- A field that holds a device address: bits 63:52 are reserved and read 0 (R11, R34). -/
def addrField (n : Nat) : Nat := n % 2 ^ 52

/-- An entry whose RW fields are written with a number's bits: a field whose value Table 13-1 does not list keeps its own
(R12), and the reserved bits of an address are ignored (R11, R34). -/
def RedEntry.written (x : RedEntry) (n : Nat) : RedEntry :=
  let y := x.withBits n
  let ringLen := if 1 ≤ y.ringLen ∧ y.ringLen ≤ 16 then y.ringLen else x.ringLen
  { y with
    bufBase := if y.bufBase % 16384 = 0 then addrField y.bufBase else x.bufBase
    stageBase := if y.stageBase % 16384 = 0 then addrField y.stageBase else x.stageBase
    bufGrans := if y.bufGrans = 0 then x.bufGrans else y.bufGrans
    contribs := if 1 ≤ y.contribs ∧ y.contribs ≤ 16384 then y.contribs else x.contribs
    expectRounds := if y.expectRounds = 0 then x.expectRounds else y.expectRounds
    nextLink := if y.nextLink < 96 then y.nextLink else x.nextLink
    ringPos := if y.ringPos < ringLen then y.ringPos else x.ringPos
    ringLen := ringLen }

/-! ## Commit entries (Table 14-2) -/

def ComRun.code : ComRun → Nat
  | .off => 0
  | .ready => 1
  | .committing => 2
  | .closing => 3

def comFields : List (Nat × Nat) :=
  [(960, 64), (896, 64), (832, 64), (768, 64), (704, 64), (640, 64), (576, 64), (512, 64), (480, 32), (448, 32),
   (432, 16), (416, 16), (408, 8), (404, 4), (403, 1), (384, 16), (352, 32), (320, 32), (288, 32), (256, 32),
   (224, 32), (192, 32), (2, 2)]

def ComEntry.values (c : ComEntry) : List Nat :=
  [c.shardRec, c.master0, c.master1, c.m10, c.m11, c.m20, c.m21, c.workBase, c.commitRef.toNat, c.used,
   c.hdrBytes, c.recBytes, c.workExp, c.workFmt, if c.workLayout then 1 else 0, c.digestEvery, c.b1, c.a1, c.b2, c.a2,
   c.eps, c.wd, c.rule]

/-- The entry as its 1,024 bits. -/
def ComEntry.word1024 (c : ComEntry) : Nat := packFields comFields c.values + c.state.code

def ComEntry.withBits (c : ComEntry) (n : Nat) : ComEntry :=
  { c with
    shardRec := bits n 960 64, master0 := bits n 896 64, master1 := bits n 832 64, m10 := bits n 768 64
    m11 := bits n 704 64, m20 := bits n 640 64, m21 := bits n 576 64, workBase := bits n 512 64
    commitRef := word (bits n 480 32), used := bits n 448 32, hdrBytes := bits n 432 16, recBytes := bits n 416 16
    workExp := bits n 408 8, workFmt := bits n 404 4, workLayout := bit n 403, digestEvery := bits n 384 16
    b1 := bits n 352 32, a1 := bits n 320 32, b2 := bits n 288 32, a2 := bits n 256 32, eps := bits n 224 32
    wd := bits n 192 32, rule := bits n 2 2 }

/-- A commit entry whose RW fields are written with a number's bits, beside a reduction entry of `grans` granules: the same
for Table 14-2. -/
def ComEntry.written (c : ComEntry) (grans n : Nat) : ComEntry :=
  let y := c.withBits n
  { y with
    shardRec := if y.shardRec % 16384 = 0 then addrField y.shardRec else c.shardRec
    master0 := addrField y.master0, master1 := addrField y.master1, m10 := addrField y.m10, m11 := addrField y.m11
    m20 := addrField y.m20, m21 := addrField y.m21, workBase := addrField y.workBase
    used := if y.used ≤ grans * 1024 then y.used else c.used
    recBytes := if y.recBytes % 128 = 0 ∧ y.recBytes ≤ 4096 then y.recBytes else c.recBytes
    workExp := if y.workExp ≤ 60 ∨ 196 ≤ y.workExp then y.workExp else c.workExp
    workFmt := if 1 ≤ y.workFmt ∧ y.workFmt ≤ 3 then y.workFmt else c.workFmt
    rule := if y.rule ≤ 2 then y.rule else c.rule }

/-! ## A Kudu's table (R349, R374) -/

/-- Entries of a stack that are not FREE (Table 13-2). -/
def State.activeEntries (s : State) (stack : Nat) : Nat :=
  ((List.range 64).filter (fun e => (s.red (entryKey stack e)).state != .free)).length

/-- The word at an offset of stack `k`'s table; `mine` says which entries the reader sees (Table 16-8 READ_BLOCK). -/
def kuduReg (s : State) (k : Nat) (mine : Nat → Bool) (off : Nat) : Nat :=
  let q : Kudu := Sparse.get {} s.kudus k
  if off < 0x1000 then
    let e := entryKey k (off / 0x40)
    if mine e then bits (s.red e).word512 (off % 0x40 * 8) 32 else 0
  else if off < 0x3000 then
    let e := entryKey k ((off - 0x1000) / 0x80)
    if mine e then bits (s.com e).word1024 (off % 0x80 * 8) 32 else 0
  else match off with
    | 0x8000 => (if q.countSat then 2 ^ 8 else 0) + s.activeEntries k
    | 0x8008 => q.accept % 2 ^ 32
    | 0x800C => q.acceptHi.toNat
    | 0x8010 => q.poolWait
    | _ => 0

/-! ## Memory controllers (Table 12-12) -/

def McRun.code : McRun → Nat
  | .disabled => 0
  | .training => 1
  | .enabled => 2
  | .failed => 3

def mcReg (m : Mc) (off : Nat) : Nat :=
  match off with
  | 0x000 => (if m.countSat then 2 ^ 8 else 0) + m.run.code
  | 0x004 => m.gib
  | 0x010 => m.ce
  | 0x014 => m.crcRetry
  | 0x018 => m.crcFail
  | 0x01C => m.ue
  | 0x020 => m.scrub
  | 0x028 => m.ueAddr % 2 ^ 32
  | 0x02C => m.ueAddr / 2 ^ 32
  | 0x030 => m.ueSrcReg
  | 0x034 => if m.double then 1 else 0
  | _ => 0

/-! ## Links (Table 15-4) -/

def linkReg (x : Link) (off : Nat) : Nat :=
  match off with
  | 0x00 => x.stateReg
  | 0x04 => x.farSerial % 2 ^ 32
  | 0x08 => x.farSerial / 2 ^ 32
  | 0x0C => x.farLink
  | 0x10 => x.landBase % 2 ^ 32
  | 0x14 => x.landBase / 2 ^ 32
  | 0x18 => x.landSize
  | 0x1C => x.landSync.toNat
  | 0x20 => (if x.syncEn then 2 ^ 16 else 0) + x.rxStep
  | 0x24 => x.bindTag
  | 0x30 => x.resend
  | 0x34 => x.retrain
  | 0x38 => x.crcFail
  | 0x3C => x.held
  | 0x40 => x.foreign
  | 0x44 => x.refused
  | 0x48 => x.tx % 2 ^ 32
  | 0x4C => x.txHi.toNat
  | _ => 0

/-! ## Mailboxes (Table 16-1) -/

def FwState.code : FwState → Nat
  | .rom => 0
  | .loading => 1
  | .ready => 2
  | .stopped => 3

/-- OUTSTANDING. -/
def Mailbox.outstanding (x : Mailbox) : Nat := x.cmds.length

/-- The word at an offset of mailbox `m`'s block as the host reads it. -/
def mailboxReg (s : State) (m off : Nat) : Nat :=
  let x := s.mb m
  if 0x1000 ≤ off ∧ off < 0x2000 then
    leNat ((List.range 4).map (fun i => Sparse.get 0 x.buffer (off - 0x1000 + i)))
  else match off with
    | 0x000 => (if m != 0 && (s.life 1 m).run == .on then 2 ^ 8 else 0) + m
    | 0x004 => s.fw.code
    | 0x00C => x.taken
    | 0x010 => x.outstanding * 2 ^ 8 + (if x.held.isEmpty then 0 else 8) + (if x.ringErr then 4 else 0) + (if x.dbErr then 2 else 0)
    | 0x020 => x.crBase % 2 ^ 32
    | 0x024 => x.crBase / 2 ^ 32
    | 0x028 => x.crSize
    | 0x02C => x.head
    | 0x030 => x.tail
    | 0x034 => if x.enable then 1 else 0
    | 0x040 => x.evMerged
    | _ => 0

/-! ## The CXL.io configuration space (R424) -/

/-- The Interrupt Pin register of the CXL.io function reads 0: the module generates no interrupt (R424). -/
def interruptPin : Byte := 0
/-- The interrupt capabilities, MSI and MSI-X, that the CXL.io function implements: none (R424). -/
def interruptCapabilities : List Nat := []

/-! ## Sideband registers (Table 19-4) -/

def bmcReg (s : State) (off : Nat) : Nat :=
  match off with
  | 0 => s.chamois.bmcHbm * 2 ^ 16 + s.chamois.bmcJunction
  | 4 => s.chamois.bmcWatts
  | 8 => if s.power.tripped then 1 else 0
  | _ => 0

/-- `n` bytes of a block from an offset, word by word. -/
def blockBytes (reg : Nat → Nat) (off n : Nat) : List Byte :=
  (List.range (n / 4)).flatMap (fun i => leBytes 4 (reg (off + 4 * i)))

end Sys2Proof.Machine
end

