-- ==== Sys2Proof/Machine/Septup.lean ====
section
/-! DEFINITION. Mailboxes, commands and items (spec/16 sections 16.2 to 16.5): doorbells, taking and checking a command,
items applied one by one, result data. -/

namespace Sys2Proof.Machine

/-! ## Doorbells and rings (R427, R433, R434) -/

/-- MB_DOORBELL (R427): the next SEQ is made pending; any other doorbell sets DB_ERR. No write of the host comes in while its
CXL port is down (R550). -/
def execMbDoorbell (m : MailboxId) (seq : BitVec 16) (s : State) : Out :=
  .next (
    let x := s.mb m.val
    let ok := seq.toNat == (x.taken + 1) % 65536 && x.doorbell.isNone && (m.val == 0 || s.fw != .rom)
    if !s.power.reaches then s else s.updMb m.val (fun x => if ok then { x with doorbell := some seq.toNat } else { x with dbErr := true }))

/-- CR_ENABLE_WRITE (R433): ENABLE takes effect on a well-placed ring of a valid size, and clears TAIL. -/
def execCrEnableWrite (m : MailboxId) (on : Bool) (s : State) : Out :=
  .next (s.updMb m.val (fun x =>
    if !s.power.reaches then x
    else if !on then { x with enable := false }
    else if x.enable || x.crBase % 4096 != 0 || x.crSize < 6 || 15 < x.crSize then x
    else { x with enable := true, tail := 0 }))

/-- CR_HEAD_WRITE (R433). -/
def execCrHeadWrite (m : MailboxId) (head : BitVec 16) (s : State) : Out :=
  .next (s.updMb m.val (fun x => if s.power.reaches then { x with head := head.toNat } else x))

/-- HELD_RECORD_WRITE (R434): the oldest held record is written once there is room; a write that fails sets RING_ERR and
clears ENABLE, as does any while the CXL port is down (R550). -/
def execHeldRecordWrite (m : MailboxId) (failed : Bool) (s : State) : Out :=
  .next (
    let x := s.mb m.val
    match x.held with
    | [] => s
    | r :: rest =>
      if !x.enable || !x.room then s
      else if failed || !s.power.reaches then s.updMb m.val (fun x => { x with ringErr := true, enable := false })
      else ringWrite m.val r (s.updMb m.val (fun x => { x with held := rest })))

/-! ## Commands (Tables 16-2, 16-3, 16-8) -/

/-- Who may send a command (Table 16-8). -/
inductive MayPost where
  | any | mgmt | part
  deriving DecidableEq, Repr

/-- An opcode's kinds, its senders, and its fixed result (Table 16-8, R430). -/
structure OpInfo where
  kinds : List Nat
  who : MayPost
  fixed : Nat := 0

namespace Op
def identity := 0x0001
def moduleConfig := 0x0002
def readBlock := 0x0003
def syncRead := 0x0004
def countersRead := 0x0005
def accountRead := 0x0006
def tileDebug := 0x0007
def linkStatus := 0x0008
def enable := 0x0010
def disable := 0x0011
def jobLoad := 0x0020
def jobStart := 0x0021
def jobAbort := 0x0022
def jobUnload := 0x0023
def redRearm := 0x0030
def commitConfig := 0x0031
def commitRecover := 0x0032
def cxlmemSet := 0x0040
def cxlmemHandover := 0x0041
def healthConfig := 0x0050
def checkpoint := 0x0051
def attest := 0x0060
def romStatus := 0x0F00
def fwLoad := 0x0F01
end Op

/-- Table 16-8. -/
def opInfo (op : Nat) : Option OpInfo :=
  match op with
  | 0x0001 => some ⟨[0], .any, 0⟩
  | 0x0002 => some ⟨[0], .mgmt, 0⟩
  | 0x0003 => some ⟨[0, 8], .part, 0⟩
  | 0x0004 => some ⟨[0], .part, 0⟩
  | 0x0005 => some ⟨[0], .part, 0⟩
  | 0x0006 => some ⟨[7], .part, 128⟩
  | 0x0007 => some ⟨[8], .part, 0⟩
  | 0x0008 => some ⟨[2], .part, 128⟩
  | 0x0010 => some ⟨[1, 2, 3, 4, 5, 6], .part, 0⟩
  | 0x0011 => some ⟨[1, 2, 3, 4, 5, 6], .part, 0⟩
  | 0x0020 => some ⟨[1], .part, 0⟩
  | 0x0021 => some ⟨[7], .part, 256⟩
  | 0x0022 => some ⟨[7], .part, 0⟩
  | 0x0023 => some ⟨[7], .part, 0⟩
  | 0x0030 => some ⟨[5], .part, 0⟩
  | 0x0031 => some ⟨[6], .part, 0⟩
  | 0x0032 => some ⟨[7], .part, 0⟩
  | 0x0040 => some ⟨[0], .mgmt, 0⟩
  | 0x0041 => some ⟨[0], .mgmt, 0⟩
  | 0x0050 => some ⟨[7], .part, 0⟩
  | 0x0051 => some ⟨[7], .part, 0⟩
  | 0x0060 => some ⟨[0], .any, 9280⟩
  | _ => none

/-- The boot ROM's opcodes (Table 21-4). -/
def romOp (op : Nat) : Bool := op == Op.romStatus || op == Op.fwLoad
/-- The opcodes served while FW is STOPPED (R425). -/
def stoppedOp (op : Nat) : Bool :=
  op == Op.identity || op == Op.readBlock || op == Op.linkStatus || op == Op.syncRead || op == Op.countersRead
    || op == Op.accountRead
def lifeOp (op : Nat) : Bool := op == Op.enable || op == Op.disable

/-- A command from the bytes of its buffer. -/
def Cmd.ofBytes (seq order : Nat) (buf : Nat → Byte) : Cmd :=
  let h := leNat ((List.range 32).map buf)
  let items := bits h 96 16
  let item (i : Nat) : Nat × Nat :=
    let n := leNat ((List.range 16).map (fun o => buf (32 + 16 * i + o)))
    (bits n 0 64, bits n 64 64)
  let addr := bits h 192 64
  let len := bits h 160 32
  { seq := seq, opcode := bits h 0 16, kind := bits h 56 8, index := bits h 64 16, tag := bits h 128 32
    resultAddr := addr, resultLen := len
    items := (List.range (min items 254)).map item
    formOk := bits h 112 16 == 32 + 16 * items && decide (items ≤ 254) && bits h 16 40 == 0 && bits h 80 16 == 0
      && addr % 64 == 0 && decide (addr < 2 ^ 51) && len % 64 == 0 && decide (len ≤ 0x100000) && (len != 0 || addr == 0)
    order := order }

/-- INDEX as check 2 of R430 has it: a job id in use, a tile id of the grade. An object that does not exist lies in no
partition, so check 3 refuses it from mailbox `m`; from mailbox 0 it is refused here (log 86). -/
def indexOk (s : State) (m : Nat) (c : Cmd) : Bool :=
  match c.kind with
  | 0 => true
  | 1 => m != 0 || decide (1 ≤ c.index ∧ c.index ≤ 16)
  | 2 => m != 0 || decide (c.index < 96)
  | 3 => m != 0 || decide (c.index < 12)
  | 4 => m != 0 || decide (c.index < 16)
  | 5 => m != 0 || decide (c.index < 256)
  | 6 => m != 0 || decide (c.index < 256)
  | 7 => s.jobUsed c.index || (c.opcode == Op.accountRead && m == 0 && c.index == 0x0100)
  | 8 => decide (c.index < s.tileCount)
  | _ => false

/-- The partition in which a reduction or commit entry lies, 0 for none (R440). -/
def State.partOfEntry (s : State) (kind e : Nat) : Nat :=
  let k := (sharesOf e).headD 0
  if (if kind = 5 then (s.red k).state == .free else (s.com k).state == .off) then 0 else (s.job (s.red k).job).part

/-- The object of a command lies in partition `m` (R430 check 3, R440). -/
def objectIn (s : State) (m : Nat) (c : Cmd) : Bool :=
  match c.kind with
  | 0 => true
  | 1 => c.index == m
  | 2 => s.partOfLink c.index == m
  | 5 => let p := s.partOfEntry 5 c.index; decide (c.index < 256) && (p == 0 || p == m)
  | 6 => let p := s.partOfEntry 6 c.index; decide (c.index < 256) && (p == 0 || p == m)
  | 7 => (s.job c.index).part == m
  | 8 => s.partOf c.index == m
  | _ => false

/-- The checks of R430: the status of the first that fails. -/
def checkCmd (s : State) (m : Nat) (c : Cmd) : Option Status :=
  match s.fw with
  | .loading => some .rejectedState
  | .rom => if !romOp c.opcode then some .rejectedState else if c.formOk && c.kind == 0 then none else some .rejectedArg
  | _ =>
    if s.fw = .stopped ∧ !stoppedOp c.opcode then some .faulted
    else
      match opInfo c.opcode with
      | none => some .rejectedArg
      | some o =>
        if !c.formOk || !o.kinds.contains c.kind || decide (c.resultLen < o.fixed) || !indexOk s m c then some .rejectedArg
        else if m = 0 then none
        else
          match o.who with
          | .any => none
          | .mgmt => some .authFail
          | .part => if (lifeOp c.opcode && decide (c.kind ≤ 4)) || !objectIn s m c then some .authFail else none

/-- A command that names an object waits for an earlier one of its mailbox that names the same and is still outstanding,
unless both follow Table 16-7, and for one of another mailbox that has not started (R431). -/
def State.objectBlocked (s : State) (m : Nat) (c : Cmd) : Bool :=
  let same (d : Cmd) : Bool := d.kind == c.kind && d.index == c.index && decide (d.order < c.order)
  c.kind != 0
    && ((!lifeOp c.opcode && (s.mb m).cmds.any same)
        || s.mailboxes.any (fun e => e.1 != m && e.2.cmds.any (fun d => same d && d.phase == .taken)))

/-- The value of an item of a command. -/
def Cmd.item (c : Cmd) (id : Nat) : Option Nat := (c.items.find? (fun i => i.1 == id)).map (·.2)
def Cmd.itemD (c : Cmd) (id d : Nat) : Nat := (c.item id).getD d

/-- A transfer of a tile still has memory-side bytes in a range. -/
def Tile.movesIn (T : Tile) (lo n : Nat) : Bool :=
  T.mover.any (fun o => o.desc.rowRanges.any (fun r => overlaps r.1 r.2 lo n))

/-- A transfer that lands for a job of partition `p` still has bytes in a range. -/
def State.landsIn (s : State) (p lo n : Nat) : Bool :=
  s.links.any (fun e =>
    let J := s.job (s.jobOfLink e.1)
    J.bound && J.allLinks.contains e.1 && J.part == p && e.2.landing.any (fun l => !l.refused && (List.range l.rows).any (fun r => overlaps (l.addr + r * l.pitch) l.rowBytes lo n)))

/-- An earlier ATTEST of any mailbox has not started: leaves are taken in the order of doorbells (R537). -/
def State.attestWaits (s : State) (c : Cmd) : Bool :=
  s.mailboxes.any (fun e => e.2.cmds.any (fun d => d.opcode == Op.attest && d.phase == .taken && decide (d.order < c.order)))

/-- A checkpoint copy of the job, which is a herd-mover transfer (R521), still writes to a range: to its slot. -/
def Job.copiesIn (J : Job) (lo n : Nat) : Bool :=
  match J.health.run with
  | none => false
  | some r =>
    let a := J.health.areas.getD r.slot ⟨0, 0⟩
    !r.entries.isEmpty && overlaps a.base a.size lo n

/-- A taken command has to wait for something else than an object: for the host's answer; for a start-up or the end of a commit
of its entry (R442); for the accesses of the side that gives the CXL.mem range up (R342); for an earlier ATTEST. It holds
nothing back (R431). -/
def State.cmdWaits (s : State) (c : Cmd) : Bool :=
  if c.opcode = Op.fwLoad ∨ c.opcode = Op.jobLoad then true
  else if c.opcode = Op.commitConfig then
    (s.life 6 c.index).run == .starting
      || ((s.life 6 c.index).run == .on && (sharesOf c.index).any (fun k => (s.com k).busy))
  else if c.opcode = Op.cxlmemHandover then
    let give := s.cxl.owner
    c.item 1 != some give && give != 0
      && ((s.partTiles give).any (fun t => (s.tile t).movesIn (ddrBase + s.cxl.base) s.cxl.size)
        || s.landsIn give (ddrBase + s.cxl.base) s.cxl.size
        || (s.jobsOf give).any (fun j => (s.job j).copiesIn (ddrBase + s.cxl.base) s.cxl.size))
  else if c.opcode = Op.attest then s.attestWaits c
  else false

/-- The commands of a mailbox start in taken order: an earlier one that need not wait goes first (R431). -/
def State.ahead (s : State) (m : Nat) (c : Cmd) : Bool :=
  (s.mb m).cmds.any (fun d =>
    decide (d.order < c.order) && d.phase == .taken && !s.cmdWaits d && !s.objectBlocked m d)

/-- A taken command may not start yet (R431). -/
def State.blocked (s : State) (m : Nat) (c : Cmd) : Bool := s.objectBlocked m c || s.ahead m c

/-- A command starts: nothing while it is blocked or has started; its first failing check ends it; else it acts. -/
def startCmd (m : Nat) (q : Nat) (op : Nat) (s : State) (k : Cmd → State → State) : State :=
  match s.cmd m q with
  | none => s
  | some c =>
    if c.opcode != op || c.phase != .taken || s.blocked m c then s
    else
      match checkCmd s m c with
      | some st => finish m q st 0xFFFF 0 [] s
      | none => k c s

/-- A taken command that may start ends where its checks refuse it (R430). -/
def endRefused (m : Nat) (s : State) (c : Cmd) : State :=
  if c.phase != .taken || s.blocked m c then s
  else
    match checkCmd s m c with
    | some st => finish m c.seq st 0xFFFF 0 [] s
    | none => s

/-- Taken commands that have come to their turn and that their checks refuse end, in taken order. -/
def endAllRefused (s : State) : State :=
  (List.range 17).foldl (fun s m => (s.mb m).cmds.foldl (endRefused m) s) s

/-- A pending doorbell can be taken: fewer than 8 commands are outstanding and no record is held (R428). -/
def Mailbox.takeable (x : Mailbox) : Bool := x.doorbell.isSome && decide (x.outstanding < 8) && x.held.isEmpty

/-- The mailbox whose turn it is (R428): the first after the last served, in rotation, with a doorbell that can be taken. The
boot ROM takes one only once the ring of its mailbox is enabled (Table 21-1 event 4). -/
def State.turnOf (s : State) : Option Nat :=
  ((List.range 17).map (fun i => (s.boxTurn + 1 + i) % 17)).find? (fun m =>
    (s.mb m).takeable && (s.fw != .rom || (s.mb m).enable))

/-- COMMAND_TAKE (R427, R428, R430): the mailbox whose turn it is has its pending doorbell taken; a command that its checks
refuse ends at once. -/
def execCommandTake (m : MailboxId) (s : State) : Out :=
  .next (
    let x := s.mb m.val
    match x.doorbell with
    | none => s
    | some q =>
      if s.turnOf != some m.val then s
      else
        let c := Cmd.ofBytes q s.nextId (fun o => Sparse.get 0 x.buffer o)
        let s := { s with nextId := s.nextId + 1, boxTurn := m.val }
        let s := s.updMb m.val (fun x => { x with doorbell := none, taken := q, cmds := x.cmds ++ [c] })
        endRefused m.val s c)

/-! ## Items (R432) -/

/-- How the items of a command ended: all applied, or the failing one's status, position and id. -/
inductive ItemEnd where
  | done
  | fail (st : Status) (pos id : Nat)
  deriving DecidableEq, Repr

/-- The first required item after `last` that comes before `id`. -/
def missingBefore (req : List Nat) (last id : Nat) : Option Nat := req.find? (fun r => decide (last < r ∧ r < id))

/-- Items are checked and applied one by one in order; each must come after the last, be listed (1 to `n`), and leave no
required item out. `apply` checks and applies one. -/
def runItems (m q n : Nat) (req : List Nat) (apply : Nat → Nat → State → Except Status State) :
    List (Nat × Nat) → Nat → Nat → State → State × ItemEnd
  | [], pos, last, s =>
    match missingBefore req last (n + 1) with
    | some r => (s, .fail .rejectedArg pos r)
    | none => (s, .done)
  | (id, v) :: rest, pos, last, s =>
    match missingBefore req last id with
    | some r => (s, .fail .rejectedArg pos r)
    | none =>
      if id ≤ last || n < id then (s, .fail .rejectedArg pos (id % 65536))
      else
        match apply id v s with
        | .error st => (s, .fail st pos id)
        | .ok s => runItems m q n req apply rest (pos + 1) id (s.updCmd m q (fun c => { c with applied := pos + 1 }))

/-- A command's items, then what follows when all are applied; a failing item ends the command. -/
def withItems (m q n : Nat) (req : List Nat) (c : Cmd) (apply : Nat → Nat → State → Except Status State)
    (k : State → State) (s : State) : State :=
  match runItems m q n req apply c.items 0 0 s with
  | (s, .done) => k s
  | (s, .fail st pos id) => finish m q st pos id [] s

/-- A command with no items. -/
def noItems (m q : Nat) (c : Cmd) (k : State → State) (s : State) : State :=
  withItems m q 0 [] c (fun _ _ s => .ok s) k s

/-- An item that is only checked. -/
def only (ok : Bool) (s : State) : Except Status State := if ok then .ok s else .error .rejectedArg

/-- Result data at RESULT_ADDR, then the final record (R433); none comes out while the CXL port is down (R550). -/
def giveResult (c : Cmd) (bs : List Byte) (s : State) : State :=
  if s.power.reaches then s.writeMem (hostBase + c.resultAddr) bs else s

/-- Final OK with an inline result. -/
def finishOk (m q : Nat) (detail : List Byte) (s : State) : State := finish m q .ok 0xFFFF 0 detail s

end Sys2Proof.Machine
end

