-- ==== Sys2Proof/Machine/Queries.lean ====
section
/-! DEFINITION. Commands that read the module (spec/16 Table 16-8; spec/18 R487; spec/20 R509, R526): IDENTITY, READ_BLOCK,
SYNC_READ, COUNTERS_READ, ACCOUNT_READ, LINK_STATUS; and MODULE_CONFIG, TILE_DEBUG. -/

namespace Sys2Proof.Machine

/-- Serial, stepping word, herds, herds per die: the first 15 bytes of IDENTITY and ROM_STATUS. -/
def State.idBytes (s : State) : List Byte :=
  leBytes 8 Config.serial ++ leBytes 4 s.steppingWord.toNat ++ leBytes 2 s.herdCount ++ leBytes 1 s.herdsPerDie

/-- IDENTITY (R441, R3, R58). -/
def execIdentity (m : MailboxId) (q : BitVec 16) (s : State) : Out :=
  .next (startCmd m.val q.toNat Op.identity s (fun c s => noItems m.val q.toNat c (fun s =>
    finishOk m.val q.toNat (s.idBytes ++ leBytes 1 0 ++ leBytes 4 s.boot.version ++ s.grade.partNumber) s) s))

/-- MODULE_CONFIG (R441, R507, R494). -/
def execModuleConfig (m : MailboxId) (q : BitVec 16) (s : State) : Out :=
  .next (startCmd m.val q.toNat Op.moduleConfig s (fun c s => withItems m.val q.toNat 2 [] c (fun id v s =>
      if id = 1 then
        if 1000 ≤ v ∧ v ≤ 10000000 then .ok { s with period := { s.period with setting := v * 1000 } } else .error .rejectedArg
      else if 2000 ≤ v ∧ v ≤ 7200 then .ok (s.updCham (fun x => { x with nextBudget := some v })) else .error .rejectedArg)
    (finishOk m.val q.toNat []) s))

/-! ## READ_BLOCK -/

/-- Bytes of a block of READ_BLOCK's spaces. -/
def spaceSize (space : Nat) : Nat := if space = 3 then 0x10000 else 0x1000
/-- SPACE suits the command's object. -/
def spaceOk (space : Nat) (c : Cmd) : Bool :=
  match space with
  | 1 => c.kind == 8
  | 2 => c.kind == 0 && decide (c.index < 32)
  | 3 => c.kind == 0 && decide (c.index < 16)
  | _ => false
/-- The word at an offset of a space as mailbox `m` sees it; of a Kudu table, mailbox 1 to 16 sees its jobs' entries, and
the rest reads as 0 (Table 16-8). -/
def spaceReg (s : State) (m space idx off : Nat) : Nat :=
  match space with
  | 1 => tileReg idx s off
  | 2 => mcReg (s.mc idx) off
  | _ =>
    if m ≠ 0 ∧ 0x8000 ≤ off then 0
    else kuduReg s idx (fun e => m == 0 || ((s.red e).state != .free && (s.job (s.red e).job).part == m)) off

/-- READ_BLOCK (R441): a snapshot without the effects of a read. -/
def execReadBlock (m : MailboxId) (q : BitVec 16) (s : State) : Out :=
  .next (startCmd m.val q.toNat Op.readBlock s (fun c s =>
    let space := c.itemD 1 0
    let off := c.itemD 2 0
    withItems m.val q.toNat 3 [1, 2, 3] c (fun id v s =>
      match id with
      | 1 => only (spaceOk v c) s
      | 2 => only (v % 4 == 0 && decide (v < spaceSize space)) s
      | _ => only (v % 4 == 0 && decide (off + v ≤ spaceSize space) && decide (v ≤ c.resultLen)) s)
    (fun s => finishOk m.val q.toNat [] (giveResult c (blockBytes (spaceReg s m.val space c.index) off (c.itemD 3 0)) s)) s))

/-! ## SYNC_READ -/

/-- The object that a sync reference names anywhere on the module. -/
def State.anyObj (s : State) (v : Nat) : Option Nat :=
  if 2 ^ 32 ≤ v || bits v 25 6 != 0 || bits v 10 6 != 0 then none
  else if bit v 31 then if bits v 16 9 != 0 then none else some (devObj (bits v 0 10))
  else if bits v 8 2 != 0 || s.herdCount ≤ bits v 16 9 then none
  else some (herdObj (bits v 16 9) (bits v 0 8))

/-- SYNC_READ (R295). -/
def execSyncRead (m : MailboxId) (q : BitVec 16) (s : State) : Out :=
  .next (startCmd m.val q.toNat Op.syncRead s (fun c s =>
    withItems m.val q.toNat 1 [1] c (fun _ v s =>
      match s.anyObj v with
      | none => .error .rejectedArg
      | some _ => if m.val != 0 && (s.refObj m.val (word v)).isNone then .error .authFail else .ok s)
    (fun s =>
      match s.anyObj (c.itemD 1 0) with
      | some o => finishOk m.val q.toNat (s.sync o).bytes s
      | none => s) s))

/-! ## COUNTERS_READ -/

/-- Values of a class (Table 20-1). -/
def classCount (cls : Nat) : Nat :=
  match cls with
  | 1 => 103
  | 2 => 257
  | 3 => 4
  | 4 => 2
  | 5 => 7
  | 6 => 1
  | 7 => 7
  | 8 => 256
  | 9 => 8
  | _ => 0

/-- INDEX names a unit of its class. -/
def scopeIndexOk (s : State) (cls idx : Nat) : Bool :=
  match cls with
  | 1 => decide (idx < s.tileCount)
  | 2 => decide (idx < s.herdCount)
  | 3 => decide (idx < 32)
  | 4 => decide (idx < 16)
  | 5 => decide (idx < 96)
  | 6 => decide (idx < 17)
  | 7 => s.jobUsed idx
  | 8 => idx % 256 == 0 && decide (idx < 1024)
  | 9 => idx == 0
  | _ => false

/-- The scope lies in partition `m` (Table 20-1). -/
def scopeIn (s : State) (m cls idx : Nat) : Bool :=
  match cls with
  | 1 => s.partOf idx == m
  | 2 => s.partOfHerd idx == m
  | 5 => s.partOfLink idx == m
  | 6 => idx == m
  | 7 => (s.job idx).part == m
  | 8 => (s.part m).devObjs.any (fun d => decide (idx ≤ d ∧ d < idx + 256))
  | 9 => true
  | _ => false

/-- The powered hour at which a least-squares line through the last 180 records' lowest slack reaches 5% (R525). -/
def predictedEnd (l : List WearRec) : Nat :=
  let l := l.take 180
  let n : Rat := (l.length : Rat)
  let sx : Rat := (l.map (fun r => (r.hours : Rat))).sum
  let sy : Rat := (l.map (fun r => (r.s7 : Rat))).sum
  let sxx : Rat := (l.map (fun r => (r.hours : Rat) * (r.hours : Rat))).sum
  let sxy : Rat := (l.map (fun r => (r.hours : Rat) * (r.s7 : Rat))).sum
  let d := n * sxx - sx * sx
  let slope := if d = 0 then 0 else (n * sxy - sx * sy) / d
  if l.length < 30 ∨ 0 ≤ slope then 61320
  else ((500 - (sy - slope * sx) / n) / slope).floor.toNat

/-- The wear summary (Table 20-5). -/
def State.wearSummary (s : State) : List Nat :=
  let f := s.flash
  let last := match f.wear with
    | [] => 0
    | r :: _ => wrapInt 16 r.s7 + r.s7Quad * 2 ^ 16 + r.topCode * 2 ^ 24
  let top := f.wear.foldl (fun m r => match r.junction with | some v => maxReading m v | none => m) none
  [f.hours, 61320, predictedEnd f.wear, last, f.trips, match top with | some v => wrapInt 64 v | none => 0,
   s.lifeCe, f.wear.length]

/-- The values of a scope, shadow copies or lifetime totals; device objects of other partitions read as 0. -/
def scopeValues (s : State) (m cls idx : Nat) (life : Bool) : List Nat :=
  if cls = 9 then s.wearSummary
  else (List.range (classCount cls)).map (fun i =>
    if cls = 8 && m != 0 && !(s.part m).devObjs.contains (idx + i) then 0
    else Sparse.get 0 (if life then s.period.lifetime else s.period.shadow) (counterKey cls idx i))

/-- COUNTERS_READ (R509). -/
def execCountersRead (m : MailboxId) (q : BitVec 16) (s : State) : Out :=
  .next (startCmd m.val q.toNat Op.countersRead s (fun c s =>
    let v := c.itemD 1 0
    let cls := bits v 0 8
    let life := bit v 8
    let idx := bits v 16 16
    let size := if life then 16 else 8
    withItems m.val q.toNat 1 [1] c (fun _ v s =>
      if bits v 9 7 != 0 || bits v 32 32 != 0 || classCount cls == 0 || (cls == 9 && life) then .error .rejectedArg
      else if m.val != 0 && !scopeIn s m.val cls idx then .error .authFail
      else if !scopeIndexOk s cls idx then .error .rejectedArg
      else only (decide (32 + classCount cls * size ≤ c.resultLen)) s)
    (fun s => finishOk m.val q.toNat [] (giveResult c
      (leBytes 8 s.period.latchedIndex ++ leBytes 8 s.period.latchedLength ++ leBytes 4 v ++ leBytes 4 (classCount cls)
        ++ leBytes 8 0 ++ (scopeValues s m.val cls idx life).flatMap (leBytes size)) s)) s))

/-! ## ACCOUNT_READ (Table 18-6) -/

def JobRun.code : JobRun → Nat
  | .loaded => 1
  | .ready => 2
  | .holding => 3
  | .ended => 4
  | .tornDown => 5

/-- The 128 bytes of a job's record. -/
def accountBytes (latched j : Nat) (J : Job) : List Byte :=
  let a := J.acct
  let l := a.latched
  leBytes 128 (j + J.state.code * 2 ^ 8 + ((if a.programErr then 1 else 0) + (if J.tahr then 2 else 0)) * 2 ^ 16
    + J.part * 2 ^ 24 + l.abandons % 2 ^ 32 * 2 ^ 160 + min max32 l.supersteps * 2 ^ 192 + l.switches % 2 ^ 32 * 2 ^ 224
    + latched % 2 ^ 64 * 2 ^ 256 + l.heldNs % 2 ^ 64 * 2 ^ 320 + l.mxBeats % 2 ^ 64 * 2 ^ 384
    + l.vxBeats % 2 ^ 64 * 2 ^ 448 + l.bytes % 2 ^ 64 * 2 ^ 512 + l.energy % 2 ^ 64 * 2 ^ 576
    + a.lifeBytes % 2 ^ 128 * 2 ^ 640 + a.lifeBeats % 2 ^ 128 * 2 ^ 768 + a.lifeEnergy % 2 ^ 128 * 2 ^ 896)
/-- The module record: the energy that no job was charged. -/
def moduleBytes (s : State) : List Byte :=
  leBytes 128 (s.period.latchedIndex % 2 ^ 64 * 2 ^ 256 + s.chamois.modLatched.floor.toNat % 2 ^ 64 * 2 ^ 576
    + s.chamois.modLife.floor.toNat % 2 ^ 128 * 2 ^ 896)

/-- ACCOUNT_READ (R487). -/
def execAccountRead (m : MailboxId) (q : BitVec 16) (s : State) : Out :=
  .next (startCmd m.val q.toNat Op.accountRead s (fun c s => noItems m.val q.toNat c (fun s =>
    finishOk m.val q.toNat []
      (giveResult c (if s.jobUsed c.index then accountBytes s.period.latchedIndex c.index (s.job c.index) else moduleBytes s) s)) s))

/-- LINK_STATUS (R441, R401): registers 0x00 to 0x4C at their offsets, in 128 bytes. -/
def execLinkStatus (m : MailboxId) (q : BitVec 16) (s : State) : Out :=
  .next (startCmd m.val q.toNat Op.linkStatus s (fun c s => noItems m.val q.toNat c (fun s =>
    finishOk m.val q.toNat [] (giveResult c (blockBytes (linkReg (s.link c.index)) 0 128) s)) s))

/-! ## TILE_DEBUG -/

/-- A running or parked tile halts; a parked one keeps what it waits for. -/
def haltTile (t : Nat) (s : State) : State :=
  raiseHalt (s.partOf t) (s.updTile t (fun T => { T with run := .halted }))
/-- A halted tile runs on, or is parked again and goes on where its wait is over; the recorded trap is cleared, and an
issue trap's instruction executes once without the check that raised it (R465). -/
def unhaltTile (t : Nat) (s : State) : State :=
  let s := s.updTile t (fun T => { T with
    run := if T.park = .none then .running else .parked
    tahr := { T.tahr with valid := false, pass := if T.tahr.valid && !T.tahr.arrival then some T.tahr.code.toNat else T.tahr.pass } })
  if (s.tile t).run = .running then takeWaitingTrap t s else wake t s

/-- TILE_DEBUG_HALT (R441): ACTION 1, or an ACTION that is neither, which fails. -/
def execTileDebugHalt (m : MailboxId) (q : BitVec 16) (s : State) : Out :=
  .next (startCmd m.val q.toNat Op.tileDebug s (fun c s =>
    if c.item 1 = some 2 then s
    else withItems m.val q.toNat 1 [1] c (fun _ v s => only (v == 1) s)
      (fun s =>
        match (s.tile c.index).run with
        | .running | .parked => finishOk m.val q.toNat [] (haltTile c.index s)
        | .halted => finishOk m.val q.toNat [] s
        | _ => finish m.val q.toNat .rejectedState 0xFFFF 0 [] s) s))

/-- TILE_DEBUG_RESUME (R441, R465): ACTION 2. -/
def execTileDebugResume (m : MailboxId) (q : BitVec 16) (s : State) : Out :=
  .next (startCmd m.val q.toNat Op.tileDebug s (fun c s =>
    if c.item 1 ≠ some 2 then s
    else withItems m.val q.toNat 1 [1] c (fun _ _ s => .ok s)
      (fun s =>
        if (s.tile c.index).run = .halted then finishOk m.val q.toNat [] (unhaltTile c.index s)
        else finish m.val q.toNat .rejectedState 0xFFFF 0 [] s) s))

end Sys2Proof.Machine
end

