-- ==== Sys2Proof/Machine/Configs.lean ====
section
/-! DEFINITION. Commands that change numbers of a running object: RED_REARM, COMMIT_CONFIG, the CXL.mem range, HEALTH_CONFIG
and the two actions of CHECKPOINT (spec/16 Table 16-8; spec/12 R342; spec/14 R442; spec/20 R516, R522, R523). -/

namespace Sys2Proof.Machine

/-! ## Reduction and commit entries -/

/-- RED_REARM (R369): the entry's four shares are COMPLETE, and are rearmed; `hits` is what an access for a ring packet that was
held meets. -/
def execRedRearm (m : MailboxId) (q : BitVec 16) (hits : List StackHit) (s : State) : Out :=
  .next (startCmd m.val q.toNat Op.redRearm s (fun c s => noItems m.val q.toNat c (fun s =>
    let ks := sharesOf c.index
    if ks.all (fun k => (s.red k).state == .complete) then
      finishOk m.val q.toNat [] (ks.foldl (fun s k => rearm k hits s) s)
    else finish m.val q.toNat .rejectedState 0xFFFF 0 [] s) s))

/-- A value is an integer of −60 to 60, sign-extended over 64 bits (R442). -/
def workExpOk (v : Nat) : Bool := decide (v ≤ 60) || decide (2 ^ 64 - 60 ≤ v)

/-- The ENABLE item that a COMMIT_CONFIG item names (Tables 16-8, 16-9). -/
def configItem (id : Nat) : Nat :=
  match id with
  | 7 => 13
  | 8 => 16
  | _ => id + 16
/-- A COMMIT_CONFIG value is in its encoding (R442). -/
def configOk (id v : Nat) : Bool :=
  match id with
  | 7 => workExpOk v
  | 8 => decide (v < 65536)
  | _ => decide (v < 2 ^ 32)
/-- A commit entry with one field of COMMIT_CONFIG replaced. -/
def ComEntry.setConfig (c : ComEntry) (id v : Nat) : ComEntry :=
  match id with
  | 1 => { c with b1 := v }
  | 2 => { c with a1 := v }
  | 3 => { c with b2 := v }
  | 4 => { c with a2 := v }
  | 5 => { c with eps := v }
  | 6 => { c with wd := v }
  | 7 => { c with workExp := v % 256 }
  | _ => { c with digestEvery := v }

/-- COMMIT_CONFIG (R442): into the entry between two commits where it is ON, into its recorded configuration where it is
OFF or CLOSING; it waits while the entry starts up or a share commits. -/
def execCommitConfig (m : MailboxId) (q : BitVec 16) (s : State) : Out :=
  .next (startCmd m.val q.toNat Op.commitConfig s (fun c s =>
    let ks := sharesOf c.index
    if s.cmdWaits c then s
    else match (s.life 6 c.index).run with
    | .on => withItems m.val q.toNat 8 [] c (fun id v s =>
          if configOk id v then .ok (ks.foldl (fun s k => s.updCom k (fun x => x.setConfig id v)) s) else .error .rejectedArg)
        (finishOk m.val q.toNat []) s
    | _ => withItems m.val q.toNat 8 [] c (fun id v s =>
          if configOk id v then .ok (s.updLife 6 c.index (fun x => { x with config := Sparse.set x.config (configItem id) v }))
          else .error .rejectedArg)
        (finishOk m.val q.toNat []) s))

/-! ## The CXL.mem range (R342) -/

/-- A byte range of the DDR tier, from its start, meets the DDR range of a live partition. -/
def State.ddrTaken (s : State) (base size : Nat) : Bool :=
  s.liveParts.any (fun p =>
    let P := s.part p
    (List.range 4).any (fun d => dieIn P.ddrSet d &&
      overlaps (d * s.ddrDie + P.ddrBase * gib) (P.ddrSize * gib) base size))

/-- CXLMEM_SET (R342): refused while a partition holds the range. The decoder is closed by its first item and opened by
its second, which checks both (log 42). -/
def execCxlmemSet (m : MailboxId) (q : BitVec 16) (s : State) : Out :=
  .next (startCmd m.val q.toNat Op.cxlmemSet s (fun c s =>
    if s.cxl.owner ≠ 0 then finish m.val q.toNat .rejectedState 0xFFFF 0 [] s
    else withItems m.val q.toNat 2 [1, 2] c (fun id v s =>
        if id = 1 then
          if v * gib ≤ s.ddrSize then .ok { s with cxl := { s.cxl with base := v * gib, exposed := false } }
          else .error .rejectedArg
        else if s.ddrSize < s.cxl.base + v * gib then .error .rejectedArg
        else if s.ddrTaken s.cxl.base (v * gib) then .error .rejectedState
        else .ok { s with cxl := { s.cxl with size := v * gib, exposed := decide (0 < v) } })
      (finishOk m.val q.toNat []) s))

/-- CXLMEM_HANDOVER (R342): the range moves between the host and a partition, once every access of the giving partition,
of its tiles and over its links, has completed. -/
def execCxlmemHandover (m : MailboxId) (q : BitVec 16) (s : State) : Out :=
  .next (startCmd m.val q.toNat Op.cxlmemHandover s (fun c s =>
    let x := s.cxl
    if s.cmdWaits c then s
    else withItems m.val q.toNat 1 [1] c (fun _ v s =>
        if 16 < v then .error .rejectedArg
        else if x.size = 0 ∨ (v ≠ 0 ∧ !(s.part v).live) then .error .rejectedState
        else .ok { s with cxl := { s.cxl with owner := v, exposed := v == 0 } })
      (finishOk m.val q.toNat []) s))

/-! ## Run health (R516) -/

/-- The DDR byte ranges, as device addresses, that jobs of a partition hold: allotments and checkpoint areas. -/
def State.ddrHeld (s : State) (p : Nat) : List Allot :=
  (s.jobsOf p).flatMap (fun j => (s.job j).ddr.map (·.2) ++ (s.job j).health.areas)

/-- The partition's ranges in DDR die ranges, as device addresses, highest first. -/
def State.ddrRanges (s : State) (p : Nat) : List Allot :=
  let P := s.part p
  ([3, 2, 1, 0].filter (dieIn P.ddrSet)).map (fun d => ⟨ddrBase + d * s.ddrDie + P.ddrBase * gib, P.ddrSize * gib⟩)

/-- The highest place for `n` bytes below `top` in a range that starts at `lo`, clear of what is held; `fuel` bounds the
pieces met. -/
def placeHigh (held : List Allot) (lo n : Nat) : Nat → Nat → Option Nat
  | 0, _ => none
  | fuel + 1, top =>
    if top < lo + n then none
    else
      match held.filter (fun h => overlaps h.base h.size (top - n) n) with
      | [] => some (top - n)
      | l => placeHigh held lo n fuel (l.foldl (fun t h => min t h.base) top)

/-- The highest place for `n` bytes over several ranges, tried in order. -/
def placeHighIn (held : List Allot) (n : Nat) (rs : List Allot) : Option Nat :=
  rs.findSome? (fun r => placeHigh held r.base n (held.length + 1) (r.base + r.size))

/-- `k` areas of `n` bytes, each at the highest free place (R519). -/
def placeAreas (rs : List Allot) (n : Nat) : Nat → List Allot → List Allot → Option (List Allot)
  | 0, _, got => some got
  | k + 1, held, got =>
    match placeHighIn held n rs with
    | none => none
    | some a => placeAreas rs n k (⟨a, n⟩ :: held) (got ++ [⟨a, n⟩])

/-- The checkpoint areas of a job are reserved: four slots of size S (R519). Areas of that size that it has stay. -/
def reserveAreas (j : Nat) (s : State) : Option State :=
  let J := s.job j
  let n := s.slotSize j
  if J.health.areas.length = 4 ∧ J.health.areas.all (fun a => a.size == n) then some s
  else
    let s := s.updHealth j (fun h => { h with areas := [], local0 := {}, local1 := {}, buddy0 := {}, buddy1 := {} })
    (placeAreas (s.ddrRanges J.part) n 4 (s.ddrHeld J.part) []).map (fun l => s.updHealth j (fun h => { h with areas := l }))

/-- One item of HEALTH_CONFIG (R516). -/
def healthItem (j id v : Nat) (s : State) : Except Status State :=
  let h := (s.job j).health
  match id with
  | 1 => if 0 < v ∧ v ≤ 0x3F800000 then .ok (s.updHealth j (fun h => { h with alpha := v })) else .error .rejectedArg
  | 2 =>
    let t := if v = 0x80000000 then 0 else v
    if t = 0 ∨ (0x3F800000 < t ∧ t ≤ 0x7F800000) then
      .ok (s.updHealth j (fun x => { x with thresh := t, warm := if h.thresh = 0 ∧ t ≠ 0 then 0 else x.warm }))
    else .error .rejectedArg
  | _ =>
    if 65535 < v then .error .rejectedArg
    else
      let set (s : State) := s.updHealth j (fun h => { h with ckptEvery := v })
      if h.ckptEvery = 0 ∧ v ≠ 0 then
        match reserveAreas j s with
        | some s => .ok (set s)
        | none => .error .noResource
      else .ok (set s)

/-- HEALTH_CONFIG (R516). -/
def execHealthConfig (m : MailboxId) (q : BitVec 16) (s : State) : Out :=
  .next (startCmd m.val q.toNat Op.healthConfig s (fun c s =>
    heldPosts c.index
      (withItems m.val q.toNat 3 [] c (fun id v s => healthItem c.index id v s) (finishOk m.val q.toNat []) s)))

/-! ## CHECKPOINT (R522, R523) -/

/-- CHECKPOINT_TAKE (R522): ACTION 1, or an ACTION that is neither, which fails; the final record comes with the first
checkpoint that begins from now on and completes. -/
def execCheckpointTake (m : MailboxId) (q : BitVec 16) (s : State) : Out :=
  .next (startCmd m.val q.toNat Op.checkpoint s (fun c s =>
    if c.item 1 = some 2 then s
    else withItems m.val q.toNat 1 [1] c (fun _ v s => only (v == 1) s)
      (fun s =>
        let J := s.job c.index
        if J.state = .tornDown ∨ J.state = .ended ∨ J.health.areas.isEmpty then
          finish m.val q.toNat .rejectedState 0xFFFF 0 [] s
        else (s.updCmd m.val q.toNat (fun c => { c with phase := .waiting })).updHealth c.index
          (fun h => { h with asked := h.asked ++ [(m.val, q.toNat)] })) s))

/-- The keys of the commit entries' shares that a job has had enabled, whatever their state (R386, R523). -/
def State.comsKept (s : State) (j : Nat) : List Nat :=
  (s.coms.filter (fun e => e.2.enabledOnce && (s.red e.1).job == j)).map (·.1)
/-- The same as entry numbers. -/
def State.comEntriesKept (s : State) (j : Nat) : List Nat :=
  ((s.comsKept j).map entryOf).foldl (fun l e => if l.contains e then l else l ++ [e]) []

/-- Bytes of a share written over its array at `x`. -/
def shareWrites (k x : Nat) (bs : List Byte) : List (Nat × List Byte) :=
  List.zipWith (fun o b => (shareAddr x (k / 64) o, [b])) (List.range bs.length) bs

/-- Slot c of a share in a slot's bytes (R523). -/
def slotOf (s : State) (es : List Nat) (slot : List Byte) (k : Nat) : Nat :=
  Stat.wTag (leNat ((slot.drop (s.shareAt es k)).take 64)) % 2
/-- One share's arrays written back from a slot's bytes, to slot c of their own addresses (R523). -/
def rollShare (es : List Nat) (slot : List Byte) (k : Nat) (s : State) : State :=
  let x := s.com k
  let c := slotOf s es slot k
  let b := slot.drop (s.shareAt es k + 512)
  let m := 6 * x.used
  let w := shareWrites k (x.master c) (b.take m) ++ shareWrites k (x.m1 c) ((b.drop m).take (4 * x.used))
    ++ (if x.rule = 0 then [] else shareWrites k (x.m2 c) ((b.drop (m + 4 * x.used)).take (4 * x.used)))
  applyWrites w s

/-- What a rollback writes: slot c of the arrays of every share. It reads the slot's area. -/
def State.rollWrites (s : State) (es : List Nat) (slot : List Byte) : List (Nat × Nat) :=
  (es.flatMap sharesOf).flatMap (fun k => ckptRanges s k (slotOf s es slot k))

/-- A slot is rolled back to: its arrays are written, no slot is complete any more, and DETAIL says which it was. Where one of the
accesses fails (R325, R328, R329) the command ends FAULTED with nothing written. -/
def rollBack (m q j source : Nat) (area : Allot) (pinned : Bool) (es : List Nat) (slot : List Byte) (hits : List StackHit)
    (s : State) : State :=
  match ibexAccess j hits [(area.base, area.size)] (s.rollWrites es slot) s with
  | .error e => finish m q .faulted 0xFFFF e.1 [] e.2
  | .ok s =>
    let s := (es.flatMap sharesOf).foldl (fun s k => rollShare es slot k s) s
    let s := s.updHealth j (fun h => { h with local0 := {}, local1 := {}, buddy0 := {}, buddy1 := {} })
    finishOk m q (slot.take 8 ++ leBytes 1 source ++ leBytes 1 (if pinned then 1 else 0)) s

/-- CHECKPOINT_ROLLBACK (R523): ACTION 2. With no local slot the z+ neighbour is asked for its buddy slot, and the command
ends when `buddy` has come. `hits` is what the accesses meet. -/
def execCheckpointRollback (m : MailboxId) (q : BitVec 16) (buddy : Option (List Byte)) (hits : List StackHit) (s : State) : Out :=
  .next (
    let m := m.val
    let q := q.toNat
    match s.cmd m q, buddy with
    | some c, some slot =>
      if c.opcode == Op.checkpoint && c.phase == .waiting && c.item 1 == some 2 then
        if !s.jobUsed c.index then finish m q .rejectedState 0xFFFF 0 [] s
        else rollBack m q c.index 1 ⟨0, 0⟩ (slot.drop 8 |>.headD 0 |> (· != 0)) (s.comEntriesKept c.index) slot hits s
      else s
    | _, _ =>
      startCmd m q Op.checkpoint s (fun c s =>
        if c.item 1 ≠ some 2 then s
        else withItems m q 1 [1] c (fun _ v s => only (v == 2) s)
          (fun s =>
            let J := s.job c.index
            if J.state ≠ .tornDown then finish m q .rejectedState 0xFFFF 0 [] s
            else
              match selectSlot J.health.local0 J.health.local1 with
              | some n =>
                let a := J.health.area n
                let x := J.health.slot n
                rollBack m q c.index 0 a x.pinned x.entries (readBytes s.mem a.base a.size) hits s
              | none =>
                if J.lz ≤ 1 then finish m q .rejectedState 0xFFFF 0 [] s
                else pushFace c.index 5 2 1 J.linkStep (.buddyAsk 0) (s.updCmd m q (fun c => { c with phase := .waiting }))) s))

end Sys2Proof.Machine
end

