-- ==== Sys2Proof/Machine/Life.lean ====
section
/-! DEFINITION. Lifecycle objects (spec/16 section 16.6): ENABLE and DISABLE by state (Table 16-7), the recorded
configuration, start-up with its checks (R350, R375, R471), shutdown. -/

namespace Sys2Proof.Machine

/-! ## Items (Table 16-9, Table 18-1) -/

/-- How many ENABLE items a kind has. -/
def enableItems (kind : Nat) : Nat :=
  match kind with
  | 1 => 11
  | 2 => 1
  | 5 => 16
  | 6 => 25
  | _ => 0

/-- A set of stacks or channels names whole dies, with bits 63:17 zero. -/
def dieSetOk (v : Nat) : Bool :=
  decide (v < 2 ^ 17) && (List.range 4).all (fun d => bits v (4 * d) 4 == 0 || bits v (4 * d) 4 == 15)
/-- Base and size in GiB sum to at most `top`. -/
def gibRangeOk (top v : Nat) : Bool := decide (v % 2 ^ 32 + v / 2 ^ 32 ≤ top)
/-- The width of field `id` of a table. -/
def fieldWidth (l : List (Nat × Nat)) (id : Nat) : Nat := (l.getD (id - 1) (0, 0)).2

/-- An item's value is in its encoding; `x` is the recorded configuration so far. -/
def enableItemOk (kind id v : Nat) (x : Life) : Bool :=
  match kind with
  | 1 =>
    match id with
    | 1 | 3 => true
    | 2 | 4 => decide (v < 2 ^ 32)
    | 5 | 7 => dieSetOk v
    | 6 => gibRangeOk 288 v
    | 8 => gibRangeOk 1024 v
    | 9 => decide (v ≤ 1024)
    | 10 => v % 0x200000 == 0 && decide (v < 2 ^ 51)
    | _ => v % 0x200000 == 0 && decide (Sparse.get 0 x.config 10 + v ≤ 2 ^ 51)
  | 2 => decide (v < 8) && v != 6
  | 5 => decide (v < 2 ^ fieldWidth redFields id)
  | 6 =>
    if id = 13 then workExpOk v
    else if id = 24 then decide (v ≤ 2)
    else if id = 25 then decide (v < 2 ^ 32)
    else decide (v < 2 ^ fieldWidth comFields id)
  | _ => false

/-- An item is recorded (R438). -/
def recordItem (kind idx id v : Nat) (s : State) : Except Status State :=
  if enableItemOk kind id v (s.life kind idx) then
    .ok (s.updLife kind idx (fun x => { x with config := Sparse.set x.config id v }))
  else .error .rejectedArg

/-- The value that an item was last recorded with; an item never recorded is 0, and FACE is none (log 44). -/
def Life.val (x : Life) (id : Nat) : Nat := Sparse.get 0 x.config id

/-! ## Start-up of a partition (R471, R472) -/

/-- The partition that a recorded configuration describes, without its device objects. -/
def partOfConfig (x : Life) : Partition where
  live := true
  quads := (List.range 64).filter (fun q => bit (x.val 1) q) ++ ((List.range 32).filter (fun q => bit (x.val 2) q)).map (64 + ·)
  links := (List.range 64).filter (fun k => bit (x.val 3) k) ++ ((List.range 32).filter (fun k => bit (x.val 4) k)).map (64 + ·)
  hbmSet := bits (x.val 5) 0 16
  hbmDedicated := bit (x.val 5) 16
  hbmBase := bits (x.val 6) 0 32
  hbmSize := bits (x.val 6) 32 32
  ddrSet := bits (x.val 7) 0 16
  ddrDedicated := bit (x.val 7) 16
  ddrBase := bits (x.val 8) 0 32
  ddrSize := bits (x.val 8) 32 32
  hostBase := x.val 10
  hostSize := x.val 11

/-- Two partitions' sets of one tier clash: a shared unit that either has dedicated, or ranges that overlap on a shared
die range. -/
def setsClash (setA setB : Nat) (dedA dedB : Bool) (baseA sizeA baseB sizeB : Nat) : Bool :=
  let shared := (List.range 4).any (fun d => dieIn setA d && dieIn setB d)
  shared && (dedA || dedB || overlaps baseA sizeA baseB sizeB)

/-- Two partitions cannot both be live (R471). -/
def Partition.clash (P Q : Partition) : Bool :=
  P.quads.any (fun q => Q.quads.contains q) || P.links.any (fun k => Q.links.contains k)
    || setsClash P.hbmSet Q.hbmSet P.hbmDedicated Q.hbmDedicated P.hbmBase P.hbmSize Q.hbmBase Q.hbmSize
    || setsClash P.ddrSet Q.ddrSet P.ddrDedicated Q.ddrDedicated P.ddrBase P.ddrSize Q.ddrBase Q.ddrSize

/-- The DDR range of a partition meets the exposed CXL.mem range. -/
def Partition.meetsCxl (P : Partition) (s : State) : Bool :=
  s.cxl.exposed && (List.range 4).any (fun d => dieIn P.ddrSet d &&
    overlaps (d * s.ddrDie + P.ddrBase * gib) (P.ddrSize * gib) s.cxl.base s.cxl.size)

/-- The lowest-numbered free device objects. -/
def State.freeDevObjs (s : State) (p n : Nat) : List Nat :=
  ((List.range 1024).filter (fun o => !s.liveParts.any (fun r => r != p && (s.part r).devObjs.contains o))).take n

/-- A byte range of herd memory reads as 0. -/
def clearMem (a n : Nat) (s : State) : State :=
  { s with
    mem := clearBytes s.mem a n
    eccBad := s.eccBad.filter (fun w => !within (w * 8) 8 a n)
    eccSoft := s.eccSoft.filter (fun w => !within (w * 8) 8 a n) }

/-- Partition `p`'s range in a die range of HBM or of the DDR tier reads as 0, but for what lies behind a controller that is not
enabled, which refuses the writes (R325; log 102). The rest is charged to the partition, and to no job (R479, R488); `first` is
the die range's first unit. -/
def clearTier (p first a n : Nat) (s : State) : State :=
  let on (u : Nat) : Bool := (s.mc u).run == .enabled
  let units := ((List.range 4).filter (fun i => on (first + i))).length
  let s := s.noteBlocks (partUse p) (decide (ddrBase ≤ a)) (n / 256 * units)
  { s with
    mem := s.mem.filter (fun e => !(decide (a ≤ e.1 ∧ e.1 < a + n) && on (s.unitOf e.1)))
    badBlocks := s.badBlocks.filter (fun b => !(within b 64 a n && on (s.unitOf b))) }

/-- What start-up clears (R472): herd memories, HBM and DDR ranges, herd objects, assigned device objects. -/
def clearPart (p : Nat) (s : State) : State :=
  let P := s.part p
  let s := P.herds.foldl (fun s h => clearMem (herdBase h) 0x1000000 s) s
  let s := ((List.range 4).filter (dieIn P.hbmSet)).foldl
    (fun s d => clearTier p (4 * d) (hbmBase + d * hbmDie + P.hbmBase * gib) (P.hbmSize * gib) s) s
  let s := ((List.range 4).filter (dieIn P.ddrSet)).foldl
    (fun s d => clearTier p (16 + 4 * d) (ddrBase + d * s.ddrDie + P.ddrBase * gib) (P.ddrSize * gib) s) s
  { s with syncs := s.syncs.filter (fun e =>
      !(if e.1 < 0x20000 then P.herds.contains (e.1 / 256) else P.devObjs.contains (e.1 - 0x20000))) }

/-- Start-up of partition `p`. -/
def startPartition (p : Nat) (s : State) : Except Status State :=
  let x := s.life 1 p
  let P := partOfConfig x
  let objs := s.freeDevObjs p (x.val 9)
  if P.quads.isEmpty || P.quads.any (fun q => decide (s.quadCount ≤ q) || (s.quad q).barred == some 0)
      || (s.liveParts.filter (· != p)).any (fun r => P.clash (s.part r))
      || P.meetsCxl s || decide (4 * s.ddrGib < P.ddrBase + P.ddrSize) || decide (objs.length < x.val 9)
  then .error .noResource
  else
    let s := clearPart p (s.setPart p { P with devObjs := objs })
    let s := s.updPpower p (fun _ => {})
    .ok (commandStep p (min 8 (s.ceiling p)) s)

/-! ## Start-up of a reduction entry (R350, R440, R475) -/

/-- The sending mailbox may enable an entry for a job (R440). -/
def State.jobOpenTo (s : State) (sender j : Nat) : Bool :=
  s.jobUsed j && (s.job j).state != .tornDown && (sender == 0 || (s.job j).part == sender)

/-- A byte range lies in a job's HBM allotment of a die range. -/
def Job.inHbm (J : Job) (d a n : Nat) : Bool :=
  match Sparse.find J.hbm d with
  | some r => within a n r.base r.size
  | none => false

/-- The entry that the recorded configuration describes. -/
def redOfConfig (x : Life) : RedEntry :=
  ({} : RedEntry).withBits (packFields redFields ((List.range 16).map (fun i => x.val (i + 1))))

/-- The checks of R350 and R475 on an entry of die `d`. -/
def redOk (s : State) (d : Nat) (x : RedEntry) : Bool :=
  let J := s.job x.job
  x.bufBase % 16384 == 0 && x.stageBase % 16384 == 0 && decide (1 ≤ x.bufGrans)
    && decide (1 ≤ x.contribs ∧ x.contribs ≤ 16384) && decide (1 ≤ x.expectRounds)
    && decide (1 ≤ x.ringLen ∧ x.ringLen ≤ 16) && decide (x.ringPos < x.ringLen) && decide (x.nextLink < 96)
    && decide (1 ≤ x.pool) && (s.refObj J.part x.syncRef).isSome
    && J.inHbm d x.bufBase x.bufBytes && J.inHbm d x.stageBase x.stageBytes
    && !overlaps x.bufBase x.bufBytes x.stageBase x.stageBytes

/-- Start-up of reduction entry `idx`: the four entries are written and OPEN. -/
def startRed (sender idx : Nat) (s : State) : Except Status State :=
  let x := redOfConfig (s.life 5 idx)
  if !s.jobOpenTo sender x.job then .error .rejectedState
  else if !redOk s (idx / 64) x then .error .rejectedArg
  else .ok ((sharesOf idx).foldl (fun s k => s.setRed k { x with state := .opened }) s)

/-! ## Start-up of a commit entry (R375, R376, R390, R440, R475) -/

/-- The entry that the recorded configuration describes. Under SGDM, M2_0 and M2_1 are ignored (R375), and the reserved bits of
their registers read as 0 all the same (R11, R34). -/
def comOfConfig (x : Life) : ComEntry :=
  let c := ({} : ComEntry).withBits (packFields comFields ((List.range 23).map (fun i => x.val (i + 1))))
  { c with m20 := if c.rule = 0 then addrField c.m20 else c.m20, m21 := if c.rule = 0 then addrField c.m21 else c.m21 }

/-- No two ranges of a list meet. -/
def rangesApart : List (Nat × Nat) → Bool
  | [] => true
  | r :: l => l.all (fun q => !overlaps r.1 r.2 q.1 q.2) && rangesApart l

/-- The checks of R375 and R475 on an entry of die `d` beside reduction entry `x`; M2_0 and M2_1 are not checked under SGDM. -/
def comOk (s : State) (d : Nat) (x : RedEntry) (c : ComEntry) : Bool :=
  let J := s.job x.job
  decide (c.rule ≤ 2) && decide (1 ≤ c.workFmt ∧ c.workFmt ≤ 3) && decide (c.used ≤ x.bufGrans * 1024)
    && (!c.workLayout || (c.recBytes % 128 == 0 && decide (c.recBytes ≤ 4096)
          && decide (c.hdrBytes + 1024 * c.workSize ≤ c.recBytes)))
    && (s.refObj J.part c.commitRef).isSome
    && c.arrays.all (fun r => r.1 % 16384 == 0 && J.inHbm d r.1 r.2)
    && rangesApart (c.arrays ++ [(x.bufBase, x.bufBytes), (x.stageBase, x.stageBytes)])

/-- A share's status block with both tags at `cnt` (R376). -/
def initWrite (s : State) (k cnt : Nat) : Nat × List Byte :=
  let prev := ((s.red k).step + 2 ^ 32 - 1) % 2 ^ 32
  statusWrite s k (cnt + cnt * 2 ^ 32 + prev * 2 ^ 96 + prev * 2 ^ 128)
/-- The writes of a share's working copy as it is derived from master at slot `cnt` mod 2 (R390). -/
def deriveWrites (s : State) (k cnt : Nat) : List (Nat × List Byte) :=
  let c := s.com k
  workWrites c k ((List.range c.used).map (fun i => elemNat s k (c.master cnt) (i * 6) 6))

/-- A share starts up (R376, R390): INIT 1 and 2 write its status block, and INIT 2 derives the working copy, unless one of the
accesses fails (R328, R329). They count for the job (R479). -/
def initShare (init cnt k : Nat) (hits : List StackHit) (s : State) : Except (Nat × State) State :=
  if init = 0 then .ok s
  else
    let w := initWrite s k cnt
    let c := s.com k
    let ws := if init = 2 then deriveWrites s k cnt else []
    let reads := if init = 2 then (List.range (ceilDiv (6 * c.used) 64)).map (fun i => shareAddr (c.master cnt) (k / 64) (64 * i)) else []
    match firmAccess k hits reads (w.1 :: ws.map (fun w => w.1 / 64 * 64)) s with
    | .error e => .error e
    | .ok s => .ok (applyWrites ws (s.writeMem w.1 w.2))
/-- The four shares of an entry. -/
def initShares (init cnt : Nat) (hits : List StackHit) : List Nat → State → Except (Nat × State) State
  | [], s => .ok s
  | k :: ks, s =>
    match initShare init cnt k hits s with
    | .error e => .error e
    | .ok s => initShares init cnt hits ks s

/-- Start-up of commit entry `idx`; `hits` is what its accesses meet. A failure has its status, and the state that it leaves. -/
def startCom (sender idx : Nat) (hits : List StackHit) (s : State) : Except (Status × State) State :=
  let l := s.life 6 idx
  let ks := sharesOf idx
  let x := s.red (ks.headD 0)
  let c := comOfConfig l
  if (s.life 5 idx).run != .on || !s.jobOpenTo sender x.job then .error (.rejectedState, s)
  else if !comOk s (idx / 64) x c then .error (.rejectedArg, s)
  else
    match initShares (l.val 24) (l.val 25) hits ks (ks.foldl (fun s k => s.setCom k { c with state := .off, enabledOnce := true }) s) with
    | .error e => .error (.faulted, { e.2 with coms := s.coms })
    | .ok s' =>
      if ks.any (fun k => Stat.momTag (s'.status k) != Stat.wTag (s'.status k)) then .error (.rejectedState, s)
      else .ok (ks.foldl (fun s k => s.updCom k (fun c => { c with state := .ready })) s')
/-- The start-up of commit entry `idx` has to wait for a mover write to its arrays that is sent again (R330). -/
def State.comStartWaits (s : State) (idx : Nat) : Bool := s.rangesWait (comOfConfig (s.life 6 idx)).arrays

/-! ## Start-up of a DDR channel (R323 to R325) -/

/-- D once every channel has trained: the smallest capacity (R324). -/
def State.tierGib (s : State) : Nat :=
  let ds := (List.range 16).map (fun c => Sparse.get 0 s.boot.dimms c)
  if ds.contains 0 then 0 else ds.foldl min 256

/-- A channel has trained: enabled, and the tier is mapped where it was the last. -/
def channelUp (c : Nat) (s : State) : State :=
  let s := s.updMc (16 + c) (fun m => { m with run := .enabled })
  let s := { s with boot := { s.boot with dimms := Sparse.set s.boot.dimms c (Sparse.get 0 s.boot.fitted c) } }
  if s.ddrGib = 0 ∧ s.tierGib ≠ 0 then
    let s := { s with ddrGib := s.tierGib }
    (List.range 16).foldl (fun s c => s.updMc (16 + c) (fun m => { m with gib := s.tierGib })) s
  else s

/-- Start-up of a channel: it trains, unless its DIMM was refused or its branch is open. -/
def startChannel (c : Nat) (trained : Bool) (s : State) : Except Status State :=
  if trained && Sparse.get 0 s.boot.fitted c != 0 && !s.power.openDimms.contains c then .ok (channelUp c s) else .error .faulted

/-! ## Shutdown -/

/-- A command waits on the partition that is stopping (R440, R461). -/
def State.waitsOn (s : State) (p : Nat) (c : Cmd) : Bool :=
  c.phase != .taken || s.objectBlocked p c || c.opcode == Op.commitConfig || c.opcode == Op.jobLoad

/-- Every waiting command of mailbox `p` ends REJECTED_STATE, and nothing waits for it any more (R440). -/
def endMailbox (p : Nat) (s : State) : State :=
  let qs := ((s.mb p).cmds.filter (s.waitsOn p)).map (·.seq)
  let s := qs.foldl (fun s q => finishPlain .rejectedState s (p, q)) s
  let gone (w : Nat × Nat) : Bool := w.1 != p || !qs.contains w.2
  let s := { s with lives := Sparse.mapVals (fun _ x => { x with
      enables := x.enables.filter gone
      disables := x.disables.filter gone
      pend := x.pend.filter gone }) s.lives }
  { s with jobs := Sparse.mapVals (fun _ J => { J with
      aborts := J.aborts.filter gone
      concord := J.concord.filter (fun c => gone (c.mailbox, c.seq))
      health := { J.health with asked := J.health.asked.filter gone, taking := J.health.taking.filter gone } }) s.jobs }

/-- JOB_LOAD commands of mailbox 0 into partition `p` that are in progress end REJECTED_STATE (R461). -/
def endLoads (p : Nat) (s : State) : State :=
  (((s.mb 0).cmds.filter (fun c => c.opcode == Op.jobLoad && c.index == p)).map (·.seq)).foldl
    (fun s q => finishPlain .rejectedState s (0, q)) s

/-- Every job of a stopping partition that is not torn down is aborted, in turn after a teardown that runs (Table 18-5). -/
def abortJobs (p : Nat) (s : State) : State :=
  if (s.jobsOf p).any (fun j => (s.job j).td != .none) then s
  else (s.jobsOf p).foldl (fun s j => tearDown j s) s

/-- A shutdown begins (Table 16-6). -/
def beginStop (kind idx : Nat) (s : State) : State :=
  let s := s.updLife kind idx (fun x => { x with run := .stopping })
  match kind with
  | 1 => abortJobs idx (endLoads idx (endMailbox idx s))
  | 2 =>
    let run := (s.link idx).run
    let keep := run == .up || run == .retraining
    s.updLink idx (fun x => { x with
      run := .closing, darkClose := run == .retraining
      waiting := if keep then x.waiting else [], replay := if keep then x.replay else [] })
  | 4 => s.updMc (16 + idx) (fun m => { m with run := .disabled })
  | 5 => (sharesOf idx).foldl (fun s k => closeEntry k s) s
  | 6 => (sharesOf idx).foldl (fun s k => (answerRequest k s).updCom k (fun c => { c with
      state := .closing, request := false, held := false })) s
  | _ => s

/-- A partition's resources are released (R473, R41), and its stopped tiles hold no job any more (R249); MSG_JOB is set only
while a tile is stopped (R274), so a FAULTED or HALTED tile, which stands for the post-mortem, keeps its own until JOB_UNLOAD
(`unloadJob`). The partition stays the owner of the CXL.mem range, which only CXLMEM_SET takes back (R342; log 104). -/
def releasePart (p : Nat) (s : State) : State :=
  let s := (s.partTiles p).foldl (fun s t =>
    if (s.tile t).port.job = 0 || (s.tile t).run != .stopped then s else s.updTile t (fun T => { T with port := { T.port with job := 0 } })) s
  (commandStep p 0 s).setPart p {}

/-- A shutdown has nothing left to wait for, and its hardware is off. -/
def stopEnd (kind idx : Nat) (s : State) : Option State :=
  match kind with
  | 1 => if (s.jobsOf idx).all (fun j => (s.job j).state == .tornDown) then some (releasePart idx s) else none
  | 2 =>
    if (s.link idx).drained then
      some (s.updLink idx (fun x => { x with run := .disabled }))
    else none
  | 5 => if (sharesOf idx).all (fun k => (s.red k).state == .free) then some s else none
  | 6 =>
    if (sharesOf idx).all (fun k => !(s.com k).busy) then
      some ((sharesOf idx).foldl (fun s k => s.updCom k (fun c => { c with state := .off })) s)
    else none
  | _ => some s

/-- LIFECYCLE_SHUTDOWN_END (R439): the shutdown or drain of an object ends. -/
def execLifecycleShutdownEnd (kind : Fin 7) (idx : BitVec 16) (s : State) : Out :=
  .next (
    let k := kind.val
    let i := idx.toNat
    if (s.life k i).run != .stopping then s
    else
      match stopEnd k i s with
      | some s => lifeOff k i s
      | none => if k = 1 then abortJobs i s else s)

/-- KUDU_CLOSING_END (R368): a Kudu's entry in CLOSING has handled everything accepted and every ring packet. -/
def execKuduClosingEnd (stack : Stack) (e : Fin 64) (s : State) : Out :=
  .next (
    let k := entryKey stack.val e.val
    if (s.red k).closed then freeEntry k s else s)

/-! ## Start-up ends -/

/-- A start-up that leaves nothing behind where it fails. -/
def orBack (s : State) : Except Status State → Except (Status × State) State
  | .ok s => .ok s
  | .error st => .error (st, s)

/-- The checks and the hardware of a start-up; `ok` says that a DDR channel trains, `hits` what a commit entry's accesses meet. -/
def startEnd (kind idx sender : Nat) (ok : Bool) (hits : List StackHit) (s : State) : Except (Status × State) State :=
  match kind with
  | 1 => orBack s (startPartition idx s)
  | 2 =>
    let x := s.life 2 idx
    let face := (Sparse.find x.config 1).getD 7
    .ok (s.setLink idx { s.link idx with run := .down, face := face, miscabled := false, light := 0 })
  | 4 => orBack s (startChannel idx ok s)
  | 5 => orBack s (startRed sender idx s)
  | 6 => startCom sender idx hits s
  | _ => .ok s

/-- LIFECYCLE_STARTUP_END (R438): a start-up ends ON, or fails and is OFF again; `ok` says that a DDR channel trains. A
DISABLE that came meanwhile now shuts the object down. -/
def execLifecycleStartupEnd (kind : Fin 7) (idx : BitVec 16) (ok : Bool) (hits : List StackHit) (s : State) : Out :=
  .next (
    let k := kind.val
    let i := idx.toNat
    let x := s.life k i
    if x.run != .starting || (k == 6 && s.comStartWaits i) then s
    else
      let sender := ((x.enables.head?).map (·.1)).getD 0
      match startEnd k i sender ok hits s with
      | .ok s =>
        let s := s.updLife k i (fun x => { x with run := .on, enables := [] })
        let s := x.enables.foldl (finishPlain .ok) s
        if x.disables.isEmpty then s else beginStop k i s
      | .error (st, s) =>
        let s := if k = 4 then s.updMc (16 + i) (fun m => { m with run := .failed }) else s
        lifeOff k i (x.enables.foldl (finishPlain st) (s.updLife k i (fun x => { x with enables := [] }))))

/-! ## ENABLE and DISABLE (Table 16-7) -/

/-- An ENABLE or DISABLE does not break a dependency of R440. -/
def dependsOk (s : State) (kind idx : Nat) (on : Bool) : Bool :=
  if kind = 2 ∧ on then (s.life 3 (idx / 8)).run == .on
  else if kind = 3 ∧ !on then (List.range 8).all (fun i => (s.life 2 (8 * idx + i)).run == .off)
  else true

/-- ENABLE (R439). -/
def execEnable (m : MailboxId) (q : BitVec 16) (s : State) : Out :=
  .next (
    let m := m.val
    let q := q.toNat
    startCmd m q Op.enable s (fun c s =>
      let wait (s : State) := s.updCmd m q (fun c => { c with phase := .waiting })
      let reject (s : State) := finish m q .rejectedState 0xFFFF 0 [] s
      let record := withItems m q (enableItems c.kind) [] c (fun id v s => recordItem c.kind c.index id v s)
      match (s.life c.kind c.index).run with
      | .off =>
        if !dependsOk s c.kind c.index true then reject s
        else record (fun s => beginStart c.kind c.index (m, q) (wait s)) s
      | .starting =>
        if c.items.isEmpty then
          (wait s).updLife c.kind c.index (fun x => { x with enables := x.enables ++ [(m, q)] })
        else reject s
      | .on => if c.items.isEmpty then finishOk m q [] s else reject s
      | .stopping =>
        if (s.life c.kind c.index).pend.isSome then finish m q .busy 0xFFFF 0 [] s
        else record (fun s => (deferCmd m q s).updLife c.kind c.index (fun x => { x with pend := some (m, q) })) s))

/-- DISABLE (R439). -/
def execDisable (m : MailboxId) (q : BitVec 16) (s : State) : Out :=
  .next (
    let m := m.val
    let q := q.toNat
    startCmd m q Op.disable s (fun c s =>
      if !dependsOk s c.kind c.index false then finish m q .rejectedState 0xFFFF 0 [] s
      else noItems m q c (fun s =>
        let join (s : State) := s.updLife c.kind c.index (fun x => { x with disables := x.disables ++ [(m, q)] })
        let wait (s : State) := s.updCmd m q (fun c => { c with phase := .waiting })
        match (s.life c.kind c.index).run with
        | .off => finishOk m q [] s
        | .starting => join (deferCmd m q s)
        | .on => beginStop c.kind c.index (join (wait s))
        | .stopping =>
          let s := match (s.life c.kind c.index).pend with
            | some w => finishPlain .rejectedState s w
            | none => s
          (join (wait s)).updLife c.kind c.index (fun x => { x with pend := none })) s))

end Sys2Proof.Machine
end

