-- ==== Sys2Proof/Machine/Image.lean ====
section
/-! DEFINITION. Mbaog images (spec/17 sections 17.2 to 17.4): their structures, the load checks of Table 17-7 that look at
the image, and what a relocation writes. -/

namespace Sys2Proof.Machine

/-! ## Structures (Tables 17-1 to 17-5) -/

/-- An image taken apart: its bytes, and each structure as a number. -/
structure Img where
  bytes : List Byte
  hdr : Nat
  roles : List Nat
  sects : List Nat
  decls : List Nat
  relocs : List Nat

/-- `n` bytes of an image from an offset, as a number. -/
def imgNat (b : List Byte) (off n : Nat) : Nat := leNat ((b.drop off).take n)

namespace Hdr
def relocs (h : Nat) : Nat := bits h 192 32
def decls (h : Nat) : Nat := bits h 176 16
def sects (h : Nat) : Nat := bits h 160 16
def maxHerds (h : Nat) : Nat := bits h 144 16
def herdStep (h : Nat) : Nat := bits h 128 16
def minHerds (h : Nat) : Nat := bits h 112 16
def devObjs (h : Nat) : Nat := bits h 96 16
end Hdr

/-- Offsets of the parts of an image (R448). -/
def sectAt (i : Nat) : Nat := 1088 + 32 * i
def declAt (h i : Nat) : Nat := sectAt (Hdr.sects h) + 32 * i
def relocAt (h i : Nat) : Nat := declAt h (Hdr.decls h) + 16 * i
/-- The first byte of the section data. -/
def dataAt (h : Nat) : Nat := relocAt h (Hdr.relocs h)

/-- An image whose structures lie within it. -/
def Img.ofBytes (b : List Byte) : Option Img :=
  let h := imgNat b 0 64
  if b.length < 1088 || b.length < dataAt h then none
  else some {
    bytes := b, hdr := h
    roles := (List.range 32).map (fun i => imgNat b (64 + 32 * i) 32)
    sects := (List.range (Hdr.sects h)).map (fun i => imgNat b (sectAt i) 32)
    decls := (List.range (Hdr.decls h)).map (fun i => imgNat b (declAt h i) 32)
    relocs := (List.range (Hdr.relocs h)).map (fun i => imgNat b (relocAt h i) 16) }

namespace Sect
def mask (x : Nat) : Nat := bits x 224 32
def fileOff (x : Nat) : Nat := bits x 192 32
def fileLen (x : Nat) : Nat := bits x 160 32
def dest (x : Nat) : Nat := bits x 112 24
def memLen (x : Nat) : Nat := bits x 64 24
def code (x : Nat) : Bool := bit x 0
end Sect

namespace Decl
def kind (x : Nat) : Nat := bits x 0 8
def obj (x : Nat) : Nat := bits x 32 10
def dev (x : Nat) : Bool := bit x 44
def mode (x : Nat) : Nat := bits x 48 2
def closing (x : Nat) : Bool := bit x 50
def targetA (x : Nat) : Int := signedOf 16 (bits x 64 16)
def targetC (x : Nat) : Int := signedOf 32 (bits x 96 32)
def mask (x : Nat) : Nat := bits x 32 32
def off (x : Nat) : Nat := bits x 64 24
def count (x : Nat) : Nat := bits x 96 16
def slot (x : Nat) : Nat := bits x 64 5
def ctrl (x : Nat) : Nat := bits x 96 5
def thresh (x : Nat) : Nat := bits x 128 32
def name (x : Nat) : Nat := bits x 176 16
def face (x : Nat) : Nat := bits x 32 3
def tier (x : Nat) : Bool := bit x 36
def dsel (x : Nat) : Nat := bits x 40 4
def offset (x : Nat) : Nat := bits x 64 64
def size (x : Nat) : Nat := bits x 128 32
def sync (x : Nat) : Nat := bits x 160 32
/-- Megabytes of HBM, of DDR, and of host memory of a RESOURCES declaration. -/
def hbm (x : Nat) : Nat := bits x 32 32
def ddr (x : Nat) : Nat := bits x 64 32
def host (x : Nat) : Nat := bits x 96 32
end Decl

namespace Reloc
def termC (x : Nat) : Int := signedOf 32 (bits x 96 32)
def termB (x : Nat) : Int := signedOf 16 (bits x 80 16)
def termA (x : Nat) : Int := signedOf 16 (bits x 64 16)
def offset (x : Nat) : Nat := bits x 40 24
def sect (x : Nat) : Nat := bits x 32 8
def dsel (x : Nat) : Nat := bits x 20 4
def tih (x : Nat) : Nat := bits x 11 5
def mod (x : Nat) : Bool := bit x 8
def kind (x : Nat) : Nat := bits x 0 8
end Reloc

/-- The tiles in herd that a mask selects. -/
def maskTiles (m : Nat) : List Nat := (List.range 32).filter (fun t => bit m t)

/-- A role's sizes and offsets (Table 17-2, R262). -/
def Role.ofBits (x : Nat) : Role where
  entry := bits x 208 24
  codeOff := bits x 176 24
  codeSize := bits x 144 24
  ringOff := bits x 112 24
  ringSize := if bits x 32 11 = 0 then 0 else if bits x 80 24 = 0 then 0x4000 else bits x 80 24
  size := bits x 32 11 * 0x4000

/-- The value of TARGET for a herd count (Table 17-4). -/
def declTarget (x H : Nat) : Int := Decl.targetA x * (H : Int) + Decl.targetC x

/-! ## Reserved fields (check 3) -/

/-- Bit ranges that are all 0. -/
def zeros (n : Nat) (l : List (Nat × Nat)) : Bool := l.all (fun f => bits n f.1 f.2 == 0)

def roleReserved : List (Nat × Nat) := [(232, 24), (200, 8), (168, 8), (136, 8), (104, 8), (43, 37), (0, 32)]
def sectReserved : List (Nat × Nat) := [(136, 24), (88, 24), (1, 63)]
def relocReserved : List (Nat × Nat) := [(24, 8), (16, 4), (9, 2)]
/-- The reserved fields of a declaration by KIND. -/
def declReserved (kind : Nat) : List (Nat × Nat) :=
  match kind with
  | 1 => [(8, 24), (42, 2), (45, 3), (51, 13), (80, 16), (128, 128)]
  | 2 => [(8, 24), (88, 8), (112, 144)]
  | 3 => [(8, 24), (69, 27), (101, 27), (160, 16), (192, 64)]
  | 4 => [(8, 24), (35, 1), (37, 3), (44, 20), (192, 64)]
  | 5 => [(8, 24), (128, 128)]
  | _ => []

/-- MAGIC, FORMAT, FAMILY and IMAGE_LEN of the header (check 3). -/
def hdrNamed (h len : Nat) : Bool :=
  bits h 0 32 == 0x47424D4E && bits h 48 16 == 1 && bits h 40 8 == 9 && bits h 224 32 == len && decide (len ≤ 0x10000000)

/-- The structure at which an image ends that is too short for its structures: the header where that already fails check 3,
else the first role, section, declaration or relocation entry that runs past the end. -/
def cutAt (b : List Byte) : Nat :=
  let h := imgNat b 0 64
  let n := b.length
  let entry (start size : Nat) : Nat := start + (n - start) / size * size
  if n < 64 || !hdrNamed h n then 0
  else if n < 1088 then entry 64 32
  else if n < declAt h 0 then entry (sectAt 0) 32
  else if n < relocAt h 0 then entry (declAt h 0) 32
  else entry (relocAt h 0) 16

/-- The header's fields in their ranges (check 3). -/
def hdrOk (h len : Nat) : Bool :=
  hdrNamed h len && zeros h [(32, 8), (64, 32)] && decide (1 ≤ Hdr.sects h ∧ Hdr.sects h ≤ 255)
    && decide (1 ≤ Hdr.devObjs h ∧ Hdr.devObjs h ≤ 1024) && Hdr.herdStep h != 0 && Hdr.herdStep h % 4 == 0
    && Hdr.minHerds h % Hdr.herdStep h == 0

/-- The offset of the first structure of a list that fails a check. -/
def firstBad (at' : Nat → Nat) (ok : Nat → Bool) (l : List Nat) : Option Nat :=
  ((List.range l.length).find? (fun i => !ok (l.getD i 0))).map at'

/-- Check 3 on an image that has its structures. -/
def check3 (g : Img) : Option Nat :=
  let h := g.hdr
  let n := g.bytes.length
  if !hdrOk h n then some 0
  else
    (firstBad (fun i => 64 + 32 * i) (fun x => zeros x roleReserved) g.roles).orElse (fun _ =>
    (firstBad sectAt (fun x => zeros x sectReserved && decide (Sect.fileOff x + Sect.fileLen x ≤ n)
        && (Sect.fileLen x == 0 || decide (dataAt h ≤ Sect.fileOff x))) g.sects).orElse (fun _ =>
    (firstBad (declAt h) (fun x => zeros x (declReserved (Decl.kind x))) g.decls).orElse (fun _ =>
    firstBad (relocAt h) (fun x => zeros x relocReserved) g.relocs)))

/-- DIGEST as stored and as computed (R448). -/
def Img.digest (g : Img) : List Byte := (g.bytes.drop 32).take 32
def Img.computed (g : Img) : List Byte := sha256 (g.bytes.take 32 ++ List.replicate 32 0 ++ g.bytes.drop 64)

/-! ## Checks 5 to 8 -/

def Img.roleList (g : Img) : List Role := g.roles.map Role.ofBits
/-- Bytes of the regions of roles before `t`. -/
def rolesBefore (rs : List Role) (t : Nat) : Nat := (rs.take t).foldl (fun a r => a + r.size) 0

/-- Check 6 on one role (Table 17-7, R73, R262). -/
def roleOk (x : Nat) : Bool :=
  let r := Role.ofBits x
  if r.size = 0 then zeros x [(208, 24), (176, 24), (144, 24), (112, 24), (80, 24)]
  else
    decide (0x10000 ≤ r.size ∧ r.size ≤ 0x1000000) && r.codeOff % 128 == 0 && r.codeSize % 128 == 0
      && decide (128 ≤ r.codeSize) && within r.codeOff r.codeSize 0 r.size
      && r.entry % 4 == 0 && within r.entry 4 r.codeOff r.codeSize
      && r.ringOff % 128 == 0 && r.ringSize % 128 == 0 && decide (0x2000 ≤ r.ringSize ∧ r.ringSize ≤ 0x100000)
      && within r.ringOff r.ringSize 0 r.size && !overlaps r.ringOff r.ringSize r.codeOff r.codeSize

/-- The first role at which the regions pass 16 MiB. -/
def regionsOver (rs : List Role) : Option Nat :=
  (List.range 32).find? (fun t => decide (0x1000000 < rolesBefore rs (t + 1)))
/-- Check 6. -/
def check6 (g : Img) : Option Nat :=
  (firstBad (fun i => 64 + 32 * i) roleOk g.roles).orElse (fun _ => (regionsOver g.roleList).map (fun t => 64 + 32 * t))

/-- Check 7 on one section and the tile whose role is `r`. -/
def sectInRole (x : Nat) (r : Role) : Bool :=
  within (Sect.dest x) (Sect.memLen x) 0 r.size
    && (if Sect.code x then within (Sect.dest x) (Sect.memLen x) r.codeOff r.codeSize
        else !overlaps (Sect.dest x) (Sect.memLen x) r.codeOff r.codeSize)
/-- Two sections that one tile loads overlap. -/
def sectsMeet (x y : Nat) : Bool :=
  (Sect.mask x &&& Sect.mask y) != 0 && overlaps (Sect.dest x) (Sect.memLen x) (Sect.dest y) (Sect.memLen y)
/-- Check 7 (R449, Table 17-3). -/
def check7 (g : Img) : Option Nat :=
  let rs := g.roleList
  let ok (i : Nat) : Bool :=
    let x := g.sects.getD i 0
    Sect.fileOff x % 8 == 0 && Sect.fileLen x % 8 == 0 && Sect.dest x % 8 == 0 && decide (Sect.fileLen x ≤ Sect.memLen x)
      && (maskTiles (Sect.mask x)).all (fun t => sectInRole x (rs.getD t {}))
      && (g.sects.take i).all (fun y => !sectsMeet x y)
  ((List.range g.sects.length).find? (fun i => !ok i)).map sectAt

/-- The bytes that a section brings: its data, then zeros up to MEM_LEN. -/
def Img.sectBytes (g : Img) (x : Nat) : List Byte :=
  let d := (g.bytes.drop (Sect.fileOff x)).take (Sect.fileLen x)
  d ++ List.replicate (Sect.memLen x - d.length) 0

/-- The number that `n` bytes at an offset of a tile's region spell before relocation. -/
def Img.regionNat (g : Img) (t off n : Nat) : Nat :=
  leNat ((List.range n).map (fun i =>
    match g.sects.find? (fun x => bit (Sect.mask x) t && decide (Sect.dest x ≤ off + i ∧ off + i < Sect.dest x + Sect.memLen x)) with
    | some x => (g.sectBytes x).getD (off + i - Sect.dest x) 0
    | none => 0))

/-- Check 8 on one declaration for a herd count; `hbm` and `ddr` are the RESOURCES sizes in bytes, and `land` says of a
LANDING's tier and DSEL that they name a die range of the partition (R410). -/
def declOk (g : Img) (land : Bool → Nat → Bool) (H hbm ddr x : Nat) : Bool :=
  match Decl.kind x with
  | 1 =>
    Decl.mode x != 3 && (if Decl.dev x then decide (Decl.obj x < Hdr.devObjs g.hdr) else decide (Decl.obj x < 256))
      && decide (0 ≤ declTarget x H ∧ declTarget x H ≤ 0xFFFF) && (!Decl.closing x || (Decl.dev x && Decl.mode x == 1))
  | 2 =>
    Decl.off x % 64 == 0 && (maskTiles (Decl.mask x)).all (fun t =>
      within (Decl.off x) (64 * Decl.count x) 0 (g.roleList.getD t {}).size
        && (List.range (Decl.count x)).all (fun i => ScaleRec.wellFormed (g.regionNat t (Decl.off x + 64 * i) 64)))
  | 3 => true
  | 4 =>
    let ref := Decl.sync x
    decide (Decl.face x ≤ 5 ∧ Decl.dsel x ≤ 4) && land (Decl.tier x) (Decl.dsel x)
      && decide (Decl.offset x + Decl.size x * 4096 ≤ (if Decl.tier x then ddr else hbm))
      && (if bit ref 31 then decide (bits ref 0 10 < Hdr.devObjs g.hdr) else decide (bits ref 16 9 < H))
  | 5 => true
  | _ => false

/-- The RESOURCES declaration, 0 where there is none. -/
def Img.resources (g : Img) : Nat := (g.decls.find? (fun x => Decl.kind x == 5)).getD 0
/-- How many declarations satisfy a condition. -/
def Img.declCount (g : Img) (p : Nat → Bool) : Nat := (g.decls.filter p).length
/-- Where the second declaration that satisfies a condition stands; the header where there is none. -/
def Img.secondAt (g : Img) (p : Nat → Bool) : Nat :=
  (((List.range g.decls.length).filter (fun i => p (g.decls.getD i 0)))[1]?.map (declAt g.hdr)).getD 0

/-- Check 8 (R450): each declaration, exactly one closing object, at most one RESOURCES. -/
def check8 (g : Img) (land : Bool → Nat → Bool) (H : Nat) : Option Nat :=
  let r := g.resources
  let closing (x : Nat) : Bool := Decl.kind x == 1 && Decl.closing x
  (firstBad (declAt g.hdr) (declOk g land H (Decl.hbm r * 0x100000) (Decl.ddr r * 0x100000)) g.decls).orElse (fun _ =>
    if g.declCount closing != 1 then some (g.secondAt closing)
    else if 1 < g.declCount (fun x => Decl.kind x == 5) then some (g.secondAt (fun x => Decl.kind x == 5))
    else none)

/-- Check 5 (R452). -/
def herdsFit (h H : Nat) : Bool :=
  decide (Hdr.minHerds h ≤ H) && H % Hdr.herdStep h == 0 && (Hdr.maxHerds h == 0 || decide (H ≤ Hdr.maxHerds h))

/-! ## Relocation (R454) -/

/-- What relocation depends on (R455): the partition's herds, device objects and dies, and the job's allotments. -/
structure LoadEnv where
  herds : List Nat
  dies : List Nat
  objs : List Nat
  roles : List Role
  hbm : Sparse Allot
  ddr : Sparse Allot
  host : Allot

/-- The dies that the partition spans, in increasing number. -/
def LoadEnv.span (e : LoadEnv) : List Nat := (List.range 4).filter (fun d => e.dies.contains d)
/-- The die that DSEL names for partition herd index `p` (Table 17-5). -/
def LoadEnv.die (e : LoadEnv) (dsel p : Nat) : Option Nat :=
  if dsel = 0 then e.dies[p]? else e.span[dsel - 1]?

/-- Field bytes, lowest bit and bits written, by KIND (Table 17-6). -/
def relocField (kind : Nat) : Nat × Nat × Nat :=
  match kind with
  | 1 => (4, 0, 32)
  | 2 => (4, 16, 9)
  | 3 => (2, 0, 14)
  | 4 => (4, 0, 10)
  | 5 => (4, 0, 24)
  | _ => (8, 0, 64)

/-- v of R454. -/
def relocTerm (r H p : Nat) : Int :=
  let v := Reloc.termA r * (H : Int) + Reloc.termB r * (p : Int) + Reloc.termC r
  if Reloc.mod r then v % (H : Int) else v

/-- An address in an allotment, at the built value and v. -/
def inAllot (a : Allot) (built : Nat) (v : Int) : Option Nat :=
  if 0 ≤ v ∧ built + v.toNat < a.size then some (a.base + built + v.toNat) else none

/-- The result that a relocation writes for partition herd index `p` where the field was built as `built`; none where v or
the result is out of range (Table 17-6). -/
def relocValue (e : LoadEnv) (r p built : Nat) : Option Nat :=
  let H := e.herds.length
  let v := relocTerm r H p
  let n := v.toNat
  let tiered (m : Sparse Allot) : Option Nat :=
    ((e.die (Reloc.dsel r) p).bind (fun d => Sparse.find m d)).bind (fun a => inAllot a built v)
  match Reloc.kind r with
  | 1 => some (wrapInt 32 v)
  | 2 => if 0 ≤ v then e.herds[n]? else none
  | 3 => if 0 ≤ v then (e.herds[n]?).map (fun h => h * 32 + Reloc.tih r) else none
  | 4 => if 0 ≤ v then e.objs[n]? else none
  | 5 =>
    let x : Int := (rolesBefore e.roles (Reloc.tih r) + built % 2 ^ 24 : Nat) + v
    if 0 ≤ x ∧ x ≤ 0xFFFFFF then some x.toNat else none
  | 6 => tiered e.hbm
  | 7 => tiered e.ddr
  | 8 => inAllot e.host built v
  | _ => none

/-- The built value of a relocation's field. -/
def Img.built (g : Img) (r : Nat) : Nat :=
  imgNat (g.sectBytes (g.sects.getD (Reloc.sect r) 0)) (Reloc.offset r) (relocField (Reloc.kind r)).1

/-- The bits that a relocation writes, as a range of its section. -/
def relocBits (r : Nat) : Nat × Nat :=
  let f := relocField (Reloc.kind r)
  (8 * Reloc.offset r + f.2.1, f.2.2)

/-- Check 10 on entry `i`: its kind, section, DSEL and offset; bits of no earlier entry; a result for every herd. -/
def relocOk (g : Img) (e : LoadEnv) (i : Nat) : Bool :=
  let r := g.relocs.getD i 0
  let n := (relocField (Reloc.kind r)).1
  let x := g.sects.getD (Reloc.sect r) 0
  decide (1 ≤ Reloc.kind r ∧ Reloc.kind r ≤ 8) && decide (Reloc.sect r < g.sects.length)
    && decide (Reloc.dsel r ≤ 4) && Reloc.offset r % n == 0 && decide (Reloc.offset r + n ≤ Sect.memLen x)
    && (g.relocs.take i).all (fun q => !(Reloc.sect q == Reloc.sect r
          && overlaps (relocBits q).1 (relocBits q).2 (relocBits r).1 (relocBits r).2))
    && (List.range e.herds.length).all (fun p => (relocValue e r p (g.built r)).isSome)
/-- Check 10 (R454). -/
def check10 (g : Img) (e : LoadEnv) : Option Nat :=
  ((List.range g.relocs.length).find? (fun i => !relocOk g e i)).map (relocAt g.hdr)

/-- A section's bytes for partition herd index `p`, its relocations applied in table order. -/
def Img.resolved (g : Img) (e : LoadEnv) (i p : Nat) : List Byte :=
  (g.relocs.filter (fun r => Reloc.sect r == i)).foldl (fun bs r =>
    let f := relocField (Reloc.kind r)
    match relocValue e r p (g.built r) with
    | none => bs
    | some v =>
      let o := Reloc.offset r
      bs.take o ++ leBytes f.1 (setBits (imgNat bs o f.1) f.2.1 f.2.2 v) ++ bs.drop (o + f.1))
    (g.sectBytes (g.sects.getD i 0))

/-- The memory with the image in every herd (R449, R454). -/
def Img.load (g : Img) (e : LoadEnv) (m : Memory) : Memory :=
  (List.range e.herds.length).foldl (fun m p =>
    (List.range g.sects.length).foldl (fun m i =>
      let x := g.sects.getD i 0
      let bs := g.resolved e i p
      (maskTiles (Sect.mask x)).foldl (fun m t =>
        writeBytes m (herdBase (e.herds.getD p 0) + rolesBefore e.roles t + Sect.dest x) bs) m) m) m

end Sys2Proof.Machine
end

