-- ==== Sys2Proof/Machine/Load.lean ====
section
/-! DEFINITION. JOB_LOAD (spec/17 section 17.5; spec/18 R474 to R477): the load checks, allotments and context areas, the
tiles and objects of a loaded job. -/

namespace Sys2Proof.Machine

/-! ## Allotments (R474, R476) -/

/-- The lowest place for `n` bytes from `lo` in a range that ends at `top`, clear of what is held; `fuel` bounds the pieces
met. -/
def placeLow (held : List Allot) (top n : Nat) : Nat → Nat → Option Nat
  | 0, _ => none
  | fuel + 1, lo =>
    if top < lo + n then none
    else
      match held.filter (fun h => overlaps h.base h.size lo n) with
      | [] => some lo
      | l => placeLow held top n fuel (l.foldl (fun t h => max t (h.base + h.size)) lo)

/-- An allotment of `n` bytes at the lowest free address of a range; of no bytes, the empty one at its start. -/
def allotLow (held : List Allot) (r : Allot) (n : Nat) : Option Allot :=
  (placeLow held (r.base + r.size) n (held.length + 1) r.base).map (fun a => ⟨a, n⟩)

/-- The partition's range of HBM and of DDR in a die range. -/
def State.hbmRange (_s : State) (P : Partition) (d : Nat) : Allot := ⟨hbmBase + d * hbmDie + P.hbmBase * gib, P.hbmSize * gib⟩
def State.ddrRange (s : State) (P : Partition) (d : Nat) : Allot := ⟨ddrBase + d * s.ddrDie + P.ddrBase * gib, P.ddrSize * gib⟩
/-- What jobs of a partition hold in HBM, and of the host range. -/
def State.hbmHeld (s : State) (p : Nat) : List Allot :=
  (s.jobsOf p).flatMap (fun j => (s.job j).hbm.map (·.2) ++ (s.job j).ctxAreas.map (·.2))
def State.hostHeld (s : State) (p : Nat) : List Allot := (s.jobsOf p).map (fun j => (s.job j).host)

/-- One allotment of `n` bytes in every die range of a set; none where one does not fit, or where bytes are asked of an
empty set. -/
def allotDies (held : List Allot) (range : Nat → Allot) (n : Nat) : List Nat → Option (Sparse Allot)
  | [] => some []
  | d :: ds =>
    match allotLow held (range d) n, allotDies held range n ds with
    | some a, some r => some ((d, a) :: r)
    | _, _ => none

/-- The dies of a set. -/
def setDies (set : Nat) : List Nat := (List.range 4).filter (dieIn set)

/-- Context areas, 17 MiB for each herd from the highest free addresses (R476). -/
def placeCtx (s : State) (P : Partition) : List Nat → List Allot → Sparse Allot → Option (Sparse Allot)
  | [], _, got => some got
  | h :: hs, held, got =>
    match placeHighIn held 0x1100000 [s.hbmRange P (s.dieOf h)] with
    | none => none
    | some a => placeCtx s P hs (⟨a, 0x1100000⟩ :: held) (got ++ [(h, ⟨a, 0x1100000⟩)])

/-- What a job is given (R474, R476). -/
structure Grants where
  hbm : Sparse Allot
  ddr : Sparse Allot
  host : Allot
  ctx : Sparse Allot

/-- Check 9 (R450, R474, R476): device objects, allotments and context areas. -/
def State.grants (s : State) (p : Nat) (g : Img) : Option Grants :=
  let P := s.part p
  let r := g.resources
  let hbm := Decl.hbm r * 0x100000
  let ddr := Decl.ddr r * 0x100000
  let areas := s.hasAreas p
  if P.devObjs.length < Hdr.devObjs g.hdr || (!areas && !(s.jobsOf p).isEmpty)
      || (hbm != 0 && (setDies P.hbmSet).isEmpty) || (ddr != 0 && (setDies P.ddrSet).isEmpty) then none
  else
    match allotDies (s.hbmHeld p) (s.hbmRange P) hbm (setDies P.hbmSet),
          allotDies (s.ddrHeld p) (s.ddrRange P) ddr (setDies P.ddrSet),
          allotLow (s.hostHeld p) ⟨hostBase + P.hostBase, P.hostSize⟩ (Decl.host r * 0x100000) with
    | some h, some d, some w =>
      let ctx := if areas then placeCtx s P P.herds (h.map (·.2) ++ s.hbmHeld p) [] else some []
      ctx.map (fun c => ⟨h, d, w, c⟩)
    | _, _, _ => none

/-! ## The loaded job -/

/-- The lowest free job id (R249). -/
def State.freeJob (s : State) : Option Nat := ((List.range 255).map (· + 1)).find? (fun j => !s.jobUsed j)

/-- A LANDING's sync reference resolved as kinds HERD and DEVSYNC resolve (Table 17-4). -/
def landRef (e : LoadEnv) (ref : Nat) : Word :=
  if ref = 0 then 0
  else if bit ref 31 then word (setBits ref 0 10 (e.objs.getD (bits ref 0 10) 0))
  else word (setBits ref 16 9 (e.herds.getD (bits ref 16 9) 0))

/-- The declarations of an image as the job keeps them. -/
def declSync (x H : Nat) : SyncDecl := ⟨Decl.obj x, Decl.dev x, Decl.mode x, Decl.closing x, (declTarget x H).toNat⟩
def declLand (e : LoadEnv) (x : Nat) : LandDecl :=
  let tier := if Decl.tier x then e.ddr else e.hbm
  let base := (((e.die (Decl.dsel x) 0).bind (fun d => Sparse.find tier d)).map (·.base)).getD 0
  ⟨Decl.face x, base + Decl.offset x, Decl.size x, landRef e (Decl.sync x)⟩

/-- The job's record after its load. -/
def loadedJob (p weight : Nat) (tahr : Bool) (g : Img) (e : LoadEnv) (r : Grants) : Job where
  part := p
  weight := weight
  tahr := tahr
  digest := g.digest
  devObjs := Hdr.devObjs g.hdr
  roles := g.roleList
  syncs := (g.decls.filter (fun x => Decl.kind x == 1)).map (fun x => declSync x e.herds.length)
  scales := (g.decls.filter (fun x => Decl.kind x == 2)).map (fun x => ⟨Decl.mask x, Decl.off x, Decl.count x⟩)
  skips := (g.decls.filter (fun x => Decl.kind x == 3)).map (fun x => 
    ⟨Decl.mask x, Decl.slot x, Decl.ctrl x, word (Decl.thresh x), Decl.name x⟩)
  lands := (g.decls.filter (fun x => Decl.kind x == 4)).map (declLand e)
  hbm := r.hbm
  ddr := r.ddr
  host := r.host
  ctxAreas := r.ctx

/-- Events 2 and 5 for tile-in-herd `i` of a herd: the tile as the loader leaves it. -/
def loadedTile (j : Nat) (J : Job) (i : Nat) : Tile :=
  let r := J.role i
  let base := J.regionBase i
  if r.size = 0 then Tile.reset
  else { Tile.reset with
    pc := word (base + r.entry)
    entry := word (base + r.entry)
    tahrMode := J.tahr
    regionBase := base
    regionSize := r.size
    codeBase := base + r.codeOff
    codeSize := r.codeSize
    ringBase := base + r.ringOff
    ringSize := r.ringSize
    skips := (J.skips.filter (fun k => bit k.mask i)).foldl
      (fun m k => Sparse.set m k.slot { ctrl := k.ctrl, thresh := k.thresh, name := k.name }) []
    port := { job := j, readPos := base + r.ringOff, writePos := base + r.ringOff } }

/-- The keys of a declared object: one for each herd, or the assigned device object. -/
def declKeys (P : Partition) (d : SyncDecl) : List Nat :=
  if d.dev then [devObj (P.devObjs.getD d.obj 0)] else P.herds.map (fun h => herdObj h d.obj)
/-- The declared objects as the loader leaves them (R284). -/
def loadedSyncs (J : Job) (P : Partition) : Sparse SyncObj :=
  J.syncs.foldl (fun m d => (declKeys P d).foldl (fun m o => Sparse.set m o { mode := d.mode, target := d.target }) m) []

/-- The initial context of a job: its tiles, its memory, its objects. -/
def initialCtx (j : Nat) (J : Job) (P : Partition) (g : Img) (e : LoadEnv) : Ctx where
  tiles := P.herds.flatMap (fun h => (J.tilesIn h).map (fun t => (t, loadedTile j J (t % 32))))
  mem := g.load e []
  syncs := loadedSyncs J P

/-- The job's herds hold another job's context that is still needed: one that holds or takes them, or one that is loaded
there and has not run (log 18). -/
def State.herdsTaken (s : State) (p : Nat) : Bool :=
  let P := s.part p
  P.holding != 0 || P.incoming != 0
    || (s.jobUsed P.resident && !(s.job P.resident).everHeld && (s.job P.resident).state != .tornDown)

/-- Events 1 to 5 in the herds: every tile stopped and written, regions and objects set, the image copied and resolved. -/
def loadHerds (j : Nat) (J : Job) (g : Img) (e : LoadEnv) (s : State) : State :=
  let p := J.part
  let P := s.part p
  let s := vecLeave p s
  let s := P.herds.foldl (fun s h => clearMem (herdBase h) J.regionTotal s) s
  let s := { s with mem := g.load e s.mem }
  let s := (s.partTiles p).foldl (fun (s : State) t => (stopTile t s).setTile t (loadedTile j J (t % 32))) s
  let s := { s with syncs := s.syncs.filter (fun x =>
    !(if x.1 < 0x20000 then P.herds.contains (x.1 / 256) else P.devObjs.contains (x.1 - 0x20000))) }
  let s := (loadedSyncs J P).foldl (fun (s : State) x => s.setSync x.1 x.2) s
  vecEnter j (s.updPart p (fun P => { P with resident := j }))

/-- The shadow copies and lifetime totals of an id's earlier job are gone. -/
def dropJobCounters (j : Nat) (s : State) : State :=
  let keep (m : Sparse Nat) : Sparse Nat := m.filter (fun e => e.1 / 65536 != 7 * 2 ^ 24 + j)
  { s with period := { s.period with shadow := keep s.period.shadow, lifetime := keep s.period.lifetime } }

/-- The loader's events (R457, Table 17-8). A load that writes the context area is traffic of its partition (R479). -/
def loadJob (j weight : Nat) (tahr : Bool) (p : Nat) (g : Img) (e : LoadEnv) (r : Grants) (s : State) : State :=
  let J := loadedJob p weight tahr g e r
  let s := dropJobCounters j s
  if s.herdsTaken p then
    (s.noteBlocks (partUse p) false (J.ctxBlocks (s.part p).herds)).setJob j { J with ctx := some (initialCtx j J (s.part p) g e) }
  else loadHerds j J g e (s.setJob j J)

/-! ## JOB_LOAD (R456) -/

/-- A load check fails (R456): the check's number and the failing structure's offset stand in DETAIL. -/
def rejectLoad (m q : Nat) (st : Status) (check off : Nat) (s : State) : State :=
  finish m q st 0xFFFF 0 (leBytes 4 0 ++ leBytes 4 check ++ leBytes 8 off) s

/-- The environment of an image in a partition. -/
def loadEnv (s : State) (p : Nat) (g : Img) (r : Grants) : LoadEnv where
  herds := (s.part p).herds
  dies := (s.part p).herds.map s.dieOf
  objs := (s.part p).devObjs.take (Hdr.devObjs g.hdr)
  roles := g.roleList
  hbm := r.hbm
  ddr := r.ddr
  host := r.host

/-- The die that DSEL names for a declaration (Table 17-5, of partition herd index 0), where the partition has a range of the
tier there (R410, R471). -/
def State.landDie (s : State) (p : Nat) (ddr : Bool) (dsel : Nat) : Bool :=
  let P := s.part p
  let dies := P.herds.map s.dieOf
  match (if dsel = 0 then dies[0]? else ((List.range 4).filter (fun d => dies.contains d))[dsel - 1]?) with
  | some d => dieIn (if ddr then P.ddrSet else P.hbmSet) d
  | none => false

/-- Checks 3 to 8, and 5, on the image alone: the check that fails, its status and the offset. -/
def imageFault (s : State) (p : Nat) (g : Img) : Option (Nat × Status × Nat) :=
  let H := (s.part p).herdCount
  match check3 g with
  | some o => some (3, .rejectedArg, o)
  | none =>
  if g.digest != g.computed then some (4, .rejectedArg, 0)
  else if !herdsFit g.hdr H then some (5, .noResource, 0)
  else
  match check6 g with
  | some o => some (6, .rejectedArg, o)
  | none =>
  match check7 g with
  | some o => some (7, .rejectedArg, o)
  | none => (check8 g (s.landDie p) H).map (fun o => (8, .rejectedArg, o))

/-- The structure that fails check 9: the header where DEV_OBJS is more than the partition has, else RESOURCES. -/
def State.shortAt (s : State) (p : Nat) (g : Img) : Nat :=
  if (s.part p).devObjs.length < Hdr.devObjs g.hdr then 0
  else (((List.range g.decls.length).find? (fun i => Decl.kind (g.decls.getD i 0) == 5)).map (declAt g.hdr)).getD 0

/-- A job of the partition has started across modules, or its concord runs (R477); one whose JOB_START was refused has not. -/
def State.spansLoaded (s : State) (p : Nat) : Bool :=
  (s.jobsOf p).any (fun j => (s.job j).spans && ((s.job j).started || (s.job j).state == .ready || (s.job j).concord.isSome))

/-- The checks of Table 17-7 in order, then the events of Table 17-8. -/
def checkAndLoad (m q p weight : Nat) (tahr : Bool) (image : Option (List Byte)) (s : State) : State :=
  if (s.life 1 p).run != .on || s.spansLoaded p then rejectLoad m q .rejectedState 1 0 s
  else
    match s.freeJob, image with
    | none, _ => rejectLoad m q .noResource 2 0 s
    | _, none => finish m q .faulted 0xFFFF Code.hostError [] s
    | some j, some b =>
      match Img.ofBytes b with
      | none => rejectLoad m q .rejectedArg 3 (cutAt b) s
      | some g =>
        match imageFault s p g with
        | some (n, st, o) => rejectLoad m q st n o s
        | none =>
          match s.grants p g with
          | none => rejectLoad m q .noResource 9 (s.shortAt p g) s
          | some r =>
            let e := loadEnv s p g r
            match check10 g e with
            | some o => rejectLoad m q .rejectedArg 10 o s
            | none => finishOk m q (leBytes 1 j) (loadJob j weight tahr p g e r s)

/-- An item of JOB_LOAD (Table 16-8). -/
def loadItemOk (id v : Nat) : Bool :=
  match id with
  | 1 => decide (v < 2 ^ 51)
  | 2 => decide (v < 2 ^ 32)
  | 3 => decide (1 ≤ v ∧ v ≤ 255)
  | _ => decide (v ≤ 1)

/-- JOB_LOAD (R456, R457). `image` is what the host's memory answers for the IMAGE_LEN bytes at IMAGE_ADDR, none for an
error (log 12); bytes of another number are no such answer. -/
def execJobLoad (m : MailboxId) (q : BitVec 16) (image : Option (List Byte)) (s : State) : Out :=
  .next (startCmd m.val q.toNat Op.jobLoad s (fun c s =>
    let n := c.itemD 2 0
    if (match image with | some b => b.length != n | none => false) then s
    else withItems m.val q.toNat 4 [1, 2] c (fun id v s => only (loadItemOk id v) s)
      (checkAndLoad m.val q.toNat c.index (c.itemD 3 1) (c.itemD 4 0 == 1) image) s))

end Sys2Proof.Machine
end

