-- ==== Sys2Proof/Machine/Start.lean ====
section
/-! DEFINITION. JOB_START and the concord check (spec/17 R458 to R460; spec/15 R420 to R422; spec/16 R443), sweeps that
arrive (R418), JOB_ABORT and JOB_UNLOAD (spec/17 R461; spec/18 R484). -/

namespace Sys2Proof.Machine

/-! ## Items of JOB_START (Table 16-10) -/

/-- A count of engines is even, and fits its axis: 0 on an axis of length 1, else 2 or more (R403). -/
def axisGrouping (len n : Nat) : Bool := n % 2 == 0 && (if len = 1 then n == 0 else decide (2 ≤ n))
/-- GROUPING for a job's geometry (R403): 12 engines together where an axis is longer than 1, none on one module. -/
def groupingOk (J : Job) (v : Nat) : Bool :=
  let nx := bits v 0 4
  let ny := bits v 4 4
  let nz := bits v 8 4
  decide (v < 4096) && axisGrouping J.lx nx && axisGrouping J.ly ny && axisGrouping J.lz nz
    && (!J.spans || nx + ny + nz == 12)
/-- GEOMETRY's encoding. -/
def geometryOk (v : Nat) : Bool :=
  zeros v [(5, 3), (13, 3), (21, 43)]
    && [bits v 0 5, bits v 8 5, bits v 16 5].all (fun l => decide (1 ≤ l ∧ l ≤ 16))
/-- COORDS' encoding, each coordinate below its axis length. -/
def coordsOk (J : Job) (v : Nat) : Bool :=
  zeros v [(4, 4), (12, 4), (20, 44)] && decide (bits v 0 4 < J.lx ∧ bits v 8 4 < J.ly ∧ bits v 16 4 < J.lz)

/-- One item of JOB_START. -/
def startItem (j id v : Nat) (s : State) : Except Status State :=
  let set (ok : Bool) (f : Job → Job) : Except Status State := if ok then .ok (s.updJob j f) else .error .rejectedArg
  match id with
  | 1 => set true (fun J => { J with seed := v })
  | 2 => set (geometryOk v) (fun J => { J with lx := bits v 0 5, ly := bits v 8 5, lz := bits v 16 5 })
  | 3 => set (groupingOk (s.job j) v) (fun J => { J with nx := bits v 0 4, ny := bits v 4 4, nz := bits v 8 4 })
  | 4 => set (coordsOk (s.job j) v) (fun J => { J with x := bits v 0 4, y := bits v 8 4, z := bits v 16 4 })
  | 5 => set true (fun J => { J with inst := v })
  | 6 => set (decide (v < 2 ^ 32)) (fun J => { J with resume := v })
  | _ => set (decide (1 ≤ v ∧ v ≤ 600)) (fun J => { J with concordSecs := v })

/-! ## A job's tiles and memory, in the herds or in its saved context (log 18) -/

/-- The job's state lies in the herds. -/
def State.inHerds (s : State) (j : Nat) : Bool := (s.part (s.job j).part).resident == j
/-- Change a tile of a job. -/
def updJobTile (j t : Nat) (f : Tile → Tile) (s : State) : State :=
  if s.inHerds j then s.updTile t f
  else s.updJob j (fun J => { J with ctx := J.ctx.map (fun c =>
    { c with tiles := Sparse.set c.tiles t (f (Sparse.get Tile.reset c.tiles t)) }) })
/-- Write bytes of a job's memory. -/
def writeJobMem (j a : Nat) (bs : List Byte) (s : State) : State :=
  if s.inHerds j then s.writeMem a bs
  else s.updJob j (fun J => { J with ctx := J.ctx.map (fun c => { c with mem := writeBytes c.mem a bs }) })
/-- Bytes of a job's memory. -/
def State.jobBytes (s : State) (j a n : Nat) : List Byte :=
  if s.inHerds j then readBytes s.mem a n
  else match (s.job j).ctx with
    | some c => readBytes c.mem a n
    | none => []

/-- The addresses of a job's declared scale records, by herd, tile and record (Table 17-4). -/
def State.scaleRecords (s : State) (j : Nat) : List Nat :=
  let J := s.job j
  (s.part J.part).herds.flatMap (fun h => J.scales.flatMap (fun d =>
    ((maskTiles d.mask).filter (fun t => decide (0 < (J.role t).size))).flatMap (fun t =>
      (List.range d.count).map (fun i => herdBase h + J.regionBase t + d.off + 64 * i))))

/-- Step 1 of R458. -/
def writeSeeds (j : Nat) (s : State) : State :=
  let J := s.job j
  let s := (s.usedTiles j).foldl (fun s t => updJobTile j t (fun T => { T with vec := { T.vec with
    seedLo := word J.seed, seedHi := word (J.seed / 2 ^ 32), stepCtr := word J.resume } }) s) s
  (s.scaleRecords j).foldl (fun s a => writeJobMem j (a + 36) (leBytes 4 J.resume) s) s

/-! ## Entries at a start (R459, R460) -/

/-- The reduction entry numbers of a job that are not FREE. -/
def State.redEntries (s : State) (j : Nat) : List Nat :=
  ((s.redsOf j).map entryOf).foldl (fun l e => if l.contains e then l else l ++ [e]) []

/-- How a job's entries stand to step F. -/
inductive StartKind where
  | normal
  /-- Commit-phase restart, with its lagging entries and ACC_SKIP of a shard that finished F. -/
  | restart (lagging : List Nat) (skip : Bool)
  | neither
  deriving DecidableEq, Repr

/-- R459 and R460. -/
def State.startKind (s : State) (j f : Nat) : StartKind :=
  let prev := (f + 2 ^ 32 - 1) % 2 ^ 32
  let next := (f + 1) % 2 ^ 32
  let coms := s.comEntries j
  let reds := s.redEntries j
  let redAt (e n : Nat) : Bool := (sharesOf e).all (fun k => (s.red k).step == n)
  let lastAt (e n : Nat) : Bool := (sharesOf e).all (fun k => Stat.lastStep (s.status k) == n)
  let done := coms.filter (fun e => lastAt e f && redAt e next)
  let lag := coms.filter (fun e => lastAt e prev && redAt e f
    && (sharesOf e).all (fun k => Stat.gradStep (s.status k) == f))
  if coms.all (fun e => lastAt e prev) && reds.all (fun e => redAt e f) then .normal
  else
    match done with
    | [] => .neither
    | d :: _ =>
      if coms.all (fun e => done.contains e || lag.contains e)
          && reds.all (fun e => coms.contains e || redAt e next) then
        .restart lag (Stat.accSkip (s.status ((sharesOf d).headD 0)))
      else .neither

/-- A lagging entry's reduction entry is set COMPLETE without a ring stage (R460). -/
def completeLagging (skip : Bool) (e : Nat) (s : State) : State :=
  (sharesOf e).foldl (fun s k => s.updRed k (fun x => { x with
    state := .complete, rounds := x.expectRounds, accepted := x.contribs * 64 * x.bufGrans * x.expectRounds
    globalNf := skip })) s

/-! ## Landings and registers (Tables 15-4, 17-4, 17-8a) -/

/-- Step 4 of R458: each LANDING into every link of its face. -/
def writeLandings (j : Nat) (s : State) : State :=
  let J := s.job j
  J.lands.foldl (fun s d => (J.faceLinks d.face).foldl (fun s k => s.updLink k (fun x => { x with
    landBase := d.base, landSize := d.size, landSync := d.sync, syncEn := d.sync.toNat != 0 })) s) s

/-- s0 to s31 of a tile of a job at its start (Table 17-8a). -/
def startRegs (s : State) (j t : Nat) : Vector Word 32 :=
  let J := s.job j
  let hs := (s.part J.part).herds
  let l : List Nat := [0, t, t % 32, hs.findIdx (· == herdOf t), hs.length, s.herdsPerDie, herdOf t,
    J.regionBase (t % 32), (J.role (t % 32)).size, j, J.resume, if J.phaseRestart then 1 else 0]
  Vector.ofFn (fun i : Fin 32 => word (l.getD i.val 0))
/-- Step 5 of R458. -/
def loadRegs (j : Nat) (s : State) : State :=
  (s.usedTiles j).foldl (fun s t => updJobTile j t (fun T => { T with regs := startRegs s j t, awaits := [] }) s) s

/-! ## The concord digest (R420) -/

/-- The numeric configuration: scale records as initialised, skip slots, reduction and commit fields (Table 15-8). -/
def State.numericItem (s : State) (j : Nat) : List Nat :=
  let J := s.job j
  J.scales.flatMap (fun d => [d.mask, d.off, d.count])
  ++ (s.scaleRecords j).map (fun a => leNat (s.jobBytes j a 64))
  ++ J.skips.flatMap (fun d => [d.mask, d.slot, d.ctrl, d.thresh.toNat])
  ++ (s.redEntries j).flatMap (fun e =>
    let x := s.red ((sharesOf e).headD 0)
    [x.contribs, x.expectRounds, x.ringLen, if x.ringFmt then 1 else 0, x.tensor, x.elemBase])
  ++ (s.comEntries j).flatMap (fun e =>
    let c := s.com ((sharesOf e).headD 0)
    [c.rule, c.b1, c.a1, c.b2, c.a2, c.eps, c.wd, c.workFmt, c.workExp, if c.workLayout then 1 else 0, c.digestEvery])

/-- The content of item `i` (Table 15-8). -/
def State.concordItem (s : State) (j i : Nat) : List Nat :=
  let J := s.job j
  match i with
  | 0 => s.boot.version :: s.boot.digest.map (·.toNat)
  | 1 => J.digest.map (·.toNat)
  | 2 => s.numericItem j
  | 3 => [J.seed]
  | 4 => [(s.part J.part).herdCount]
  | 5 => [J.lx, J.ly, J.lz, J.nx, J.ny, J.nz]
  | _ => [J.inst, J.resume]
/-- An item digest: the first 8 bytes of the SHA-256 of the item's encoding; item 7 is encoded as empty. -/
def State.itemDigest (s : State) (j i : Nat) : List Byte :=
  (sha256 (if i = 7 then [] else Config.itemCode i (s.concordItem j i))).take 8
/-- The eight item digests. -/
def State.itemDigests (s : State) (j : Nat) : List Byte := (List.range 8).flatMap (s.itemDigest j)
/-- CONCORD_TAG: bits 15:0 of the concord digest (log 45). -/
def concordTagOf (digests : List Byte) : Nat := leNat ((sha256 digests).take 2)

/-! ## Comparing with neighbours (R405, R422) -/

/-- The faces of a job that lead to a neighbour. -/
def Job.faces (J : Job) : List Nat := (List.range 6).filter (fun f => decide (1 < J.axisLen (f / 2)))
/-- The coordinates of the declared neighbour of a face. -/
def Job.neighbour (J : Job) (f : Nat) : Nat × Nat × Nat :=
  let go (c l : Nat) : Nat := if f % 2 = 0 then (c + l - 1) % l else (c + 1) % l
  match f / 2 with
  | 0 => (go J.x J.lx, J.y, J.z)
  | 1 => (J.x, go J.y J.ly, J.z)
  | _ => (J.x, J.y, go J.z J.lz)
/-- The face opposite to a face on its axis. -/
def oppositeFace (f : Nat) : Nat := f / 2 * 2 + (1 - f % 2)
/-- Every link of a face is UP and leads to the module of a serial, to a link of the opposite face of the grouping, and was
enabled for no other face (R405, R408). -/
def State.faceReady (s : State) (J : Job) (f serial : Nat) : Bool :=
  (J.faceLinks f).all (fun k =>
    let x := s.link k
    x.run == .up && !x.miscabled && x.farSerial == serial && (J.faceLinks (oppositeFace f)).contains x.farLink
      && (x.face == f || decide (5 < x.face)))
/-- The items in which two lists of eight digests differ, as a bit set. -/
def digestDiff (a b : List Byte) : Nat := bitSet 8 (fun i => (a.drop (8 * i)).take 8 != (b.drop (8 * i)).take 8)

/-- What a neighbour's message says at a face: the cause is 1 for digests, 2 for the place it stands at, 0 for none
(Table 16-11; log 47). -/
def compareConcord (s : State) (J : Job) (mine : List Byte) (f : Nat) (m : ConcordMsg) : FaceReport :=
  let items := digestDiff mine m.digests
  let place := J.neighbour f == (m.x, m.y, m.z) && s.faceReady J f m.serial
  { face := f, serial := m.serial, x := m.x, y := m.y, z := m.z, items := items
    cause := if items ≠ 0 then 1 else if !place then 2 else 0 }

/-! ## The verdict (R422, R443) -/

/-- A disagreement as the verdict sweep carries it: the module's index, its face, the differing items (R422), and the rest of
what a report entry says of it (Table 16-11; log 46). -/
def verdictOf (index : Nat) (r : FaceReport) : Nat :=
  index * 2 ^ 96 + r.face * 2 ^ 88 + r.items * 2 ^ 80 + r.cause * 2 ^ 76 + r.x % 16 * 2 ^ 72 + r.y % 16 * 2 ^ 68
    + r.z % 16 * 2 ^ 64 + r.serial % 2 ^ 64
/-- The disagreement that a value carries. -/
def reportOf (v : Nat) : FaceReport where
  face := bits v 88 8
  serial := bits v 0 64
  x := bits v 72 4
  y := bits v 68 4
  z := bits v 64 4
  items := bits v 80 8
  cause := bits v 76 2
/-- This module's smallest disagreement. -/
def ownVerdict (J : Job) (fs : List FaceReport) : Nat :=
  fs.foldl (fun v r => if r.cause = 0 then v else min v (verdictOf J.moduleIndex r)) noVerdict

/-- A concord report entry (Table 16-11). -/
def reportEntry (reporter : Nat) (r : FaceReport) : List Byte :=
  leBytes 32 (1 + r.face * 2 ^ 143 + r.cause * 2 ^ 146 + r.items * 2 ^ 152 + r.z * 2 ^ 164 + r.y * 2 ^ 168 + r.x * 2 ^ 172
    + reporter * 2 ^ 176 + r.serial * 2 ^ 192)
/-- The report (R443): the smallest disagreement of the sweep, then this module's own faces. -/
def concordReport (v : Nat) (J : Job) (fs : List FaceReport) : List Byte :=
  reportEntry (v / 2 ^ 96) (reportOf v)
  ++ (List.range 6).flatMap (fun f =>
    match fs.find? (fun r => r.face == f && r.cause != 0) with
    | some r => reportEntry J.moduleIndex r
    | none => leBytes 32 0)
  ++ leBytes 32 0

/-- The smallest pass among the other ready jobs of a partition, 0 where there is none (R480). -/
def State.startPass (s : State) (j : Nat) : Rat :=
  let l := (s.jobsOf (s.job j).part).filter (fun i => i != j && ((s.job i).state == .ready || (s.job i).state == .holding))
  match l.map (fun i => (s.job i).pass) with
  | [] => 0
  | a :: r => r.foldl (fun m x => if x < m then x else m) a

/-- The check passes: links are bound and their reference set, the job is ready, and takes free herds (R422, R458,
R480). -/
def passConcord (m q j : Nat) (s : State) : State :=
  let pass := s.startPass j
  let s := s.updJob j (fun J => { J with concord := none, state := .ready, passBase := pass, heldNs := 0, bound := J.spans })
  let J := s.job j
  let s := J.allLinks.foldl (fun s k =>
    setRxStep k J.linkStep (s.updLink k (fun x => { x with bindTag := J.concordTag }))) s
  takeHerds J.part (finishOk m q [] s)

/-- The check refuses the job: REJECTED_STATE with the concord report (R422, R443). -/
def refuseConcord (m q j v : Nat) (fs : List FaceReport) (s : State) : State :=
  let bs := concordReport v (s.job j) fs
  let s := match s.cmd m q with
    | some c => giveResult c bs s
    | none => s
  finish m q .rejectedState 0xFFFF 0 [] (s.updJob j (fun J => { J with concord := none, faceWait := [], silent := [] }))

/-- A link of a face that was compared is retraining: it may come back (R398). -/
def State.facesWait (s : State) (J : Job) : Bool :=
  J.faces.any (fun f => (J.faceLinks f).any (fun k => (s.link k).run == .retraining))
/-- The reports with a face of which a link is no longer UP, or leads elsewhere, found to disagree by its place (R405). -/
def State.lookAgain (s : State) (J : Job) (fs : List FaceReport) : List FaceReport :=
  fs.map (fun r => if r.cause = 0 && !s.faceReady J r.face r.serial then { r with cause := 2 } else r)

/-- The verdict sweep's result takes effect where it is there. A verdict that lets the job start waits for links that retrain,
and the job starts only where each link of each face is UP then, as R405 asks: else this module refuses it. -/
def settleVerdict (j : Nat) (s : State) : State :=
  match (s.job j).concord, (s.job j).result 1 0 with
  | some c, some v =>
    if v = noVerdict ∧ s.facesWait (s.job j) then s
    else
      let fs := if v = noVerdict then s.lookAgain (s.job j) c.faces else c.faces
      let v := min v (ownVerdict (s.job j) fs)
      let s := s.updJob j (fun J => { J with results := J.results.filter (fun r => r.1 != 1) })
      if v = noVerdict then passConcord c.mailbox c.seq j s else refuseConcord c.mailbox c.seq j v fs s
  | _, _ => s

/-- Once every face has been compared, the verdict sweep begins on this module. -/
def concordFaces (j : Nat) (s : State) : State :=
  let J := s.job j
  match J.concord with
  | none => s
  | some c =>
    if !J.faces.all (fun f => c.faces.any (fun r => r.face == f)) then s
    else settleVerdict j (startSweep j 1 0 (ownVerdict J c.faces) s)

/-- A message at a face is compared, once. -/
def takeConcord (j f : Nat) (msg : ConcordMsg) (s : State) : State :=
  let J := s.job j
  match J.concord with
  | none => s
  | some c =>
    if c.faces.any (fun r => r.face == f) then s
    else
      let c := { c with faces := c.faces ++ [compareConcord s J c.digests f msg] }
      concordFaces j (s.updJob j (fun J => { J with concord := some c }))

/-- What neighbours sent before this module's command: their messages, and contributions to the verdict sweep. -/
def takeEarly (j : Nat) (s : State) : State :=
  let J := s.job j
  let ks := J.allLinks
  let verdicts := ks.flatMap (fun k => (s.link k).verdictIn.map (fun v => (k, v)))
  let msgs := ks.filterMap (fun k => (s.link k).concordIn.map (fun c => (k, c)))
  let s := ks.foldl (fun s k => s.updLink k (fun x => { x with concordIn := none, verdictIn := [] })) s
  let s := verdicts.foldl (fun (s : State) e =>
    match J.faceOf e.1 with
    | some f => s.updJob j (fun J => { J with sweepIn := J.sweepIn ++ [{
        kind := 1, step := 0, axis := f / 2, minus := f % 2 == 0, hop := e.2.1, value := e.2.2 }] })
    | none => s) s
  msgs.foldl (fun s e =>
    match J.faceOf e.1 with
    | some f => takeConcord j f e.2 s
    | none => s) s

/-- Step 6 of R458: a job of one module passes at once; another sends its digests to its neighbours and waits. -/
def beginConcord (m q j : Nat) (s : State) : State :=
  let ds := s.itemDigests j
  let s := s.updJob j (fun J => { J with
    concordTag := concordTagOf ds, concord := some { mailbox := m, seq := q, digests := ds }, results := [], sweeps := []
    sweepIn := [], faceWait := [], silent := [] })
  let J := s.job j
  if !J.spans then passConcord m q j s
  else
    let s := s.updCmd m q (fun c => { c with phase := .waiting })
    let s := J.faces.foldl (fun s f =>
      pushFace j f 2 1 J.linkStep (.concord 0 J.x J.y J.z Config.serial ds) s) s
    takeEarly j s

/-- Steps 1 to 6 of R458 for a job whose items are applied. -/
def runStart (m q j : Nat) (s : State) : State :=
  let J := s.job j
  let f := J.resume
  let s := (writeSeeds j s).updJob j (fun J => { J with linkStep := f })
  let go (restart : Bool) (s : State) : State :=
    beginConcord m q j (loadRegs j (writeLandings j (s.updJob j (fun J => { J with phaseRestart := restart }))))
  match s.startKind j f with
  | .normal => go false s
  | .restart lag skip => go true (lag.foldl (fun s e => completeLagging skip e s) s)
  | .neither => finish m q .rejectedState 0xFFFF 0 [] s

/-- JOB_START (R458, R477). -/
def execJobStart (m : MailboxId) (q : BitVec 16) (s : State) : Out :=
  .next (startCmd m.val q.toNat Op.jobStart s (fun c s =>
    let j := c.index
    let reject (s : State) := finish m.val q.toNat .rejectedState 0xFFFF 0 [] s
    if (s.job j).state ≠ .loaded ∨ (s.job j).started ∨ (s.job j).td ≠ .none ∨ (s.job j).concord.isSome then reject s
    else withItems m.val q.toNat 7 [1, 2, 3, 4, 5, 6] c (fun id v s => startItem j id v s)
      (fun s =>
        let s := if (c.item 7).isNone then s.updJob j (fun J => { J with concordSecs := 30 }) else s
        if (s.job j).spans && (s.jobsOf (s.job j).part).any (· != j) then reject s
        else runStart m.val q.toNat j s) s))

/-- CONCORD_EXCHANGE (R422): a neighbour's coordinates, serial and digests arrive over a link. Before this module's own
command they wait. -/
def execConcordExchange (link : LinkId) (x y z serial : Nat) (digests : List Byte) (s : State) : Out :=
  .next (
    let k := link.val
    let msg : ConcordMsg := ⟨x, y, z, serial, digests⟩
    let j := s.jobOfLink k
    let s := s.updLink k (fun l => l.handled 2 1)
    if (s.job j).concord.isSome then
      match (s.job j).faceOf k with
      | some f => takeConcord j f msg s
      | none => s
    else s.updLink k (fun l => { l with concordIn := some msg }))

/-- CONCORD_TIMEOUT (R422): the command's time is over; a face without a message disagrees, and the verdict sweep goes on
without it. -/
def execConcordTimeout (j : BitVec 8) (s : State) : Out :=
  .next (
    let j := j.toNat
    let J := s.job j
    match J.concord with
    | none => s
    | some c =>
      let missing := J.faces.filter (fun f => !c.faces.any (fun r => r.face == f))
      if missing.isEmpty then s
      else
        let c := { c with faces := c.faces ++ missing.map (fun f => { face := f, cause := 3 }) }
        concordFaces j (s.updJob j (fun J => { J with concord := some c, silent := missing })))

/-! ## Sweeps that arrive (R414, R418) -/

/-- What the end of a sweep brings about. -/
def settleSweeps (j : Nat) (s : State) : State := settleHealth j 4 (settleVerdict j s)

/-- SWEEP_HOP (R414, R418): a contribution arrives over a link. One that names the step after the link step is held with its
credit until the job reaches it. A flag or health sweep of any other step faults the job; the checkpoint sweep of a
step that the job has passed is delivered, and the verdict sweep comes before there is a link step (log 48). A miscabled link
carries none (R408). -/
def execSweepHop (link : LinkId) (kind step hop value : Nat) (s : State) : Out :=
  .next (
    let k := link.val
    let j := s.jobOfLink k
    let J := s.job j
    let free (s : State) : State := s.updLink k (fun x => x.handled 2 1)
    if (s.link k).miscabled then free s
    else match (if s.jobUsed j then J.faceOf k else none) with
    | none => free (if kind = 1 then s.updLink k (fun x => { x with verdictIn := x.verdictIn ++ [(hop, value)] }) else s)
    | some f =>
      let come (held : Option Nat) (step : Nat) (s : State) : State := settleSweeps j (receiveSweep j {
        kind := kind, step := step, axis := f / 2, minus := f % 2 == 0, hop := hop, value := value, link := held } s)
      if 3 < kind || hop = 0 || J.hops (f / 2) < hop then free s
      else if kind = 1 then
        if J.concord.isSome then come none 0 (free s)
        else free (s.updLink k (fun x => { x with verdictIn := x.verdictIn ++ [(hop, value)] }))
      else
        match stepCompare step J.linkStep with
        | .same => come none J.linkStep (free s)
        | .ahead => come (some k) ((J.linkStep + 1) % 2 ^ 32) (s.updLink k (fun x => { x with held := (x.held + 1) % 2 ^ 32 }))
        | .skew => if kind = 3 && !newer 16 step J.linkStep then come none step (free s) else stepSkewFault k (free s))

/-- Control-lane blocks held for the step that a job has now reached are delivered: their credits are freed, sweeps go on, and
digests are compared (R414). -/
def releaseControl (j : Nat) (ks : List Nat) (s : State) : State :=
  let step := (s.job j).linkStep
  let sweeps := (s.job j).sweepIn.filter (fun x => x.link.isSome && stepCompare x.step step != .ahead)
  let s := s.updJob j (fun J => { J with
    sweepIn := J.sweepIn.map (fun x => if stepCompare x.step step = .ahead then x else { x with link := none }) })
  let s := sweeps.foldl (fun s x => match x.link with
    | some l => s.updLink l (fun y => y.handled 2 1)
    | none => s) s
  let s := settleSweeps j (resumeSweeps j (s.job j).sweeps s)
  let come := (s.job j).ctrlHeld.filter (fun c => stepCompare c.2.1 step != .ahead)
  let s := s.updJob j (fun J => { J with ctrlHeld := J.ctrlHeld.filter (fun c => stepCompare c.2.1 step == .ahead) })
  let s := come.foldl (fun s c =>
    let s := s.updLink c.1 (fun y => y.handled 2 1)
    match c.2.2 with
    | some origin => takeAbort c.1 origin s
    | none => serveBuddy c.1 (Config.buddyHits s.free) { s with free := s.free + 1 }) s
  ks.foldl (fun s k =>
    let s := ((s.com k).digestIn.filter (fun d => stepCompare d.2.1 step == .same)).foldl
      (fun s d => s.updLink d.1 (fun y => y.handled 2 1)) s
    checkDigests k s) s

/-- LINK_STEP_ADVANCE (R413): every share of the job's commit entries has finished the current step. -/
def execLinkStepAdvance (j : BitVec 8) (s : State) : Out :=
  .next (
    let j := j.toNat
    let J := s.job j
    let ks := s.comsOf j
    if !s.jobUsed j || ks.isEmpty || !ks.all (fun k => Stat.lastStep (s.status k) == J.linkStep) then s
    else
      let step := (J.linkStep + 1) % 2 ^ 32
      let s := s.updJob j (fun J => { J with linkStep := step })
      let s := if J.bound then J.allLinks.foldl (fun s k => setRxStep k step s) s else s
      releaseControl j ks s)

/-! ## JOB_ABORT and JOB_UNLOAD -/

/-- JOB_ABORT (R484, R486): the job's context is torn down, and the command ends with it. -/
def execJobAbort (m : MailboxId) (q : BitVec 16) (s : State) : Out :=
  .next (startCmd m.val q.toNat Op.jobAbort s (fun c s => noItems m.val q.toNat c (fun s =>
    let j := c.index
    if (s.job j).state = .tornDown then finishOk m.val q.toNat [] s
    else
      let s := s.updCmd m.val q.toNat (fun c => { c with phase := .waiting })
      tearDown j (s.updJob j (fun J => { J with aborts := J.aborts ++ [(m.val, q.toNat)] }))) s))

/-- A job runs: it is ready or holds the herds, is being switched in, is being torn down, or is in its concord check. -/
def State.jobRuns (s : State) (j : Nat) : Bool :=
  let J := s.job j
  J.state == .ready || J.state == .holding || J.td != .none || (s.part J.part).incoming == j || J.concord.isSome

/-- A tile's region is released. -/
def Tile.unload (T : Tile) : Tile :=
  { T with
    regionBase := 0, regionSize := 0, codeBase := 0, codeSize := 0, ringBase := 0, ringSize := 0
    port := { T.port with job := 0, ring := [], readPos := 0, writePos := 0 } }

/-- A job is unloaded (R461): its id, allotments and context areas, and, where it lies in the herds, its regions and
declared objects; a tile of it that kept MSG_JOB, FAULTED or HALTED, over the end of its partition is stopped, as TILE_CONTROL.RUN
stops one in any state, and holds no job any more (R249, R274, Table 3-8). Entries that an ended job left on are freed with it
(log 49). -/
def unloadJob (j : Nat) (s : State) : State :=
  let J := s.job j
  let p := J.part
  let s := if J.state = .tornDown then s else endWaits j (freeEntries j s)
  let s := if (s.part p).live && s.inHerds j then
      let s := (s.usedTiles j).foldl (fun s t => (stopTile t s).updTile t Tile.unload) s
      let s := (s.jobObjs j).foldl (fun (s : State) o => s.setSync o {}) s
      s.updPart p (fun P => { P with resident := 0 })
    else s
  let s := (s.tiles.filter (fun e => e.2.port.job == j)).foldl
    (fun (s : State) e => (stopTile e.1 s).updTile e.1 Tile.unload) s
  let s := { s with coms := Sparse.mapVals (fun k c => if (s.red k).job = j then { c with enabledOnce := false } else c) s.coms }
  let s := s.updCham (fun c => { c with gone := c.gone + J.acct.now.energy })
  { s with jobs := Sparse.del s.jobs j }

/-- JOB_UNLOAD (R461): REJECTED_STATE while the job runs. -/
def execJobUnload (m : MailboxId) (q : BitVec 16) (s : State) : Out :=
  .next (startCmd m.val q.toNat Op.jobUnload s (fun c s => noItems m.val q.toNat c (fun s =>
    if s.jobRuns c.index then finish m.val q.toNat .rejectedState 0xFFFF 0 [] s
    else finishOk m.val q.toNat [] (unloadJob c.index s)) s))

end Sys2Proof.Machine
end

