-- ==== Sys2Proof/Machine/Reset.lean ====
section
/-! DEFINITION. What a reset and the loss of the input leave (spec/21 R527, R528; spec/22 R545, R546). -/

namespace Sys2Proof.Machine

/-! ## Reset (R527, R528) -/

/-- The module after a reset, with its rails and lines as `p` says: every register at its reset value, every object OFF,
FW in ROM. Grade, stepping, fuses, flash and the modules in the laser slots stay; the memories' contents are free (log 5);
barred steps come from flash (R504); the queue of commands and what the bus last returned are the model's own. -/
def resetModule (p : Power) (s : State) : State :=
  let d := dropMemory s
  { State.reset with
    pending := s.pending
    free := d.free
    grade := s.grade
    stepMajor := s.stepMajor
    stepMinor := s.stepMinor
    busData := s.busData
    busNack := s.busNack
    mem := d.mem
    lasers := Sparse.mapVals (fun _ x => { x with powered := false }) s.lasers
    quads := s.flash.bars.map (fun b => (b.1, ({ barred := some b.2 } : QuadDom)))
    boot := { badIdentity := s.boot.badIdentity }
    flash := s.flash
    power := p }

/-- Every rail is off (R546); the baseboard's straps stay as they are tied. -/
def Power.off (p : Power) (input : PowerIn) : Power where
  input := input
  mgmt := false
  control := false
  tripped := p.tripped && input == .over
  sideband := false
  straps := p.straps
  smbAddr := p.smbAddr

/-- Power-on (R545): the management and control rails are on, and the sideband reads its address (R555). The trip latch stays
set only where the input was not removed: after an overvoltage (R501, R556; log 52). -/
def Power.restart (p : Power) : Power where
  tripped := p.tripped && p.input == .over
  straps := p.straps
  smbAddr := 0x4C + p.straps

/-- The rails go off with the input. -/
def powerOff (input : PowerIn) (s : State) : State :=
  resetModule (s.power.off input) s

end Sys2Proof.Machine
end

