-- ==== Sys2Proof/Machine/Boot.lean ====
section
/-! DEFINITION. The boot ROM, FW_LOAD and the end of boot, attestation (spec/21 sections 21.3 and 21.4; spec/22 R559). -/

namespace Sys2Proof.Machine

/-- Bytes with some replaced from an offset. -/
def putAt (bs : List Byte) (off : Nat) (x : List Byte) : List Byte := bs.take off ++ x ++ bs.drop (off + x.length)

/-! ## The boot ROM (R532) -/

/-- ROM_STATUS (R532, Table 21-4). -/
def execRomStatus (m : MailboxId) (q : BitVec 16) (s : State) : Out :=
  .next (startCmd m.val q.toNat Op.romStatus s (fun c s => noItems m.val q.toNat c (fun s =>
    let flags := (if s.power.tripped then 1 else 0) + (if s.flash.debugLock then 2 else 0) + (if s.boot.badIdentity then 4 else 0)
    finishOk m.val q.toNat (s.idBytes ++ leBytes 1 flags ++ leBytes 4 s.flash.svnFloor ++ leBytes 4 s.boot.failCode
      ++ leBytes 4 Config.romVersion) s) s))

/-! ## FW_LOAD (R533, R534) -/

namespace FwHdr
/-- Fields of the header as a 1,024-bit number (Table 21-5). -/
def magic (h : Nat) : Nat := bits h 0 32
def family (h : Nat) : Nat := bits h 40 8
def format (h : Nat) : Nat := bits h 48 16
def floor (h : Nat) : Nat := bits h 368 8
def svn (h : Nat) : Nat := bits h 376 8
def version (h : Nat) : Nat := bits h 384 32
def bodyLen (h : Nat) : Nat := bits h 448 32
end FwHdr

/-- The header of an image as a number, VENDOR_PK's bytes, and the signature. -/
def fwHeader (b : List Byte) : Nat := leNat (b.take 128)
def fwKey (b : List Byte) : List Byte := (b.drop 60).take 60
def fwSignature (b : List Byte) : List Byte := b.drop (b.length - 3604)

/-- Check 0x03: the header's fields and the length. -/
def fwFormOk (b : List Byte) : Bool :=
  let h := fwHeader b
  let n := FwHdr.bodyLen h
  FwHdr.magic h == 0x57464E4E && FwHdr.format h == 1 && FwHdr.family h == 9 && zeros h [(32, 8), (64, 304), (960, 64)]
    && n % 64 == 0 && decide (64 ≤ n ∧ n ≤ 1572864) && b.length == 3732 + n
    && decide (FwHdr.floor h ≤ FwHdr.svn h ∧ FwHdr.svn h ≤ 32)

/-- Check 0x05: a signature of L = 2, both levels LMS_SHA256_M32_H20 with LMOTS_SHA256_N32_W8, as RFC 8554 encodes them
(log 51). -/
def fwParamsOk (sig : List Byte) : Bool :=
  let at4 (o : Nat) : Nat := beNat ((sig.drop o).take 4)
  at4 0 == 1 && at4 8 == 4 && at4 1132 == 8 && at4 1776 == 8 && at4 1780 == 4 && at4 1836 == 4 && at4 2960 == 8

/-- The first check of Table 21-6 that fails, with its status; checks 0x03 to 0x07 on the copied image. -/
def fwFault (s : State) (image : Option (List Byte)) : Option (Nat × Status) :=
  if s.power.tripped then some (1, .rejectedState)
  else
    match image with
    | none => some (2, .faulted)
    | some b =>
      if !fwFormOk b then some (3, .rejectedArg)
      else if sha256 (fwKey b) != Config.vendorKeyHash then some (4, .authFail)
      else if !fwParamsOk (fwSignature b) then some (5, .authFail)
      else if !hssVerify lmsFirmware lmsFirmware (fwKey b) (b.take (b.length - 3604)) (fwSignature b) then some (6, .authFail)
      else if FwHdr.svn (fwHeader b) < s.flash.svnFloor then some (7, .authFail)
      else none

/-- The image is accepted: the floor is raised, measurements are taken, FW is LOADING (R534, R538). -/
def acceptFw (q : Nat) (b : List Byte) (s : State) : State :=
  let h := fwHeader b
  let floor := max s.flash.svnFloor (FwHdr.floor h)
  { s with
    fw := .loading
    flash := { s.flash with svnFloor := floor }
    boot := { s.boot with
      loading := some q, failCode := 0, version := FwHdr.version h, digest := sha256 b, measuredFloor := floor } }

/-- SVN_FLOOR bits that power loss lets be blown of a raise to `floor` (R534). -/
def raiseCut (floor n : Nat) (s : State) : State :=
  { s with flash := { s.flash with svnFloor := min floor (s.flash.svnFloor + n) } }

/-- FW_LOAD (R534). `image` is what the host's memory answers for the IMAGE_LEN bytes at IMAGE_ADDR, none for an error (log
12); bytes of another number are no such answer. `cut` says that power fails in the raise of the floor once so many bits are
blown. -/
def execFwLoad (m : MailboxId) (q : BitVec 16) (image : Option (List Byte)) (cut : Option Nat) (s : State) : Out :=
  .next (startCmd m.val q.toNat Op.fwLoad s (fun c s =>
    if (match image with | some b => b.length != c.itemD 2 0 | none => false) then s
    else withItems m.val q.toNat 2 [1, 2] c (fun id v s => only (loadItemOk id v) s)
      (fun s =>
        match fwFault s image, image with
        | some (code, st), _ =>
          finish m.val q.toNat st 0xFFFF (if code = 2 then Code.hostError else 0) (leBytes 4 code)
            { s with boot := { s.boot with failCode := code } }
        | none, some b =>
          let floor := FwHdr.floor (fwHeader b)
          match cut.filter (fun n => decide (s.flash.svnFloor + n < floor)) with
          | some n => powerOff .under (raiseCut floor n s)
          | none => acceptFw q.toNat b (s.updCmd m.val q.toNat (fun c => { c with phase := .waiting }))
        | none, none => s) s))

/-! ## The end of boot (R535, R559) -/

/-- FW_LOAD ends FAULTED with FW STOPPED (R535). -/
def endLoad (s : State) : State :=
  match s.boot.loading with
  | none => s
  | some q => finish 0 q .faulted 0xFFFF 0 [] { s with boot := { s.boot with loading := none } }

/-- The rails of event 3, and with `dimms` those of event 4, come on (Tables 21-7, 22-3): the laser branches power the modules in
their slots (R554), and a module that is absent or shorted is reported. -/
def railsOn (dimms : Bool) (s : State) : State :=
  let s := { s with power := { s.power with core := true, hbm := true, optics := true, lasers := true, dimms := dimms } }
  reportLasers { s with lasers := (List.range 24).foldl (fun m n =>
      let x := s.laser n
      Sparse.set m n { x with powered := x.usable }) s.lasers }

/-- The event of Table 21-7 in which a fault of boot arises: a flash record's in event 2, a self-test's in event 3; a rail's,
an undervoltage's or a stall's in any event in which the rail is on, which is free (log 52). -/
def bootEventOf (cls : Nat) (s : State) : Nat :=
  if cls = 6 then 2 else if cls = 3 then 3
  else if cls = 0x21 ∨ cls = 1 ∨ cls = 2 then 3 + Config.bootEvent s.free % 2 else 2 + Config.bootEvent s.free % 3

/-- A hardware fault of boot with its class value: the rails are as its event finds them, HW_FAULT is posted, FW is STOPPED, FW_LOAD
ends FAULTED (R535, R546). A short of the management rail that came while no firmware ran is reported with it (R557; log 52). -/
def failBootWith (f : BootFault) (value : Nat) (s : State) : State :=
  if s.boot.loading.isNone then s
  else
    let e := bootEventOf f.cls s
    let s := { s with free := s.free + 1 }
    let s := if 3 ≤ e then railsOn (e == 4) s else s
    let s := if s.power.mgmtShort && f.cls != 0x22 then postHw 0x22 0 false 0 s else s
    endLoad (fatalFault f.cls f.idx value { s with boot := { s.boot with
      badIdentity := s.boot.badIdentity || (f.cls == 6 && f.idx == 0) } })

/-- One of a class whose value is 0 (Table 16-12b). -/
def failBoot (f : BootFault) (s : State) : State := failBootWith f 0 s

/-- The flash record without a valid copy that event 2 finds (R531, Table 16-12b). -/
def Flash.invalid (f : Flash) : Option BootFault :=
  if f.identity.read.isNone then some ⟨6, FlashArea.identity.offset / 65536⟩
  else if f.certificate.read.isNone then some ⟨6, FlashArea.certificate.offset / 65536⟩
  else none

/-- A DIMM is one that Table 12-4 supports. -/
def dimmOk (d : DimmReport) : Bool :=
  d.registered && d.ecc && decide (6400 ≤ d.speed) && [16, 32, 64, 128, 256].contains d.gib && d.features
    && (d.ranks == 1 || d.ranks == 2) && (d.width == 4 || d.width == 8)
    && (d.stack == 1 || ((d.stack == 2 || d.stack == 4) && decide (128 ≤ d.gib)))

/-- Channel `c` at boot (R323, R552): an empty socket or an open branch leaves it off, a refused DIMM or one that does
not train is reported, and a trained one is ON. -/
def bootChannel (ds : List DimmReport) (c : Nat) (s : State) : State :=
  let report (kind : Nat) (s : State) : State := postEvent 0 Ev.memEvent (16 + c) (memEventDetail (16 + c) kind 0) s
  if s.power.openDimms.contains c then s
  else
    match ds.find? (fun d => d.channel == c && d.fitted) with
    | none => s
    | some d =>
      if !dimmOk d then report 2 s
      else
        let s := { s with boot := { s.boot with fitted := Sparse.set s.boot.fitted c d.gib } }
        if !d.trained then report 3 s
        else (channelUp c s).updLife 4 c (fun x => { x with run := .on })

/-- The enabled sites of the four dies in logical order: within a die, local indices go to its enabled sites in rising
order (R19; log 87). It depends on the grade map alone, so it never changes (R21). -/
def Flash.assign (f : Flash) : List Nat := (List.range 416).filter (fun i => !f.offSites.contains i)

/-- The physical site of a logical herd (R19, R22), once Ibex firmware has assigned the sites. -/
def State.siteOf (s : State) (h : Nat) : Option Nat := s.boot.sites[h]?

/-- Rails, controllers and laser sources come on (events 3 and 4 of Table 21-7). -/
def bootRails (s : State) : State :=
  (List.range 16).foldl (fun s u => s.updMc u (fun m => { m with run := .enabled, gib := 72 })) (railsOn true s)

/-- BOOT_END (R535): events 2 to 5 of Table 21-7. Module time starts from 0, FW is READY, and FW_LOAD's final record is
written; or a hardware fault of boot ends it. A short of the management rail that came while no firmware ran is reported now
(R557; log 52). -/
def execBootEnd (dimms : List DimmReport) (fault : Option BootFault) (s : State) : Out :=
  .next (
    match s.boot.loading, s.flash.invalid.orElse (fun _ => fault) with
    | none, _ => s
    | some _, some f => failBoot f s
    | some q, none =>
      if s.power.tripped then s
      else
        let s := (List.range 16).foldl (fun s c => bootChannel dimms c s) (bootRails s)
        let s := { s with
          time := 0, fw := .ready
          period := { s.period with index := 0, start := 0 }
          boot := { s.boot with loading := none, booted := true, badIdentity := false, sites := s.flash.assign } }
        let s := if s.power.mgmtShort then postHw 0x22 0 false 0 s else s
        finishOk 0 q (leBytes 4 s.boot.version) s)

/-- UNDERVOLTAGE (R48): a core domain, a quad or 128 for the spine, fell below 0.50 V to `mv`. In boot, once the core rail is on,
it is a hardware fault of boot (R535). -/
def execUndervoltage (domain mv : Nat) (s : State) : Out :=
  .next (
    if s.fw = .loading then failBootWith ⟨1, domain⟩ mv s
    else if s.power.core && s.fw != .rom then fatalFault 1 domain mv s else s)

/-- HANDSHAKE_STALL (R55): a herd, or 0x8000 + a spine unit, held a request for `us`; a stalled herd's own partition and the
others whose traffic passes the unit fault. A packet of a transfer that Ibex firmware makes and that keeps failing its
check is such a fault too (R263; log 84). In boot it is a hardware fault of boot (R535). -/
def execHandshakeStall (unit us : Nat) (parts : List (Fin 17)) (s : State) : Out :=
  .next (
    if s.fw = .rom then s
    else if s.fw = .loading then failBootWith ⟨2, unit⟩ us s
    else
      let own := if unit < 0x8000 then s.partOfHerd unit else 0
      ((if own = 0 then [] else [own]) ++ (parts.map (·.val)).filter (· != own)).foldl
        (fun s p => if (s.part p).live then faultPart p s else s) (postHw 2 unit false us s))

/-- HARD_THERMAL_TRIP (R501, Table 19-3): a sensor, as Table 16-12b numbers it, has read its limit or more for 10 µs. During
boot it is a hardware fault of boot (R535). -/
def execHardThermalTrip (sensor : Nat) (reading : Int) (s : State) : Out :=
  .next (
    if s.power.tripped || !s.power.control || decide (reading < tripLimit sensor) then s
    else
      let s := { s with
        power := { s.power with
          tripped := true, core := false, hbm := false, optics := false, dimms := false, lasers := false }
        flash := s.flash.noteTrip }
      let s := opticsOff (mcsOff (dropMemory s))
      if s.fw = .rom then s else endLoad (fatalFault 4 sensor (wrapInt 64 reading) s))

/-! ## The debug port (R540) -/

/-- What an instruction of the IEEE 1149.1 port selects: a scan chain of the module or the Ibex debug logic, or BYPASS. -/
inductive TapSelect where
  | chain (instruction : Nat)
  | bypass
  deriving DecidableEq, Repr

/-- The debug port is open: DEBUG_LOCK is not blown (R540). -/
def State.portOpen (s : State) : Bool := !s.flash.debugLock

/-- R540: a locked port implements only BYPASS, whatever instruction it is given; an open one gives scan access and run
control of the Ibex cores (log 88). A port whose management rail is off or shorted does not answer (R557). -/
def State.tapSelect (s : State) (instruction : Nat) : Option TapSelect :=
  if !s.power.mgmt || s.power.mgmtShort then none
  else some (if s.portOpen then .chain instruction else .bypass)

/-! ## Attestation (R537 to R539) -/

/-- The jobs of M3 for a mailbox, in increasing id (R538). -/
def State.attested (s : State) (m : Nat) : List Job :=
  (s.jobs.map (·.2)).filter (fun J => m == 0 || J.part == m)

/-- The fuse record of M2 (R538). -/
def State.fuseRecord (s : State) : List Byte :=
  padTo 32 Config.vendorKeyHash ++ leBytes 4 s.boot.measuredFloor ++ leBytes 1 (if s.flash.debugLock then 1 else 0)
    ++ leBytes 2 s.herdCount ++ leBytes 1 s.stepMajor.toNat

/-- M3 for a mailbox: the chain over its jobs' image digests. -/
def State.jobChain (s : State) (m : Nat) : List Byte :=
  (s.attested m).foldl (fun h J => sha256 (h ++ J.digest)) (List.replicate 32 0)

/-- The attestation report (Table 21-8). -/
def attestReport (s : State) (m : Nat) (nonce : List Nat) : List Byte :=
  leBytes 4 0x54414E4E ++ leBytes 4 256 ++ leBytes 8 Config.serial ++ nonce.flatMap (leBytes 8) ++ leBytes 4 m
    ++ leBytes 4 s.boot.version ++ leBytes 4 s.flash.svnFloor
    ++ leBytes 4 ((if s.flash.debugLock then 1 else 0) + (if s.jobs.any (fun e => e.2.tahr) then 2 else 0))
    ++ padTo 32 Config.romDigest ++ s.boot.digest ++ sha256 s.fuseRecord ++ s.jobChain m
    ++ leBytes 4 (s.attested m).length ++ List.replicate 60 0

/-- The device key's signature of a report with leaf `leaf` of block `block` (R537, R539). -/
def attestSignature (block leaf : Nat) (report : List Byte) : List Byte :=
  hssSign lmsDeviceTop lmsDeviceBlock Config.deviceSecret block leaf report

/-- A leaf to sign with: the next of the block in use, or the first of a newly reserved block; a status where there is none or
the reservation's write fails, which leaves the copy that stands (R531, R537). -/
def takeLeaf (flashOk : Bool) (s : State) : Except (Status × State) (Nat × Nat × State) :=
  match (if s.boot.leaf < 1024 then s.boot.block else none), s.flash.nextBlock with
  | some b, _ => .ok (b, s.boot.leaf, { s with boot := { s.boot with leaf := s.boot.leaf + 1 } })
  | none, none => .error (.faulted, s)
  | none, some b =>
    if 32768 ≤ b then .error (.noResource, s)
    else
      let s := { s with flash := { s.flash with leaves := s.flash.leaves.write (leBytes 4 (b + 1)) flashOk } }
      if !flashOk then .error (.faulted, s)
      else .ok (b, 0, { s with boot := { s.boot with block := some b, leaf := 1 } })

/-- ATTEST (R537, R539, R541). `flashOk` says that the reservation record can be written. -/
def execAttest (m : MailboxId) (q : BitVec 16) (flashOk : Bool) (s : State) : Out :=
  .next (startCmd m.val q.toNat Op.attest s (fun c s =>
    if s.cmdWaits c then s
    else withItems m.val q.toNat 4 [1, 2, 3, 4] c (fun _ _ s => .ok s)
      (fun s =>
        let fail (st : Status) (s : State) := finish m.val q.toNat st 0xFFFF 0 [] s
        if s.portOpen then fail .authFail s
        else
          match takeLeaf flashOk s with
          | .error (st, s) => fail st s
          | .ok (b, n, s) =>
            let report := attestReport s m.val ((List.range 4).map (fun i => c.itemD (i + 1) 0))
            finishOk m.val q.toNat [] (giveResult c (report ++ attestSignature b n report
              ++ padTo 3732 (s.flash.certificate.read.getD []) ++ List.replicate 56 0) s)) s))

end Sys2Proof.Machine
end

