-- ==== Sys2Proof/Machine/Branch.lean ====
section
/-! DEFINITION. Branches and jumps (spec/04 R108). A target outside the code range faults at the next issue (R67). -/

namespace Sys2Proof.Machine

/-- A branch: to its own offset + 4 × DISP where the condition holds, else to the next word (R108, R138). -/
def branchOp (t : Nat) (ra rb : Reg) (disp : BitVec 16) (c : Word → Word → Bool) (s : State) : State :=
  issue t [ra, rb] s (fun s =>
    let T := s.tile t
    if c (T.reg ra) (T.reg rb) then retireAt t 2 (branchTarget T.pc disp) s id else retire t 1 s id)

/-- BEQ (R108). -/
def execBeq (t : Nat) (ra rb : Reg) (disp : BitVec 16) (s : State) : Out :=
  onTile t s (branchOp t ra rb disp (fun a b => a == b))

/-- BNE (R108). -/
def execBne (t : Nat) (ra rb : Reg) (disp : BitVec 16) (s : State) : Out :=
  onTile t s (branchOp t ra rb disp (fun a b => a != b))

/-- BLTS (R108). -/
def execBlts (t : Nat) (ra rb : Reg) (disp : BitVec 16) (s : State) : Out :=
  onTile t s (branchOp t ra rb disp (fun a b => a.slt b))

/-- BGES (R108). -/
def execBges (t : Nat) (ra rb : Reg) (disp : BitVec 16) (s : State) : Out :=
  onTile t s (branchOp t ra rb disp (fun a b => !a.slt b))

/-- BLTU (R108). -/
def execBltu (t : Nat) (ra rb : Reg) (disp : BitVec 16) (s : State) : Out :=
  onTile t s (branchOp t ra rb disp (fun a b => a.ult b))

/-- BGEU (R108). -/
def execBgeu (t : Nat) (ra rb : Reg) (disp : BitVec 16) (s : State) : Out :=
  onTile t s (branchOp t ra rb disp (fun a b => !a.ult b))

/-- JMPL: RD := its offset + 4, jump to its offset + 4 × DISP (R108). -/
def execJmpl (t : Nat) (rd : Reg) (disp : BitVec 21) (s : State) : Out :=
  onTile t s (fun s => issue t [] s (fun s =>
    let pc := (s.tile t).pc
    retireAt t 2 (branchTarget pc disp) s (fun T => T.setReg rd (pc + 4))))

/-- JMPR: RD := its offset + 4, jump to RA + IMM as RA was; a target not 4-byte aligned faults (R108). -/
def execJmpr (t : Nat) (rd ra : Reg) (imm : BitVec 16) (s : State) : Out :=
  onTile t s (fun s => issue t [ra] s (fun s =>
    let T := s.tile t
    let target := effOff (T.reg ra) imm
    if target.toNat % 4 = 0 then retireAt t 2 target s (fun T => T.setReg rd (T.pc + 4))
    else faultIssue t 0 ⟨Code.misaligned, 0⟩ s))

end Sys2Proof.Machine
end

