-- ==== Sys2Proof/Machine/PowerOps.lean ====
section
/-! DEFINITION. Reset, the 48 V input, the CXL port, the faults of Table 22-6 and the management sideband (spec/21 section
21.1; spec/22). -/

namespace Sys2Proof.Machine

/-! ## The connector's outputs (R544, R556, Table 22-6) -/

/-- PWR_OK is released while the control and CXL rails are in regulation, and pulled low otherwise. -/
def Power.pwrOk (p : Power) : Bool := p.control
/-- THERM_TRIP_N is low from a hard trip until the input is removed. -/
def Power.thermTripLow (p : Power) : Bool := p.tripped
/-- INPUT_REV_N is low, and the red indicator lit, while the input is reversed. -/
def Power.inputRevLow (p : Power) : Bool := p.input == .reversed
/-- SMB_ADDR1 and SMB_ADDR0 as the module reads them: 0 while the management rail is shorted. -/
def Power.readStraps (p : Power) : Nat := if p.mgmtShort then 0 else p.straps

/-- POWER_ON (R527, R545): P48V enters its range. -/
def execPowerOn (s : State) : Out :=
  .next (
    if s.power.input = .inRange then s
    else resetModule s.power.restart s)

/-- INPUT_UNDERVOLTAGE_OFF (Table 22-2): as removal of the input, also where it was reversed or above its range (R556). -/
def execInputUndervoltageOff (s : State) : Out :=
  .next (
    match s.power.input with
    | .inRange => powerOff .under s
    | .over | .reversed => { s with power := s.power.off .under }
    | .absent | .under => s)

/-- INPUT_OVERVOLTAGE_OFF (Table 22-2). -/
def execInputOvervoltageOff (s : State) : Out :=
  .next (if s.power.input = .inRange then powerOff .over s else s)

/-- INPUT_REVERSED (Tables 22-2, 22-6): no rail is on. -/
def execInputReversed (s : State) : Out := .next (powerOff .reversed s)

/-- MOD_RESET (R527, R544, R551): the reset line's rising edge, with REFCLK toggling or not. -/
def execModReset (refclk : Bool) (s : State) : Out :=
  .next (
    if !s.power.control then s
    else resetModule { s.power with
      core := false, hbm := false, optics := false, dimms := false, lasers := false
      openDimms := [], cxlWidth := 0, cxlRate := 0, cxlUpper := false, cxlDown := false, commonClock := refclk } s)

/-! ## The CXL port (R527, R550) -/

/-- CXL_HOT_RESET (R527): hot reset, secondary bus reset or link down retrains the port and resets nothing. -/
def execCxlHotReset (s : State) : Out :=
  .next { s with power := { s.power with cxlWidth := 0, cxlRate := 0, cxlUpper := false } }

/-- CXL_TRAIN (R550): the port trains at the widest width and the highest rate in GT/s that both ends support; with none it
stays down until the next reset. At x8, `upper` says that lanes 8 to 15 carry it, under reversal. -/
def execCxlTrain (width rate : Nat) (upper : Bool) (s : State) : Out :=
  .next (
    if !s.power.control || s.power.cxlWidth != 0 || s.power.cxlDown then s
    else
      let w := if 16 ≤ width then 16 else if 8 ≤ width then 8 else 0
      let r := if 64 ≤ rate then 64 else if 32 ≤ rate then 32 else 0
      if w = 0 ∨ r = 0 then { s with power := { s.power with cxlDown := true } }
      else { s with power := { s.power with cxlWidth := w, cxlRate := r, cxlUpper := w == 8 && upper } })

/-! ## Faults of Table 22-6 -/

/-- DIMM_BRANCH_SHORT (R557, R560): the branch opens until the next reset, the channel fails, and MEM_EVENT is posted. -/
def execDimmBranchShort (channel : Channel) (s : State) : Out :=
  .next (
    let c := channel.val
    if !(s.power.dimms || s.fw == .loading) || s.power.openDimms.contains c then s
    else
      let s := { s with power := { s.power with openDimms := s.power.openDimms ++ [c] } }
      let s := s.updMc (16 + c) (fun m => { m with run := .failed })
      let s := if (s.life 4 c).run = .on then s.updLife 4 c (fun x => { x with run := .off }) else s
      postEvent 0 Ev.memEvent (16 + c) (memEventDetail (16 + c) 2 0) s)

/-- A hardware fault of classes 0x21 and 0x22: of boot while FW is LOADING, and one that stops nothing afterwards (R558,
R559). -/
def lineFault (cls idx : Nat) (s : State) : State :=
  match s.fw with
  | .rom => s
  | .loading => failBoot ⟨cls, idx⟩ s
  | _ => postHw cls idx false 0 s

/-- MGMT_RAIL_SHORT (Table 22-6): the sideband and the debug port stop answering. -/
def execMgmtRailShort (s : State) : Out :=
  .next (
    if !s.power.mgmt || s.power.mgmtShort then s
    else lineFault 0x22 0 { s with power := { s.power with mgmtShort := true, sideband := false } })

/-- The rails with remote sense by the numbers of R558: quad domains, the spine domain, stacks, engines. -/
def State.hasRail (s : State) (r : Nat) : Bool :=
  if r < 128 then s.power.core && decide (r < s.quadCount)
  else if r < 144 then s.power.core && r == 128
  else if r < 160 then s.power.hbm
  else s.power.optics && decide (r < 172)

/-- REMOTE_SENSE_OPEN (R547): the regulator falls back to its local tap until the next power-on. -/
def execRemoteSenseOpen (rail : Fin 172) (s : State) : Out :=
  .next (
    let r := rail.val
    if !(s.hasRail r || s.fw == .loading) || s.power.localSense.contains r then s
    else lineFault 0x21 r { s with power := { s.power with localSense := s.power.localSense ++ [r] } })

/-! ## The sideband (R555, Table 19-4) -/

/-- The sideband answers. -/
def Power.answers (p : Power) : Bool := p.mgmt && p.sideband && !p.mgmtShort

/-- SMBUS_READ (R555): one register, or 4 to 12 bytes from offset 0. -/
def execSmbusRead (offset count : Nat) (s : State) : Out :=
  .next (
    let ok := s.power.answers && offset % 4 == 0 && decide (offset < 256) && decide (4 ≤ count)
      && decide (count ≤ if offset = 0 then 12 else 4)
    if ok then { s with busData := (blockBytes (bmcReg s) offset 12).take count, busNack := false }
    else { s with busData := [], busNack := true })

/-- SMBUS_WRITE (R555): answered with NACK. -/
def execSmbusWrite (_offset : Nat) (_data : List Byte) (s : State) : Out :=
  .next { s with busData := [], busNack := true }

end Sys2Proof.Machine
end

