-- ==== Sys2Proof/Machine/HostReg.lean ====
section
/-! DEFINITION. REGISTER_WRITE (spec/00 R9 to R12): writes to registers that have no row of their own, under their access
codes, as the host and as Ibex firmware see them. -/

namespace Sys2Proof.Machine

/-- A word of a larger number replaced. -/
def putWord (n off v : Nat) : Nat := setBits n (8 * off) 32 v

/-! ## The host's view (Table 16-1) -/

/-- Bytes written into a command buffer, which lists its non-zero bytes. -/
def putBuffer (b : Sparse Byte) : Nat → List Byte → Sparse Byte
  | _, [] => b
  | o, x :: r => putBuffer (if x = 0 then Sparse.del b o else Sparse.set b o x) (o + 1) r

/-- A write to mailbox `m`'s block: W1C flags, the ring's place and size while ENABLE is 0 (R433), the command buffer. The
doorbell, CR_HEAD and CR_CTRL have rows of their own. -/
def writeMailboxReg (m off : Nat) (v : Word) (s : State) : State :=
  let n := v.toNat
  if 0x1000 ≤ off ∧ off < 0x2000 then
    s.updMb m (fun x => { x with buffer := putBuffer x.buffer (off - 0x1000) (leBytes 4 n) })
  else
    match off with
    | 0x010 => s.updMb m (fun x => { x with ringErr := x.ringErr && !bit n 2, dbErr := x.dbErr && !bit n 1 })
    | 0x020 => s.updMb m (fun x => if x.enable then x else { x with crBase := putWord x.crBase 0 (n / 64 * 64) })
    | 0x024 => s.updMb m (fun x => if x.enable then x else { x with crBase := putWord x.crBase 4 (n % 2 ^ 19) })
    | 0x028 => s.updMb m (fun x => if x.enable then x else { x with crSize := n % 16 })
    | _ => s

/-! ## Ibex firmware's view -/

/-- Fields set by Ibex in a stopped tile's block (R93, R225, R274), and those that the tile can write too. -/
def writeTileIbex (t off : Nat) (v : Word) (s : State) : State :=
  let n := v.toNat
  let stopped (f : Tile → Tile) : State := if (s.tile t).run = .stopped then s.updTile t f else s
  match off with
  | 0x00C => stopped (fun T => { T with tahrMode := bit n 1 })
  | 0x020 => stopped (fun T => { T with regionBase := bits n 14 10 * 2 ^ 14 })
  | 0x024 => stopped (fun T => { T with regionSize := bits n 14 11 * 2 ^ 14 })
  | 0x028 => stopped (fun T => { T with codeBase := bits n 7 17 * 2 ^ 7 })
  | 0x02C => stopped (fun T => { T with codeSize := bits n 7 18 * 2 ^ 7 })
  | 0x030 => stopped (fun T => { T with ringBase := bits n 7 17 * 2 ^ 7 })
  | 0x034 => stopped (fun T => { T with ringSize := bits n 7 18 * 2 ^ 7 })
  | 0x870 => s
  | 0x900 => stopped (fun T => { T with vec := { T.vec with seedLo := v } })
  | 0x904 => stopped (fun T => { T with vec := { T.vec with seedHi := v } })
  | 0x944 => s
  | 0xA00 => stopped (fun T => { T with port := { T.port with job := n % 256 } })
  | _ => writeTileReg t off v s

/-- A word of a sync object written (Table 10-1, R9); the waits parked there stay parked (log 53). -/
def SyncObj.writeWord (o : SyncObj) (i n : Nat) : SyncObj :=
  match i with
  | 0 => { o.setValue (bits n 0 16) with target := bits n 16 16 }
  | 1 => { o.setValue o.value with
      gen := bits n 24 8, misuse := bit n 20, underflow := bit n 19, overflow := bit n 18
      mode := if bits n 16 2 = 3 then o.mode else bits n 16 2, early := bits n 0 14 }
  | 2 => { o with waiters := n % 65536 }
  | 3 => { o with srcKind := bits n 14 2, srcId := bits n 0 14 }
  | _ => o

/-- No tile of a partition runs: Ibex firmware may write its sync objects (R283). -/
def State.partQuiet (s : State) (p : Nat) : Bool := (s.partTiles p).all (fun t => (s.tile t).run != .running)
/-- A write to a sync object, while no tile of its partition runs (R283). -/
def writeSyncReg (o i : Nat) (v : Word) (s : State) : State :=
  if !s.partQuiet (s.partOfObj o) then s
  else s.setSync o ((s.sync o).writeWord i v.toNat)

/-- A write to stack `k`'s table: an entry's RW fields while it is FREE or OFF, LOCAL_NF and NF_READY at any time, which may
end its ring stage (R361), and COUNT_SAT (Tables 13-1, 13-2, 14-2). `hits` is what an access of an entry that becomes COMPLETE
meets; one that has to wait (R330) does so at a later tick. -/
def writeKuduReg (k off : Nat) (v : Word) (hits : List StackHit) (s : State) : State :=
  let n := v.toNat
  if off < 0x1000 then
    let e := entryKey k (off / 0x40)
    let s := s.updRed e (fun x =>
      let x := if x.state = .free then x.written (putWord x.word512 (off % 0x40) n) else x
      if off % 0x40 = 4 then { x with localNf := bit n 3, nfReady := bit n 2 } else x)
    if s.kuduWaits e then s else finishRing e hits s
  else if off < 0x3000 then
    let e := entryKey k ((off - 0x1000) / 0x80)
    s.updCom e (fun c => if c.state = .off then c.written (s.red e).bufGrans (putWord c.word1024 (off % 0x80) n) else c)
  else if off = 0x8000 then
    let q : Kudu := Sparse.get {} s.kudus k
    { s with kudus := Sparse.set s.kudus k { q with countSat := q.countSat && !bit n 8 } }
  else s

/-- A write to a memory controller's block (Table 12-12): COUNT_SAT alone can be written. -/
def writeMcReg (u off : Nat) (v : Word) (s : State) : State :=
  if off = 0 then s.updMc u (fun m => { m with countSat := m.countSat && !bit v.toNat 8 }) else s

/-- The link carries a job: one of the job's faces has it, and the job's links are bound (R422). -/
def State.carriesJob (s : State) (k : Nat) : Bool :=
  let J := s.job (s.jobOfLink k)
  J.bound && J.allLinks.contains k
/-- A write to a link's registers (Table 15-4): the landing and bind fields while the link carries no job, RX_STEP at any
time. A landing base off its multiple is ignored (R12), and so are its reserved bits (R34). -/
def writeLinkReg (k off : Nat) (v : Word) (s : State) : State :=
  let n := v.toNat
  let unbound (f : Link → Link) : State := if s.carriesJob k then s else s.updLink k f
  match off with
  | 0x10 => if n % 4096 = 0 then unbound (fun x => { x with landBase := putWord x.landBase 0 n }) else s
  | 0x14 => unbound (fun x => { x with landBase := addrField (putWord x.landBase 4 n) })
  | 0x18 => unbound (fun x => { x with landSize := n })
  | 0x1C => unbound (fun x => { x with landSync := v })
  | 0x20 =>
    let s := unbound (fun x => { x with syncEn := bit n 16 })
    setRxStep k (n % 65536) s
  | 0x24 => unbound (fun x => { x with bindTag := n % 65536 })
  | _ => s

/-- A write in the range of the herd objects, by its offset there: an absent herd has none (R282). -/
def writeHerdObj (o : Nat) (v : Word) (s : State) : State :=
  if s.herdCount ≤ o / 0x2000 then s else writeSyncReg (herdObj (o / 0x2000) (o % 0x2000 / 0x20)) (o % 0x20 / 4) v s

/-- A write by Ibex firmware at a device address of control space (Table 12-2), or to a link register, given as
link × 0x100 + offset above 2^56: DESIGN CHOICE (log 109), since R401 gives link registers no device address. -/
def writeIbex (addr : Nat) (v : Word) (hits : List StackHit) (s : State) : State :=
  let o := addr - ctrlBase
  if 2 ^ 56 ≤ addr then
    let k := (addr - 2 ^ 56) / 0x100
    if k < 96 then writeLinkReg k (addr % 0x100) v s else s
  else if addr < ctrlBase then s
  else if o < 0x4000000 then
    if o / 0x1000 < s.tileCount then writeTileIbex (o / 0x1000) (o % 0x1000) v s else s
  else if 0x10000000 ≤ o ∧ o < 0x11000000 then writeHerdObj (o - 0x10000000) v s
  else if 0x20000000 ≤ o ∧ o < 0x20008000 then writeSyncReg (devObj ((o - 0x20000000) / 0x20)) (o % 0x20 / 4) v s
  else if 0x30000000 ≤ o ∧ o < 0x30100000 then writeKuduReg ((o - 0x30000000) / 0x10000) (o % 0x10000) v hits s
  else if 0x40000000 ≤ o ∧ o < 0x40020000 then writeMcReg ((o - 0x40000000) / 0x1000) (o % 0x1000) v s
  else s

/-- A write by the host: mailbox blocks only (R426). -/
def writeHost (addr : Nat) (v : Word) (s : State) : State :=
  let o := addr - (ctrlBase + 0x80000000)
  if addr < ctrlBase + 0x80000000 ∨ 0x110000 ≤ o then s
  else writeMailboxReg (o / 0x10000) (o % 0x10000) v s

/-- REGISTER_WRITE (R9, R11, R12): a 32-bit write by the host, over a trained CXL port (R550), or by Ibex firmware.
Registers are 32 bits wide: an address that is not a multiple of 4 names none. -/
def execRegisterWrite (ibex : Bool) (addr : Nat) (v : Word) (hits : List StackHit) (s : State) : Out :=
  .next (
    if addr % 4 ≠ 0 ∨ !(if ibex then s.power.control else s.power.reaches) then s
    else if ibex then writeIbex addr v hits s else writeHost addr v s)

end Sys2Proof.Machine
end

