-- ==== Sys2Proof/Machine/LoadStore.lean ====
section
/-! DEFINITION. Loads and stores through the narrow port (spec/04 R107; checks R68, R75, R67; ECC R72). -/

namespace Sys2Proof.Machine

/-- A load of `n` bytes: the checks of R102, Tahr, the error-correcting code, then `f` takes the loaded number; RD may be
read 3 beats after the issue (Table 4-11). -/
def loadOp (t : Nat) (ra : Reg) (imm : BitVec 16) (n : Nat) (f : Nat → Tile → Tile) (s : State) : State :=
  issue t [ra] s (fun s =>
    let T := s.tile t
    let off := (effOff (T.reg ra) imm).toNat
    let e : Ext := ⟨off, n, n, false⟩
    match checkExts t T [e] with
    | some flt => faultIssue t 0 flt s
    | none => tahrGate t 0 [e] s (fun s =>
      match readCheck t off n s with
      | .error (flt, s) => faultIssue t 0 flt s
      | .ok s => retire t (1 + T.tahrBeats) s (f (s.herdNat t off n))))

/-- A store of a number's low `n` bytes: the checks of R102, Tahr, then the write. -/
def storeOp (t : Nat) (uses : List Reg) (ra : Reg) (imm : BitVec 16) (n : Nat) (v : Tile → Nat) (s : State) : State :=
  issue t (ra :: uses) s (fun s =>
    let T := s.tile t
    let off := (effOff (T.reg ra) imm).toNat
    let e : Ext := ⟨off, n, n, true⟩
    match checkExts t T [e] with
    | some flt => faultIssue t 0 flt s
    | none => tahrGate t 0 [e] s (fun s => retire t (1 + T.tahrBeats) (s.writeHerd t off n (v T)) id))

/-- LDP and STP name an even register (R107). -/
def evenReg (r : Reg) : Bool := r.val % 2 == 0

/-- LDB (R107). -/
def execLdb (t : Nat) (rd ra : Reg) (imm : BitVec 16) (s : State) : Out :=
  onTile t s (loadOp t ra imm 1 (fun v T => (T.setReg rd (loadExt true 1 v)).later rd 3))

/-- LDBU (R107). -/
def execLdbu (t : Nat) (rd ra : Reg) (imm : BitVec 16) (s : State) : Out :=
  onTile t s (loadOp t ra imm 1 (fun v T => (T.setReg rd (loadExt false 1 v)).later rd 3))

/-- LDH (R107). -/
def execLdh (t : Nat) (rd ra : Reg) (imm : BitVec 16) (s : State) : Out :=
  onTile t s (loadOp t ra imm 2 (fun v T => (T.setReg rd (loadExt true 2 v)).later rd 3))

/-- LDHU (R107). -/
def execLdhu (t : Nat) (rd ra : Reg) (imm : BitVec 16) (s : State) : Out :=
  onTile t s (loadOp t ra imm 2 (fun v T => (T.setReg rd (loadExt false 2 v)).later rd 3))

/-- LDW (R107). -/
def execLdw (t : Nat) (rd ra : Reg) (imm : BitVec 16) (s : State) : Out :=
  onTile t s (loadOp t ra imm 4 (fun v T => (T.setReg rd (loadExt false 4 v)).later rd 3))

/-- LDP: the lower address goes to RD, the upper to RD + 1; an odd RD is illegal (R107). -/
def execLdp (t : Nat) (rd ra : Reg) (imm : BitVec 16) (s : State) : Out :=
  onTile t s (if evenReg rd then
      loadOp t ra imm 8 (fun v T =>
        (((T.setReg rd (word (v % 2 ^ 32))).setReg (Reg.pair rd) (word (v / 2 ^ 32))).later rd 3).later (Reg.pair rd) 3)
    else fun s => issue t [] s (illegal t 0))

/-- STB: RD is the data register (R107). -/
def execStb (t : Nat) (rd ra : Reg) (imm : BitVec 16) (s : State) : Out :=
  onTile t s (storeOp t [rd] ra imm 1 (fun T => (T.reg rd).toNat))

/-- STH: RD is the data register (R107). -/
def execSth (t : Nat) (rd ra : Reg) (imm : BitVec 16) (s : State) : Out :=
  onTile t s (storeOp t [rd] ra imm 2 (fun T => (T.reg rd).toNat))

/-- STW: RD is the data register (R107). -/
def execStw (t : Nat) (rd ra : Reg) (imm : BitVec 16) (s : State) : Out :=
  onTile t s (storeOp t [rd] ra imm 4 (fun T => (T.reg rd).toNat))

/-- STP: RD to the lower address, RD + 1 to the upper; an odd RD is illegal (R107). -/
def execStp (t : Nat) (rd ra : Reg) (imm : BitVec 16) (s : State) : Out :=
  onTile t s (if evenReg rd then
      storeOp t [rd, Reg.pair rd] ra imm 8 (fun T => (T.reg rd).toNat + (T.reg (Reg.pair rd)).toNat * 2 ^ 32)
    else fun s => issue t [] s (illegal t 0))

end Sys2Proof.Machine
end

