-- ==== Sys2Proof/Machine/Matrix.lean ====
section
/-! DEFINITION. The matrix engine (spec/05) with the 2:4 path and predicted-column skip (spec/06): MXI at issue, the
arithmetic of an operation, emission into OUT or the finished-tile queue. -/

namespace Sys2Proof.Machine

/-- A matrix descriptor from its 512 bits (Table 5-3). -/
def MxDesc.ofNat (n : Nat) : MxDesc where
  fmtA := bits n 0 4
  fmtW := bits n 4 4
  dest := bit n 8
  init := bit n 9
  skip := bit n 10
  m := bits n 16 8
  kt := bits n 32 16
  tensor := bits n 48 16
  aBase := bits n 64 24
  aRowPitch := bits n 96 24
  aKtPitch := bits n 128 24
  asBase := bits n 160 24
  asKtPitch := bits n 192 24
  wBase := bits n 224 24
  wPitch := bits n 256 24
  cBase := bits n 288 24
  outBase := bits n 320 24
  outPitch := bits n 352 24
  colmask := bits n 384 24
  descale := bits n 416 32
  reservedOk := bits n 448 64 == 0 && bits n 408 8 == 0 && bits n 376 8 == 0 && bits n 344 8 == 0 && bits n 312 8 == 0
    && bits n 280 8 == 0 && bits n 248 8 == 0 && bits n 216 8 == 0 && bits n 184 8 == 0 && bits n 152 8 == 0
    && bits n 120 8 == 0 && bits n 88 8 == 0 && bits n 24 8 == 0 && bits n 11 5 == 0

/-- Bytes of a row slice (Table 5-1); an unlisted format counts as 8-bit (R144). -/
def mxSlice (fmt : Nat) : Nat := if fmt = 3 then 32 else 16
/-- Bytes of a dense record (Table 5-9). -/
def mxDense (fmt : Nat) : Nat := if fmt = 3 then 2176 else 1152
/-- Bytes of a 2:4 record (Table 6-1). -/
def mxSparse (fmt : Nat) : Nat := if fmt = 0 then 1792 else if fmt = 3 then 2432 else 1408
/-- K per k-tile (Table 5-1). -/
def mxK (fmt : Nat) : Nat := if fmt = 0 then 32 else 16

/-- The extents of Table 5-6: first byte and length, 0 where M or KT is 0 (R144). FMT_A decides whether the operation is of
the 4-bit class here (log 76). -/
def MxDesc.extents (d : MxDesc) : List (Nat × Nat × Bool) :=
  let some_ := d.m != 0 && d.kt != 0
  let ext (base len : Nat) (ok w : Bool) : Nat × Nat × Bool := (base, if ok then len else 0, w)
  let k := d.kt - 1
  let m := d.m - 1
  [ext d.aBase (k * d.aKtPitch + m * d.aRowPitch + mxSlice d.fmtA) some_ false]
    ++ (if d.fmtA = 0 then [ext d.asBase (k * d.asKtPitch + d.m) some_ false] else [])
    ++ [ext d.wBase (k * d.wPitch + mxDense d.fmtW) (d.kt != 0) false]
    ++ (if d.init then [ext d.cBase (m * d.outPitch + 256) (d.m != 0) false] else [])
    ++ (if d.dest then [] else [ext d.outBase (m * d.outPitch + 256) (d.m != 0) true])
    ++ (if d.skip then [ext d.colmask (8 * d.m / 16) (8 * d.m / 16 != 0) false] else [])

/-- Check 3 of Table 5-5: the base of the first array that is misaligned. DESIGN CHOICE (log 94): a misaligned pitch counts for
its array, whose base is recorded, where R146 names no access. -/
def MxDesc.crooked (d : MxDesc) : Option Nat :=
  let sl := mxSlice d.fmtA
  let bad (base pitch n : Nat) : Bool := base % n != 0 || pitch % n != 0
  if bad d.aBase d.aRowPitch sl || d.aKtPitch % sl != 0 then some d.aBase
  else if bad d.wBase d.wPitch 128 then some d.wBase
  else if d.init && bad d.cBase d.outPitch 128 then some d.cBase
  else if !d.dest && bad d.outBase d.outPitch 128 then some d.outBase
  else none

/-- The conditions of R145 and R175. -/
def MxDesc.fieldsOk (d : MxDesc) : Bool :=
  d.reservedOk
    && ((d.fmtA == 0 && d.fmtW == 0) || (d.fmtA == 3 && d.fmtW == 3)
      || ((d.fmtA == 1 || d.fmtA == 2) && (d.fmtW == 1 || d.fmtW == 2)))
    && decide (1 ≤ d.m ∧ d.m ≤ 128) && !(d.dest && d.m % 16 != 0) && d.kt != 0 && decide (mxDense d.fmtW ≤ d.wPitch)
    && !(decide (1 < d.m ∧ d.outPitch < 256) && (!d.dest || d.init))
    && !(d.skip && (d.m % 16 != 0 || d.init || decide (32 ≤ d.tensor) || d.colmask % 64 != 0))

/-- Checks 3 to 6 of Table 5-5. -/
def checkMx (t : Nat) (T : Tile) (d : MxDesc) : Option TileFault :=
  match d.crooked with
  | some a => some ⟨Code.misaligned, devAddr t a⟩
  | none =>
  match d.extents.find? (fun e => 0 < e.2.1 && !within e.1 e.2.1 T.regionBase T.regionSize) with
  | some e => some ⟨Code.regionBound, devAddr t e.1⟩
  | none =>
  match d.extents.find? (fun e => e.2.2 && overlaps e.1 e.2.1 T.codeBase T.codeSize) with
  | some e => some ⟨Code.codeWrite, devAddr t e.1⟩
  | none => if d.fieldsOk then none else some ⟨Code.mxField, 0⟩

/-- MXI (R119, R141, R144): the descriptor is read and checked at issue; the operation enters the matrix queue with the
slot's skip registers copied (R177). -/
def execMxi (t : Nat) (rd ra : Reg) (s : State) : Out :=
  onTile t s (fun s => issue t [ra] s (fun s =>
    let T := s.tile t
    if unitDepth 1 ≤ T.depth 1 then parkTile t (.full 1) s
    else
      let off := (T.reg ra).toNat
      match checkStruct t T off 64 64 with
      | some f => faultIssue t 1 f s
      | none =>
        match readCheck t off 64 s with
        | .error (f, s) => faultIssue t 1 f s
        | .ok s =>
          let d := MxDesc.ofNat (s.herdNat t off 64)
          match checkMx t T d with
          | some f => faultIssue t 1 f s
          | none =>
            let n := T.count 1 + 1
            let es := d.extents.map (fun e => (⟨e.1, e.2.1, 1, e.2.2⟩ : Ext))
            tahrReserve t 1 n [⟨off, 64, 1, false⟩] es s (fun s =>
              let k := (s.tile t).skip (if d.skip then d.tensor else 0)
              let op : MxOp := { num := n, pc := T.pc, desc := d, skipCtrl := k.ctrl, skipThresh := k.thresh.toNat,
                                 emitting := false, rest := [] }
              retire t (2 + T.tahrBeats) s (fun T => { (T.number 1).setReg rd (tokenOf 1 n) with mx := T.mx ++ [op] }))))

/-! ## The arithmetic (R149 to R152, R162 to R166) -/

/-- The path of a k-tile's record (Table 5-8). -/
inductive MxPath where
  | dense | pair | zero
  deriving DecidableEq, Repr

/-- The value of an 8-bit, bfloat16 or E2M1 code. -/
def mxVal (fmt code : Nat) : FVal := (streamFmt fmt).decode code

/-- An input element: row m, k-tile kt, element k of its row slice (R142). -/
def mxInput (t : Nat) (d : MxDesc) (s : State) (m kt k : Nat) : FVal :=
  let a := d.aBase + kt * d.aKtPitch + m * d.aRowPitch
  match d.fmtA with
  | 0 => mxVal 0 (bits (s.herdNat t (a + k / 2) 1) (k % 2 * 4) 4)
  | 3 => mxVal 3 (s.herdNat t (a + 2 * k) 2)
  | f => mxVal f (s.herdNat t (a + k) 1)

/-- A stored weight at a body offset of a record: element j of column n (Tables 5-9, 6-1). -/
def mxWeight (t : Nat) (d : MxDesc) (s : State) (body j n : Nat) : FVal :=
  match d.fmtW with
  | 0 => mxVal 0 (bits (s.herdNat t (body + 32 * j + n / 2) 1) (n % 2 * 4) 4)
  | 3 => mxVal 3 (s.herdNat t (body + 128 * j + 2 * n) 2)
  | f => mxVal f (s.herdNat t (body + 64 * j + n) 1)

/-- One group value rounded to binary32: the exact sum, scaled in the 4-bit class (R149). -/
def mxGroup (four : Bool) (ea ew : Nat) (prods : List FVal) : Nat :=
  let x := exactSum prods
  rne32 (if four then (x.mul (e8m0 ea)).mul (e8m0 ew) else x)

/-- Groups per row slice (Table 5-1). -/
def mxGroups (fmt : Nat) : Nat := if fmt = 0 then 2 else 1

/-- The additions of one record to the accumulator of (m, n), in order (R150, R166). -/
def mxAdd (t : Nat) (d : MxDesc) (s : State) (m n : Nat) (acc : Nat) (kt : Nat) (p : MxPath) : Nat :=
  let rec_ := d.wBase + kt * d.wPitch
  let four := d.fmtA == 0
  let ea (kt : Nat) : Nat := s.herdNat t (d.asBase + kt * d.asKtPitch + m) 1
  match p with
  | .zero => acc
  | .dense =>
    let ew := s.herdNat t (rec_ + 64 + n) 1
    (List.range (mxGroups d.fmtA)).foldl (fun acc g =>
      add32 acc (mxGroup four (if four then ea kt else 127) (if four then ew else 127) ((List.range 16).map (fun j =>
        (mxInput t d s m kt (16 * g + j)).mul (mxWeight t d s (rec_ + 128) (16 * g + j) n))))) acc
  | .pair =>
    let kk := mxK d.fmtW
    let mdBase := rec_ + (if four then 256 else 128)
    let body := rec_ + (if four then 768 else 384)
    let md := if four then s.herdNat t (mdBase + 8 * n) 8 else s.herdNat t (mdBase + 4 * n) 4
    let place := (List.range kk).map (fun j => (j, (quartetPos md j).getD 0))
    (List.range 2).foldl (fun acc h =>
      let ew := s.herdNat t (if h = 0 then rec_ + 64 + n else rec_ + 128 + n) 1
      (List.range (mxGroups d.fmtA)).foldl (fun acc g =>
        let mine := place.filter (fun e => e.2 / kk == h && e.2 % kk / 16 == g)
        add32 acc (mxGroup four (if four then ea (kt + h) else 127) (if four then ew else 127) (mine.map (fun e =>
          (mxInput t d s m (kt + h) (e.2 % kk)).mul (mxWeight t d s body e.1 n))))) acc) acc

/-- The accumulator of (m, n) after the last k-tile (R150). -/
def mxAcc (t : Nat) (d : MxDesc) (s : State) (paths : List (Nat × MxPath)) (m n : Nat) : Nat :=
  let c := if d.init then s.herdNat t (d.cBase + m * d.outPitch + 4 * n) 4 else 0
  paths.foldl (fun acc e => mxAdd t d s m n acc e.1 e.2) c

/-- The output value of (m, n) as an active element (R150). -/
def mxOut (t : Nat) (d : MxDesc) (s : State) (paths : List (Nat × MxPath)) (m n : Nat) : Nat :=
  mul32 (mxAcc t d s paths m n) d.descale

/-- The skip state of an operation: prediction on, the masks of its row groups, the sampled groups (R176 to R180). -/
structure MxSkip where
  on : Bool
  masks : List Nat
  sampled : List Bool
  deriving DecidableEq, Repr

def mxSkip (t : Nat) (o : MxOp) (s : State) : MxSkip :=
  let d := o.desc
  let on := d.skip && bit o.skipCtrl 0
  let n := d.m / 16
  let period := 2 ^ min (bits o.skipCtrl 1 4) 10
  { on := on
    masks := if on then (List.range n).map (fun g => s.herdNat t (d.colmask + 8 * g) 8) else []
    sampled := (List.range n).map (fun g => (o.num % 2 ^ 29 + g) % period == 0) }

/-- A row is streamed (R180). -/
def MxSkip.streams (k : MxSkip) (m : Nat) : Bool :=
  !k.on || k.masks.getD (m / 16) 0 != 0 || k.sampled.getD (m / 16) false

/-- The row slices and scale bytes of a k-tile's streamed rows, in the order in which they are read. DESIGN CHOICE (log 94): all
slices, then all scale bytes, where R153 gives no order. -/
def mxSlices (d : MxDesc) (k : MxSkip) (kt : Nat) : List (Nat × Nat) :=
  let rows := (List.range d.m).filter k.streams
  rows.map (fun m => (d.aBase + kt * d.aKtPitch + m * d.aRowPitch, mxSlice d.fmtA))
    ++ (if d.fmtA = 0 then rows.map (fun m => (d.asBase + kt * d.asKtPitch + m, 1)) else [])

/-- The 2:4 record at offset `a` holds a bad quartet (R163). -/
def mxBadMeta (t : Nat) (d : MxDesc) (s : State) (a : Nat) : Bool :=
  (List.range 64).any (fun n =>
    let md := if d.fmtW = 0 then s.herdNat t (a + 256 + 8 * n) 8 else s.herdNat t (a + 128 + 4 * n) 4
    (List.range (mxK d.fmtW / 2)).any (fun q => (quartetPos md (2 * q)).isNone))

/-- What the operation reads for one record on a path, after its header line: the rest of the record, its metadata
checked, and the slices of the k-tiles that it stands for. -/
def mxReadRecord (t : Nat) (d : MxDesc) (k : MxSkip) (kt : Nat) (p : MxPath) (s : State) : Checked :=
  let a := d.wBase + kt * d.wPitch
  match p with
  | .zero => .ok s
  | .dense => readChecks t ((a, mxDense d.fmtW) :: mxSlices d k kt) s
  | .pair =>
    match readCheck t a (mxSparse d.fmtW) s with
    | .error e => .error e
    | .ok s =>
      if mxBadMeta t d s a then .error (⟨Code.mxMeta, 0⟩, s)
      else readChecks t (mxSlices d k kt ++ mxSlices d k (kt + 1)) s

/-- The records that an operation reads from k-tile `kt` on, as (k-tile, path), or the first fault on the way: a header
byte (R147, R165), an uncorrectable word, metadata (R163). Where k-tile `kt` streams while the next record loads, what
k-tile `kt` reads comes first (log 76). -/
def mxPaths (t : Nat) (d : MxDesc) (k : MxSkip) :
    Nat → Nat → State → Except (TileFault × State) (List (Nat × MxPath) × State)
  | 0, _, s => .ok ([], s)
  | fuel + 1, kt, s =>
    if d.kt ≤ kt then .ok ([], s)
    else
      let a := d.wBase + kt * d.wPitch
      match readCheck t a 128 s with
      | .error f => .error f
      | .ok s =>
        let path := match s.herdNat t a 1 with
          | 0 => some MxPath.dense
          | 1 => if d.kt ≤ kt + 1 then none else some .pair
          | 2 => some .zero
          | _ => none
        match path with
        | none => .error (⟨Code.mxHeader, devAddr t a⟩, s)
        | some p =>
          match mxReadRecord t d k kt p s with
          | .error f => .error f
          | .ok s =>
            match mxPaths t d k fuel (if p = .pair then kt + 2 else kt + 1) s with
            | .error f => .error f
            | .ok (l, s) => .ok ((kt, p) :: l, s)

/-- Bits set below 64. -/
def popcount64 (w : Nat) : Nat := ((List.range 64).filter (fun i => bit w i)).length

/-! ## Beats (R161, R168) -/

/-- Lines of a record on a path: its header line, or the whole record. -/
def mxLines (d : MxDesc) (p : MxPath) : Nat :=
  match p with
  | .zero => 1
  | .dense => mxDense d.fmtW / 128
  | .pair => mxSparse d.fmtW / 128

/-- A(kt): the distinct lines that the row slices and scale bytes of a k-tile touch. -/
def mxSliceLines (d : MxDesc) (k : MxSkip) (kt : Nat) : Nat :=
  ((mxSlices d k kt).flatMap (fun e => (List.range (ceilDiv (e.1 % 128 + e.2) 128)).map (fun i => e.1 / 128 + i))).eraseDups.length

/-- M′, the streamed rows (R184): all M without skip. -/
def MxSkip.rows (k : MxSkip) (d : MxDesc) : Nat := (List.range d.m).countP k.streams

/-- Σ S(kt) over the records, each with the lines of the next (R161, R168, R184). -/
def mxStreams (d : MxDesc) (k : MxSkip) : List (Nat × MxPath) → Nat
  | [] => 0
  | (kt, p) :: r =>
    let next := match r with
      | [] => 0
      | e :: _ => mxLines d e.2
    let rows := max 1 ((if d.fmtA = 3 then 4 else 1) * k.rows d)
    (match p with
      | .zero => max 1 next
      | .dense => max rows (next + mxSliceLines d k kt)
      | .pair => max rows (next + mxSliceLines d k kt + mxSliceLines d k (kt + 1))) + mxStreams d k r

/-- T, the fewest beats from issue to completion (R161, R168, R184). -/
def mxLeast (d : MxDesc) (k : MxSkip) (paths : List (Nat × MxPath)) : Nat :=
  4 + ((paths.map (fun e => mxLines d e.2)).headD 0) + (if d.init then 2 * d.m else 0) + mxStreams d k paths + 6
    + (if d.dest then d.m else 2 * d.m)

/-- What an operation has formed when its emission begins: the outputs by row, the engine's buffers, the beats taken at
least. -/
structure MxResult where
  rows : List (List Word)
  store : MxStore
  beats : Nat
  /-- Cells of skipped columns of an unsampled streamed group did no multiplication (R180). -/
  idle : Bool
  deriving DecidableEq, Repr

/-- The bytes of the record of a k-tile that the engine loads. -/
def mxRecord (t : Nat) (d : MxDesc) (s : State) (e : Nat × MxPath) : List Byte :=
  s.herdBytes t (d.wBase + e.1 * d.wPitch) (128 * mxLines d e.2)

/-- The operation's outputs by row, and the skip slot's counters raised (R179 to R182); faults come first (R146). -/
def mxCompute (t : Nat) (o : MxOp) (s : State) : Except (TileFault × State) (MxResult × State) :=
  let d := o.desc
  let maskRead := if d.skip && bit o.skipCtrl 0 then [(d.colmask, 8 * (d.m / 16))] else []
  match readChecks t maskRead s with
  | .error f => .error f
  | .ok s =>
  let k := mxSkip t o s
  match readChecks t (if d.init then (List.range d.m).map (fun m => (d.cBase + m * d.outPitch, 256)) else []) s with
  | .error f => .error f
  | .ok s =>
  match mxPaths t d k (d.kt + 1) 0 s with
  | .error f => .error f
  | .ok (paths, s) =>
    let active (m n : Nat) : Bool := !k.on || bit (k.masks.getD (m / 16) 0) n
    let rows := (List.range d.m).map (fun m => (List.range 64).map (fun n =>
      if active m n then word (mxOut t d s paths m n) else 0))
    let groups := if k.on then List.range (d.m / 16) else []
    let skipped (g : Nat) : Nat := 64 - popcount64 (k.masks.getD g 0)
    let elems := groups.foldl (fun a g => a + 16 * skipped g) 0
    let samp := groups.filter (fun g => k.sampled.getD g false)
    let sampled := samp.foldl (fun a g => a + 16 * skipped g) 0
    let wouldBe (m n : Nat) : Bool :=
      let v := f32 (mxOut t d s paths m n)
      v == .nan || FVal.lt false (f32 o.skipThresh) v
    let miss := samp.foldl (fun a g => a + ((List.range 16).foldl (fun b r => b + ((List.range 64).filter (fun n =>
      !active (16 * g + r) n && wouldBe (16 * g + r) n)).length) 0)) 0
    let s := if k.on then s.updTile t (fun T =>
        let x := T.skip d.tensor
        T.setSkip d.tensor { x with elems := (x.elems + elems) % 2 ^ 64, sampled := (x.sampled + sampled) % 2 ^ 64,
                                    miss := (x.miss + miss) % 2 ^ 64 })
      else s
    let records := paths.map (mxRecord t d s)
    let store : MxStore := {
      weights := records.getLastD [], loading := records.dropLast.getLastD []
      acc := (List.range d.m).flatMap (fun m => (List.range 64).map (fun n => word (mxAcc t d s paths m n))) }
    let idle := groups.any (fun g => k.masks.getD g 0 != 0 && skipped g != 0 && !k.sampled.getD g false)
    .ok (⟨rows, store, mxLeast d k paths, idle⟩, s)

/-! ## Emission -/

/-- The oldest matrix operation ends: its token completes, and its buffers are empty (R154, R115, R140). -/
def mxPop (t least : Nat) (idle : Bool) (s : State) : State :=
  let fmt := ((s.tile t).mx.head?.map (·.desc.fmtA)).getD 0
  wake t (chargeMx t fmt least idle (s.updTile t (fun T => { T with mx := T.mx.drop 1, mxStore := {} })))

/-- The operation at the head of the queue. -/
def Tile.setMx (T : Tile) (o : MxOp) : Tile := { T with mx := o :: T.mx.drop 1 }

/-- Emission begins: the outputs are formed, and wait as lines for OUT or as entries for the finished-tile queue (R153,
R154, R157). -/
def mxBegin (t : Nat) (o : MxOp) (s : State) : Except (TileFault × State) (MxOp × State) :=
  if o.emitting then .ok (o, s)
  else
    match mxCompute t o s with
    | .error e => .error e
    | .ok (x, s) =>
      let o := { o with emitting := true, beats := x.beats, idle := x.idle, rest := chunks (if o.desc.dest then 1024 else 32) x.rows.flatten }
      .ok (o, s.updTile t (fun T => { T.setMx o with mxStore := x.store }))

/-- The first byte of the next line that an operation with DEST = 0 commits (R154). -/
def MxOp.lineAt (o : MxOp) : Nat :=
  let i := 2 * o.desc.m - o.rest.length
  o.desc.outBase + i / 2 * o.desc.outPitch + i % 2 * 128

/-- The bytes of a line. -/
def lineBytes (l : List Word) : List Byte := l.flatMap (fun w => leBytes 4 w.toNat)

/-- Commit the next `n` lines of an operation in emission (R154); answers the operation and the state. -/
def mxEmit (t : Nat) : Nat → MxOp → State → MxOp × State
  | 0, o, s => (o, s)
  | n + 1, o, s =>
    match o.rest with
    | [] => (o, s)
    | l :: r => mxEmit t n { o with rest := r } (s.writeMem (devAddr t o.lineAt) (lineBytes l))

/-- While time passes, the running operation of a tile commits some of its lines, and never its last (R154, R156; log 9).
One that would fault waits for its completion event. -/
def mxProgress (t : Nat) (s : State) : State :=
  match (s.tile t).mx with
  | [] => s
  | o :: _ =>
    let n := Config.emitLines s.free t
    if o.desc.dest || n = 0 || !(s.tile t).alive then s
    else
      match mxBegin t o s with
      | .error _ => s
      | .ok (o, s) =>
        let (o, s) := mxEmit t (min n (o.rest.length - 1)) o s
        s.updTile t (fun T => T.setMx o)

/-- FTQ_PUSH (R157 to R159): the operation reaches its emission, with any fault before its first push (R146), and pushes
its next entry where the queue has room. -/
def execFtqPush (t : Nat) (s : State) : Out :=
  onTile t s (fun s =>
    match (s.tile t).mx with
    | [] => s
    | o :: _ =>
      if !o.desc.dest then s
      else
        match mxBegin t o s with
        | .error (f, s) => faultTile t 1 f.code o.pc f.addr s
        | .ok (o, s) =>
          match o.rest with
          | [] => s
          | e :: r =>
            if 8 ≤ (s.tile t).ftq.entries.length then s
            else
              vecAdvance t (s.updTile t (fun T => { T.setMx { o with rest := r } with
                ftq := { T.ftq with entries := T.ftq.entries ++ [e] } })))

/-- MATRIX_OP_COMPLETE (R154): the operation reaches its emission, with any fault (R146). With DEST = 0 every line left is
committed; with DEST = 1 it completes once its last entry has been pushed. -/
def execMatrixOpComplete (t : Nat) (s : State) : Out :=
  onTile t s (fun s =>
    match (s.tile t).mx with
    | [] => s
    | o :: _ =>
      match mxBegin t o s with
      | .error (f, s) => faultTile t 1 f.code o.pc f.addr s
      | .ok (o, s) =>
        if o.desc.dest then (if o.rest.isEmpty then mxPop t o.beats o.idle s else s)
        else
          let (o, s) := mxEmit t o.rest.length o s
          mxPop t o.beats o.idle s)

end Sys2Proof.Machine
end

