-- ==== Sys2Proof/Machine/Recover.lean ====
section
/-! DEFINITION. COMMIT_RECOVER (spec/14 R386, R387, Table 14-5a). -/

namespace Sys2Proof.Machine

/-- What recovery found of a share. -/
inductive Recovery where
  | done | corrupt | unrecoverable
  deriving DecidableEq, Repr

/-- The step that a replay leaves in the recorded configuration of a share's reduction entry (R386). -/
def recordStep (k step : Nat) (s : State) : State :=
  s.updLife 5 (entryOf k) (fun x => { x with config := Sparse.set x.config 5 ((step + 1) % 2 ^ 32) })

/-- A replay of the commit of share `k` for ACC_STEP (R386): its accesses and writes, without the signal and the rearm. -/
def replay (k : Nat) (hits : List StackHit) (s : State) : Except (Nat × State) State :=
  match firmAccess k hits (commitReads s k) (commitWritten s k) s with
  | .error e => .error e
  | .ok s => .ok (recordStep k (Stat.accStep (s.status k)) (applyWrites (commitWrites s k) s))

/-- A share accepted and interrupted, its tags equal: replayed where the buffer and the request still hold the step. -/
def replayShare (k : Nat) (hits : List StackHit) (s : State) : Except (Nat × State) (State × Recovery) :=
  let t := s.status k
  if Stat.gradStep t = Stat.accStep t ∧ Req.step (s.request k) = Stat.accStep t then
    match replay k hits s with
    | .error e => .error e
    | .ok s => .ok (s, .done)
  else .ok (s, .unrecoverable)

/-- Table 14-5a for one share, whose shard record is read. -/
def recoverShare (k : Nat) (hits : List StackHit) (s : State) : Except (Nat × State) (State × Recovery) :=
  let a := (s.com k).recordAt (k / 64)
  match firmAccess k hits [a, a + 64] [] s with
  | .error e => .error e
  | .ok s =>
    let t := s.status k
    let same := Stat.accStep t == Stat.lastStep t
    if Stat.momTag t = Stat.wTag t then if same then .ok (s, .done) else replayShare k hits s
    else if Stat.momTag t = (Stat.wTag t + 1) % 2 ^ 32 ∧ !same then
      let w := statusWrite s k (setBits t 0 32 (Stat.wTag t))
      match firmAccess k hits [] [w.1] s with
      | .error e => .error e
      | .ok s => replayShare k hits (s.writeMem w.1 w.2)
    else .ok (s, .corrupt)

/-- Every share in turn; what was found of each. -/
def recoverShares (hits : List StackHit) : List Nat → State → Except (Nat × State) (State × List (Nat × Recovery))
  | [], s => .ok (s, [])
  | k :: ks, s =>
    match recoverShare k hits s with
    | .error e => .error e
    | .ok r =>
      match recoverShares hits ks r.1 with
      | .error e => .error e
      | .ok rest => .ok (rest.1, (k, r.2) :: rest.2)

/-- A share is completed with a sibling's request block: step F is accepted with the sibling's decision and its commit is
run (R387; the share's own request block is not written, log 50). -/
def completeShare (k sib f : Nat) (hits : List StackHit) (s : State) : Except (Nat × State) State :=
  let skip := Stat.accSkip (s.status sib)
  let w := statusWrite s k (setBits (setBits (s.status k) 128 32 f) 160 1 (if skip then 1 else 0))
  let s := s.writeMem w.1 w.2
  let asked := s.writeMem ((s.com k).recordAt (k / 64)) (leBytes 64 (s.request sib))
  match firmAccess k hits (commitReads s k) (w.1 :: commitWritten asked k) s with
  | .error e => .error e
  | .ok s => .ok (recordStep k f (applyWrites (commitWrites asked k) s))

/-- R387 for one entry at step F: its shares below F that can be completed, each with its sibling, and the flags of the result
word. A share accepted F where it stands at F, or has finished F and accepted a later step. One that R386 reports is not written
again; the sibling is one that stands at F, whose request block and decision are those of F (log 50). -/
def State.completions (s : State) (f : Nat) (found : List (Nat × Recovery)) (e : Nat) : List (Nat × Nat) × Nat :=
  let ks := sharesOf e
  let is (r : Recovery) (k : Nat) : Bool := found.contains (k, r)
  let late := ks.filter (fun k => newer 32 f (Stat.lastStep (s.status k)))
  let accepted (k : Nat) : Bool := Stat.accStep (s.status k) == f || Stat.lastStep (s.status k) == f
  let sibOf (k : Nat) : Option Nat := ks.find? (fun i => i != k && Stat.accStep (s.status i) == f)
  let fit (k : Nat) : Bool := !is .unrecoverable k && !is .corrupt k && Stat.gradStep (s.status k) == f
    && Stat.momTag (s.status k) == Stat.wTag (s.status k)
  let go := late.filterMap (fun k => if fit k then (sibOf k).map (fun i => (k, i)) else none)
  let lost := late.any (fun k => ks.any (fun i => i != k && accepted i) && !go.any (fun g => g.1 == k))
  (go, (if ks.any (is .corrupt) then 2 ^ 61 else 0)
    + (if ks.any (is .unrecoverable) || lost then 2 ^ 62 else 0)
    + (if ks.any accepted then 0 else 2 ^ 63))

/-- The completions of an entry. -/
def completeAll (f : Nat) (hits : List StackHit) : List (Nat × Nat) → State → Except (Nat × State) State
  | [], s => .ok s
  | (k, i) :: r, s =>
    match completeShare k i f hits s with
    | .error e => .error e
    | .ok s => completeAll f hits r s

/-- Every entry in turn, and the result words of those reported. -/
def completeEntries (f : Nat) (found : List (Nat × Recovery)) (hits : List StackHit) :
    List Nat → State → Except (Nat × State) (State × List Nat)
  | [], s => .ok (s, [])
  | e :: es, s =>
    let c := s.completions f found e
    match completeAll f hits c.1 s with
    | .error e => .error e
    | .ok s =>
      match completeEntries f found hits es s with
      | .error e => .error e
      | .ok rest => .ok (rest.1, (if c.2 = 0 then [] else [c.2 + e]) ++ rest.2)

/-- The largest LAST_STEP of a job's shares. -/
def State.lastOf (s : State) (j : Nat) : Nat :=
  ((s.comsKept j).foldl (fun m k =>
    let v := Stat.lastStep (s.status k)
    match m with
    | some w => some (if newer 32 v w then v else w)
    | none => some v) none).getD 0

/-- Recovery of a job's commit entries, and its result bytes (Table 16-8). -/
def recoverJob (j : Nat) (hits : List StackHit) (s : State) : Except (Nat × State) (State × List Byte) :=
  match recoverShares hits (s.comsKept j) s with
  | .error e => .error e
  | .ok r =>
    match completeEntries (r.1.lastOf j) r.2 hits (s.comEntriesKept j) r.1 with
    | .error e => .error e
    | .ok x => .ok (x.1, leBytes 8 x.2.length ++ x.2.flatMap (leBytes 8))

/-- COMMIT_RECOVER (R386, R387): `hits` is what the accesses meet; where one fails the command ends FAULTED (R328, R329;
log 100). -/
def execCommitRecover (m : MailboxId) (q : BitVec 16) (hits : List StackHit) (s : State) : Out :=
  .next (startCmd m.val q.toNat Op.commitRecover s (fun c s =>
    if c.resultLen < 8 + 8 * (s.comEntriesKept c.index).length then finish m.val q.toNat .rejectedArg 0xFFFF 0 [] s
    else noItems m.val q.toNat c (fun s =>
      match recoverJob c.index hits s with
      | .error e => finish m.val q.toNat .faulted 0xFFFF e.1 [] e.2
      | .ok r => finishOk m.val q.toNat [] (giveResult c r.2 r.1)) s))

end Sys2Proof.Machine
end

