-- ==== Sys2Proof/Machine/Dispatch.lean ====
section
/-! DEFINITION. One arm per command: the meaning each command has (the table of spec/opcode_table.json). -/

namespace Sys2Proof.Machine

def exec (i : Instr) (s : State) : Host.Outcome State Fault Refusal :=
  match i with
  | .add t rd ra rb => Sys2Proof.Machine.execAdd t rd ra rb s
  | .sub t rd ra rb => Sys2Proof.Machine.execSub t rd ra rb s
  | .and t rd ra rb => Sys2Proof.Machine.execAnd t rd ra rb s
  | .or t rd ra rb => Sys2Proof.Machine.execOr t rd ra rb s
  | .xor t rd ra rb => Sys2Proof.Machine.execXor t rd ra rb s
  | .shl t rd ra rb => Sys2Proof.Machine.execShl t rd ra rb s
  | .shr t rd ra rb => Sys2Proof.Machine.execShr t rd ra rb s
  | .shra t rd ra rb => Sys2Proof.Machine.execShra t rd ra rb s
  | .lts t rd ra rb => Sys2Proof.Machine.execLts t rd ra rb s
  | .ltu t rd ra rb => Sys2Proof.Machine.execLtu t rd ra rb s
  | .min t rd ra rb => Sys2Proof.Machine.execMin t rd ra rb s
  | .minu t rd ra rb => Sys2Proof.Machine.execMinu t rd ra rb s
  | .max t rd ra rb => Sys2Proof.Machine.execMax t rd ra rb s
  | .maxu t rd ra rb => Sys2Proof.Machine.execMaxu t rd ra rb s
  | .mul t rd ra rb => Sys2Proof.Machine.execMul t rd ra rb s
  | .mulhs t rd ra rb => Sys2Proof.Machine.execMulhs t rd ra rb s
  | .mulhu t rd ra rb => Sys2Proof.Machine.execMulhu t rd ra rb s
  | .divs t rd ra rb => Sys2Proof.Machine.execDivs t rd ra rb s
  | .divu t rd ra rb => Sys2Proof.Machine.execDivu t rd ra rb s
  | .rems t rd ra rb => Sys2Proof.Machine.execRems t rd ra rb s
  | .remu t rd ra rb => Sys2Proof.Machine.execRemu t rd ra rb s
  | .addi t rd ra imm => Sys2Proof.Machine.execAddi t rd ra imm s
  | .andi t rd ra imm => Sys2Proof.Machine.execAndi t rd ra imm s
  | .ori t rd ra imm => Sys2Proof.Machine.execOri t rd ra imm s
  | .xori t rd ra imm => Sys2Proof.Machine.execXori t rd ra imm s
  | .ltsi t rd ra imm => Sys2Proof.Machine.execLtsi t rd ra imm s
  | .ltui t rd ra imm => Sys2Proof.Machine.execLtui t rd ra imm s
  | .shli t rd ra imm => Sys2Proof.Machine.execShli t rd ra imm s
  | .shri t rd ra imm => Sys2Proof.Machine.execShri t rd ra imm s
  | .shrai t rd ra imm => Sys2Proof.Machine.execShrai t rd ra imm s
  | .ldhi t rd ra imm => Sys2Proof.Machine.execLdhi t rd ra imm s
  | .ldb t rd ra imm => Sys2Proof.Machine.execLdb t rd ra imm s
  | .ldbu t rd ra imm => Sys2Proof.Machine.execLdbu t rd ra imm s
  | .ldh t rd ra imm => Sys2Proof.Machine.execLdh t rd ra imm s
  | .ldhu t rd ra imm => Sys2Proof.Machine.execLdhu t rd ra imm s
  | .ldw t rd ra imm => Sys2Proof.Machine.execLdw t rd ra imm s
  | .ldp t rd ra imm => Sys2Proof.Machine.execLdp t rd ra imm s
  | .stb t rd ra imm => Sys2Proof.Machine.execStb t rd ra imm s
  | .sth t rd ra imm => Sys2Proof.Machine.execSth t rd ra imm s
  | .stw t rd ra imm => Sys2Proof.Machine.execStw t rd ra imm s
  | .stp t rd ra imm => Sys2Proof.Machine.execStp t rd ra imm s
  | .beq t ra rb disp => Sys2Proof.Machine.execBeq t ra rb disp s
  | .bne t ra rb disp => Sys2Proof.Machine.execBne t ra rb disp s
  | .blts t ra rb disp => Sys2Proof.Machine.execBlts t ra rb disp s
  | .bges t ra rb disp => Sys2Proof.Machine.execBges t ra rb disp s
  | .bltu t ra rb disp => Sys2Proof.Machine.execBltu t ra rb disp s
  | .bgeu t ra rb disp => Sys2Proof.Machine.execBgeu t ra rb disp s
  | .jmpl t rd disp => Sys2Proof.Machine.execJmpl t rd disp s
  | .jmpr t rd ra imm => Sys2Proof.Machine.execJmpr t rd ra imm s
  | .illegalInstruction t w => Sys2Proof.Machine.execIllegalInstruction t w s
  | .endProgram t => Sys2Proof.Machine.execEndProgram t s
  | .brk t => Sys2Proof.Machine.execBrk t s
  | .ctr t rd ra imm => Sys2Proof.Machine.execCtr t rd ra imm s
  | .crr t rd ra imm => Sys2Proof.Machine.execCrr t rd ra imm s
  | .crw t rd ra imm => Sys2Proof.Machine.execCrw t rd ra imm s
  | .hint t imm => Sys2Proof.Machine.execHint t imm s
  | .twait t ra => Sys2Proof.Machine.execTwait t ra s
  | .ttest t rd ra => Sys2Proof.Machine.execTtest t rd ra s
  | .tlast t rd ra => Sys2Proof.Machine.execTlast t rd ra s
  | .mxi t rd ra => Sys2Proof.Machine.execMxi t rd ra s
  | .matrixOpComplete t => Sys2Proof.Machine.execMatrixOpComplete t s
  | .ftqPush t => Sys2Proof.Machine.execFtqPush t s
  | .setvl t rd ra => Sys2Proof.Machine.execSetvl t rd ra s
  | .vstr t k ra => Sys2Proof.Machine.execVstr t k ra s
  | .vmov t dst sa sb sc p z => Sys2Proof.Machine.execVmov t dst sa sb sc p z s
  | .vadd t dst sa sb sc p z => Sys2Proof.Machine.execVadd t dst sa sb sc p z s
  | .vsub t dst sa sb sc p z => Sys2Proof.Machine.execVsub t dst sa sb sc p z s
  | .vmul t dst sa sb sc p z => Sys2Proof.Machine.execVmul t dst sa sb sc p z s
  | .vfma t dst sa sb sc p z => Sys2Proof.Machine.execVfma t dst sa sb sc p z s
  | .vmin t dst sa sb sc p z => Sys2Proof.Machine.execVmin t dst sa sb sc p z s
  | .vmax t dst sa sb sc p z => Sys2Proof.Machine.execVmax t dst sa sb sc p z s
  | .vabs t dst sa sb sc p z => Sys2Proof.Machine.execVabs t dst sa sb sc p z s
  | .vneg t dst sa sb sc p z => Sys2Proof.Machine.execVneg t dst sa sb sc p z s
  | .vdiv t dst sa sb sc p z => Sys2Proof.Machine.execVdiv t dst sa sb sc p z s
  | .vsqrt t dst sa sb sc p z => Sys2Proof.Machine.execVsqrt t dst sa sb sc p z s
  | .vrelu t dst sa sb sc p z => Sys2Proof.Machine.execVrelu t dst sa sb sc p z s
  | .vclamp t dst sa sb sc p z => Sys2Proof.Machine.execVclamp t dst sa sb sc p z s
  | .vexp t dst sa sb sc p z => Sys2Proof.Machine.execVexp t dst sa sb sc p z s
  | .vexp2 t dst sa sb sc p z => Sys2Proof.Machine.execVexp2 t dst sa sb sc p z s
  | .vlog t dst sa sb sc p z => Sys2Proof.Machine.execVlog t dst sa sb sc p z s
  | .vrcp t dst sa sb sc p z => Sys2Proof.Machine.execVrcp t dst sa sb sc p z s
  | .vrsqrt t dst sa sb sc p z => Sys2Proof.Machine.execVrsqrt t dst sa sb sc p z s
  | .vtanh t dst sa sb sc p z => Sys2Proof.Machine.execVtanh t dst sa sb sc p z s
  | .vsigm t dst sa sb sc p z => Sys2Proof.Machine.execVsigm t dst sa sb sc p z s
  | .vgelu t dst sa sb sc p z => Sys2Proof.Machine.execVgelu t dst sa sb sc p z s
  | .vsilu t dst sa sb sc p z => Sys2Proof.Machine.execVsilu t dst sa sb sc p z s
  | .vcmpgt t dst sa sb sc p z => Sys2Proof.Machine.execVcmpgt t dst sa sb sc p z s
  | .vcmpge t dst sa sb sc p z => Sys2Proof.Machine.execVcmpge t dst sa sb sc p z s
  | .vcmpeq t dst sa sb sc p z => Sys2Proof.Machine.execVcmpeq t dst sa sb sc p z s
  | .vcmpne t dst sa sb sc p z => Sys2Proof.Machine.execVcmpne t dst sa sb sc p z s
  | .vsel t dst sa sb sc p z => Sys2Proof.Machine.execVsel t dst sa sb sc p z s
  | .vsum64 t dst sa sb sc p z => Sys2Proof.Machine.execVsum64 t dst sa sb sc p z s
  | .vsum64a t dst sa sb sc p z => Sys2Proof.Machine.execVsum64a t dst sa sb sc p z s
  | .vssq64 t dst sa sb sc p z => Sys2Proof.Machine.execVssq64 t dst sa sb sc p z s
  | .vssq64a t dst sa sb sc p z => Sys2Proof.Machine.execVssq64a t dst sa sb sc p z s
  | .vdot64 t dst sa sb sc p z => Sys2Proof.Machine.execVdot64 t dst sa sb sc p z s
  | .vdot64a t dst sa sb sc p z => Sys2Proof.Machine.execVdot64a t dst sa sb sc p z s
  | .vmaxr t dst sa sb sc p z => Sys2Proof.Machine.execVmaxr t dst sa sb sc p z s
  | .vsegr t dst sa sb sc p z => Sys2Proof.Machine.execVsegr t dst sa sb sc p z s
  | .vsel24 t dst sa sb sc p z => Sys2Proof.Machine.execVsel24 t dst sa sb sc p z s
  | .vsel24q t dst sa sb sc p z => Sys2Proof.Machine.execVsel24q t dst sa sb sc p z s
  | .vectorOpComplete t => Sys2Proof.Machine.execVectorOpComplete t s
  | .fill t rd ra rb rc => Sys2Proof.Machine.execFill t rd ra rb rc s
  | .copy t rd ra rb rc => Sys2Proof.Machine.execCopy t rd ra rb rc s
  | .blockOpComplete t => Sys2Proof.Machine.execBlockOpComplete t s
  | .move t rd ra => Sys2Proof.Machine.execMove t rd ra s
  | .moverTransferComplete t num => Sys2Proof.Machine.execMoverTransferComplete t num s
  | .memBlockReadAnswer t num n crcOk => Sys2Proof.Machine.execMemBlockReadAnswer t num n crcOk s
  | .memBlockRequest t num n found => Sys2Proof.Machine.execMemBlockRequest t num n found s
  | .hbmRefresh stack => Sys2Proof.Machine.execHbmRefresh stack s
  | .ddrRefresh channel hot => Sys2Proof.Machine.execDdrRefresh channel hot s
  | .patrolScrub u passEnd found addr => Sys2Proof.Machine.execPatrolScrub u passEnd found addr s
  | .hostWindowResponse t num n error data => Sys2Proof.Machine.execHostWindowResponse t num n error data s
  | .cxlCompletionTimeout t num n => Sys2Proof.Machine.execCxlCompletionTimeout t num n s
  | .cxlmemHostAccess off write data found => Sys2Proof.Machine.execCxlmemHostAccess off write data found s
  | .wopen t w => Sys2Proof.Machine.execWopen t w s
  | .wclose t w => Sys2Proof.Machine.execWclose t w s
  | .windowDrainEnd t => Sys2Proof.Machine.execWindowDrainEnd t s
  | .put t rd ra rb => Sys2Proof.Machine.execPut t rd ra rb s
  | .remoteWriteCheck id => Sys2Proof.Machine.execRemoteWriteCheck id s
  | .remoteWriteCommit id ok => Sys2Proof.Machine.execRemoteWriteCommit id ok s
  | .sumContribution id ok => Sys2Proof.Machine.execSumContribution id ok s
  | .send t rd ra rb rc => Sys2Proof.Machine.execSend t rd ra rb rc s
  | .reservationRequest id ok => Sys2Proof.Machine.execReservationRequest id ok s
  | .portAnswer id ok => Sys2Proof.Machine.execPortAnswer id ok s
  | .retryTimer id => Sys2Proof.Machine.execRetryTimer id s
  | .messagePacketArrival id ok => Sys2Proof.Machine.execMessagePacketArrival id ok s
  | .packetResend id => Sys2Proof.Machine.execPacketResend id s
  | .deliveryCommit id => Sys2Proof.Machine.execDeliveryCommit id s
  | .withdrawal id ok => Sys2Proof.Machine.execWithdrawal id ok s
  | .hset t ra rb => Sys2Proof.Machine.execHset t ra rb s
  | .rqhead t rd => Sys2Proof.Machine.execRqhead t rd s
  | .rqpop t => Sys2Proof.Machine.execRqpop t s
  | .port t ra => Sys2Proof.Machine.execPort t ra s
  | .sig t ra rb => Sys2Proof.Machine.execSig t ra rb s
  | .arrive t rd ra => Sys2Proof.Machine.execArrive t rd ra s
  | .swait t ra rb => Sys2Proof.Machine.execSwait t ra rb s
  | .sread t rd ra loss => Sys2Proof.Machine.execSread t rd ra loss s
  | .sconf t ra rb => Sys2Proof.Machine.execSconf t ra rb s
  | .syncSignal id ok => Sys2Proof.Machine.execSyncSignal id ok s
  | .arriveAtObject id ok => Sys2Proof.Machine.execArriveAtObject id ok s
  | .arriveAnswer id ok => Sys2Proof.Machine.execArriveAnswer id ok s
  | .syncWaitAtObject id ok => Sys2Proof.Machine.execSyncWaitAtObject id ok s
  | .syncWaitResume t ok => Sys2Proof.Machine.execSyncWaitResume t ok s
  | .tileRunStart t => Sys2Proof.Machine.execTileRunStart t s
  | .tileRunStop t => Sys2Proof.Machine.execTileRunStop t s
  | .beatLoRead t => Sys2Proof.Machine.execBeatLoRead t s
  | .skipCountLoRead t slot which => Sys2Proof.Machine.execSkipCountLoRead t slot which s
  | .vecCountLoRead t sat => Sys2Proof.Machine.execVecCountLoRead t sat s
  | .ftqClr t => Sys2Proof.Machine.execFtqClr t s
  | .lossPost t step => Sys2Proof.Machine.execLossPost t step s
  | .kuAcceptLoRead stack => Sys2Proof.Machine.execKuAcceptLoRead stack s
  | .lkTxLoRead link => Sys2Proof.Machine.execLkTxLoRead link s
  | .ueSrcRead u => Sys2Proof.Machine.execUeSrcRead u s
  | .registerWrite ibex addr v hits => Sys2Proof.Machine.execRegisterWrite ibex addr v hits s
  | .contributionBlock t num n crcOk hits => Sys2Proof.Machine.execContributionBlock t num n crcOk hits s
  | .poolWaitEnd stack e clocks hits => Sys2Proof.Machine.execPoolWaitEnd stack e clocks hits s
  | .ringPacket stack link tag step seg hop gather nf data hits => Sys2Proof.Machine.execRingPacket stack link tag step seg hop gather nf data hits s
  | .nfReadyWrite j hits => Sys2Proof.Machine.execNfReadyWrite j hits s
  | .kuduClosingEnd stack e => Sys2Proof.Machine.execKuduClosingEnd stack e s
  | .commitRequest stack e hits => Sys2Proof.Machine.execCommitRequest stack e hits s
  | .commitRequestResume stack e hits => Sys2Proof.Machine.execCommitRequestResume stack e hits s
  | .commitEnd stack e hits => Sys2Proof.Machine.execCommitEnd stack e hits s
  | .digestReceived link stack e step cnt value => Sys2Proof.Machine.execDigestReceived link stack e step cnt value s
  | .linkBlockArrival link header payload code parity => Sys2Proof.Machine.execLinkBlockArrival link header payload code parity s
  | .linkRetrain link lockLost => Sys2Proof.Machine.execLinkRetrain link lockLost s
  | .retrainEnd link => Sys2Proof.Machine.execRetrainEnd link s
  | .linkFailTimeout link => Sys2Proof.Machine.execLinkFailTimeout link s
  | .orientationStep link => Sys2Proof.Machine.execOrientationStep link s
  | .linkUp link serial farLink farFace => Sys2Proof.Machine.execLinkUp link serial farLink farFace s
  | .linkWriteArrival link addr pitch rows rowBytes => Sys2Proof.Machine.execLinkWriteArrival link addr pitch rows rowBytes s
  | .endToEndAnswer link ok => Sys2Proof.Machine.execEndToEndAnswer link ok s
  | .landingSignal link => Sys2Proof.Machine.execLandingSignal link s
  | .linkStepAdvance j => Sys2Proof.Machine.execLinkStepAdvance j s
  | .jobAbortReceived link origin step => Sys2Proof.Machine.execJobAbortReceived link origin step s
  | .sweepHop link kind step hop value => Sys2Proof.Machine.execSweepHop link kind step hop value s
  | .concordExchange link x y z serial digests => Sys2Proof.Machine.execConcordExchange link x y z serial digests s
  | .concordTimeout j => Sys2Proof.Machine.execConcordTimeout j s
  | .lightLoss link light => Sys2Proof.Machine.execLightLoss link light s
  | .laserFault slot shorted => Sys2Proof.Machine.execLaserFault slot shorted s
  | .laserInsert slot => Sys2Proof.Machine.execLaserInsert slot s
  | .releaseReport j => Sys2Proof.Machine.execReleaseReport j s
  | .railSettled domain => Sys2Proof.Machine.execRailSettled domain s
  | .droop domain => Sys2Proof.Machine.execDroop domain s
  | .undervoltage domain mv => Sys2Proof.Machine.execUndervoltage domain mv s
  | .handshakeStall unit us parts => Sys2Proof.Machine.execHandshakeStall unit us parts s
  | .faultFlag p => Sys2Proof.Machine.execFaultFlag p s
  | .haltFlag p => Sys2Proof.Machine.execHaltFlag p s
  | .nonfinFlag p => Sys2Proof.Machine.execNonfinFlag p s
  | .quiesceRequest h => Sys2Proof.Machine.execQuiesceRequest h s
  | .quiesceAnswer h => Sys2Proof.Machine.execQuiesceAnswer h s
  | .teardownQuiesceTimeout j => Sys2Proof.Machine.execTeardownQuiesceTimeout j s
  | .teardownEnd j => Sys2Proof.Machine.execTeardownEnd j s
  | .switchOutDrainEnd p => Sys2Proof.Machine.execSwitchOutDrainEnd p s
  | .switchAbandon p => Sys2Proof.Machine.execSwitchAbandon p s
  | .switchInEnd p => Sys2Proof.Machine.execSwitchInEnd p s
  | .chamoisSample other temps hbmTemps slacks => Sys2Proof.Machine.execChamoisSample other temps hbmTemps slacks s
  | .energyWindow measured => Sys2Proof.Machine.execEnergyWindow measured s
  | .wearRecord interrupted => Sys2Proof.Machine.execWearRecord interrupted s
  | .hardThermalTrip sensor reading => Sys2Proof.Machine.execHardThermalTrip sensor reading s
  | .periodBoundary finding => Sys2Proof.Machine.execPeriodBoundary finding s
  | .checkpointCopyEnd j die e hits => Sys2Proof.Machine.execCheckpointCopyEnd j die e hits s
  | .mbDoorbell m seq => Sys2Proof.Machine.execMbDoorbell m seq s
  | .commandTake m => Sys2Proof.Machine.execCommandTake m s
  | .crEnableWrite m on => Sys2Proof.Machine.execCrEnableWrite m on s
  | .crHeadWrite m head => Sys2Proof.Machine.execCrHeadWrite m head s
  | .heldRecordWrite m failed => Sys2Proof.Machine.execHeldRecordWrite m failed s
  | .identity m q => Sys2Proof.Machine.execIdentity m q s
  | .moduleConfig m q => Sys2Proof.Machine.execModuleConfig m q s
  | .readBlock m q => Sys2Proof.Machine.execReadBlock m q s
  | .syncRead m q => Sys2Proof.Machine.execSyncRead m q s
  | .countersRead m q => Sys2Proof.Machine.execCountersRead m q s
  | .accountRead m q => Sys2Proof.Machine.execAccountRead m q s
  | .tileDebugHalt m q => Sys2Proof.Machine.execTileDebugHalt m q s
  | .tileDebugResume m q => Sys2Proof.Machine.execTileDebugResume m q s
  | .linkStatus m q => Sys2Proof.Machine.execLinkStatus m q s
  | .enable m q => Sys2Proof.Machine.execEnable m q s
  | .disable m q => Sys2Proof.Machine.execDisable m q s
  | .lifecycleStartupEnd kind idx ok hits => Sys2Proof.Machine.execLifecycleStartupEnd kind idx ok hits s
  | .lifecycleShutdownEnd kind idx => Sys2Proof.Machine.execLifecycleShutdownEnd kind idx s
  | .jobLoad m q image => Sys2Proof.Machine.execJobLoad m q image s
  | .jobStart m q => Sys2Proof.Machine.execJobStart m q s
  | .jobAbort m q => Sys2Proof.Machine.execJobAbort m q s
  | .jobUnload m q => Sys2Proof.Machine.execJobUnload m q s
  | .redRearm m q hits => Sys2Proof.Machine.execRedRearm m q hits s
  | .commitConfig m q => Sys2Proof.Machine.execCommitConfig m q s
  | .commitRecover m q hits => Sys2Proof.Machine.execCommitRecover m q hits s
  | .cxlmemSet m q => Sys2Proof.Machine.execCxlmemSet m q s
  | .cxlmemHandover m q => Sys2Proof.Machine.execCxlmemHandover m q s
  | .healthConfig m q => Sys2Proof.Machine.execHealthConfig m q s
  | .checkpointTake m q => Sys2Proof.Machine.execCheckpointTake m q s
  | .checkpointRollback m q buddy hits => Sys2Proof.Machine.execCheckpointRollback m q buddy hits s
  | .attest m q flashOk => Sys2Proof.Machine.execAttest m q flashOk s
  | .romStatus m q => Sys2Proof.Machine.execRomStatus m q s
  | .fwLoad m q image cut => Sys2Proof.Machine.execFwLoad m q image cut s
  | .bootEnd dimms fault => Sys2Proof.Machine.execBootEnd dimms fault s
  | .modReset refclk => Sys2Proof.Machine.execModReset refclk s
  | .cxlTrain width rate upper => Sys2Proof.Machine.execCxlTrain width rate upper s
  | .dimmBranchShort channel => Sys2Proof.Machine.execDimmBranchShort channel s
  | .remoteSenseOpen rail => Sys2Proof.Machine.execRemoteSenseOpen rail s
  | .smbusRead offset count => Sys2Proof.Machine.execSmbusRead offset count s
  | .smbusWrite offset data => Sys2Proof.Machine.execSmbusWrite offset data s
  | .trainingPatternReceived link => Sys2Proof.Machine.execTrainingPatternReceived link s
  | .buddySlotRequest link step hits => Sys2Proof.Machine.execBuddySlotRequest link step hits s
  | .marginDailyLower => Sys2Proof.Machine.execMarginDailyLower s
  | .powerOn => Sys2Proof.Machine.execPowerOn s
  | .inputUndervoltageOff => Sys2Proof.Machine.execInputUndervoltageOff s
  | .inputOvervoltageOff => Sys2Proof.Machine.execInputOvervoltageOff s
  | .inputReversed => Sys2Proof.Machine.execInputReversed s
  | .cxlHotReset => Sys2Proof.Machine.execCxlHotReset s
  | .mgmtRailShort => Sys2Proof.Machine.execMgmtRailShort s

end Sys2Proof.Machine
end

