-- ==== Sys2Proof/Machine/Tick.lean ====
section
/-! DEFINITION. What happens while no command waits: time passes (spec/02 R52; log 6). -/

namespace Sys2Proof.Machine

/-- A tile's beat counter goes on while it is RUNNING or PARKED (R52, log 7). -/
def Tile.idle (T : Tile) (n : Nat) : Tile :=
  if T.run = .running ∨ T.run = .parked then T.pass n else T

/-- An idle block goes out where the replay buffer has room: as any block it takes the next SEQ, acknowledges, and returns
credits of one lane (Table 15-1, R397). -/
def Link.idleBlock (x : Link) : Link := if x.replay.length < 256 then x.transmit { lane := 3 } else x
/-- A link that is UP sends up to `n` idle blocks while it has nothing else to send (spec/15 section 15.2; log 57). -/
def Link.idleBlocks (x : Link) (n : Nat) : Link := if x.run = .up then Nat.repeat Link.idleBlock (min n 256) x else x

/-- Idle blocks of a link, which count for no job (R488, R492). -/
def linkIdles (k n : Nat) (s : State) : State :=
  let x := (s.link k).idleBlocks n
  let sent := (x.tx + 2 ^ 64 - (s.link k).tx) % 2 ^ 64
  if sent = 0 then s else (s.setLink k x).noteLink 0 sent

/-- What an entry's Kudu takes up at a tick: a ring stage whose end waited, and ring packets that waited for their memory. -/
def redWakes (k : Nat) (hits : List StackHit) (s : State) : State :=
  if s.kuduWaits k then s else finishRing k hits (serveRing k (s.red k).ringHeld hits s)

/-- One tick: a free stretch of time passes, with it a free number of beats on each tile's idle loop, matrix operations in
emission commit some of their lines, link data and ring packets that waited for their memory are taken (R330), an entry whose last
access waited for its memory becomes COMPLETE, a verdict that waited for a retrain is settled (R405), links send idle blocks, and
commands that their checks refuse end in their turn (log 6, 7, 9, 57, 100). -/
def tick (s : State) : State :=
  let n := s.free
  let s := passTime (Config.tickNs n) s
  let s := s.tiles.foldl (fun s e => mxProgress e.1 s) s
  let s := s.links.foldl (fun s e => drainLink e.1 e.2.delivered.length s) s
  let s := s.reds.foldl (fun s e => redWakes e.1 (Config.tickHits n e.1) s) s
  let s := s.jobs.foldl (fun s e => settleVerdict e.1 s) s
  let s := s.links.foldl (fun s e => linkRuns e.1 (linkIdles e.1 (Config.idleBlocks n e.1) s)) s
  let s := endAllRefused s
  { s with tiles := Sparse.mapVals (fun t T => T.idle (Config.idleBeats n t)) s.tiles, free := s.free + 1 }

end Sys2Proof.Machine
end

