-- ==== Sys2Proof/Machine/TileCode.lean ====
section
/-! DEFINITION. The words of the tile instructions (spec/04 R99, R100, Tables 4-1, 4-2 and 4-4; spec/07 Table 7-3): the
word of an instruction command, the command that a word spells for a tile, and the field rules that a word must meet
beside. A command of the model carries its instruction's fields (log 8); these functions say which word that is. -/

namespace Sys2Proof.Machine

/-- A word of format Reg (Table 4-1). -/
def regWord (op rd ra rb fn : Nat) : Nat := op * 2 ^ 26 + rd * 2 ^ 21 + ra * 2 ^ 16 + rb * 2 ^ 11 + fn
/-- A word of format Tri (Table 4-1). -/
def triWord (op rd ra rb rc fn : Nat) : Nat := op * 2 ^ 26 + rd * 2 ^ 21 + ra * 2 ^ 16 + rb * 2 ^ 11 + rc * 2 ^ 6 + fn
/-- A word of format Imm, or of format Br with RA and RB in the two register places (Table 4-1). -/
def immWord (op rd ra imm : Nat) : Nat := op * 2 ^ 26 + rd * 2 ^ 21 + ra * 2 ^ 16 + imm
/-- A word of format Jmp (Table 4-1). -/
def jmpWord (op rd disp : Nat) : Nat := op * 2 ^ 26 + rd * 2 ^ 21 + disp
/-- A word of format Vec, OP 0x31 (Table 4-1). -/
def vecWord (vop : Nat) (dst sa sb sc : BitVec 4) (p z : Bool) : Nat :=
  0x31 * 2 ^ 26 + vop * 2 ^ 18 + dst.toNat * 2 ^ 14 + sa.toNat * 2 ^ 10 + sb.toNat * 2 ^ 6 + sc.toNat * 2 ^ 2
    + p.toNat * 2 + z.toNat

/-- The register that a 5-bit field names. -/
def regNo (n : Nat) : Reg := ⟨n % 32, Nat.mod_lt n (by decide)⟩

/-- The instruction word of a command that a tile issues (Tables 4-2, 4-4, 7-3); none for every other command. -/
def tileCode : Instr → Option Nat
  | .add _ rd ra rb => some (regWord 0x01 rd.val ra.val rb.val 0x00)
  | .sub _ rd ra rb => some (regWord 0x01 rd.val ra.val rb.val 0x01)
  | .and _ rd ra rb => some (regWord 0x01 rd.val ra.val rb.val 0x02)
  | .or _ rd ra rb => some (regWord 0x01 rd.val ra.val rb.val 0x03)
  | .xor _ rd ra rb => some (regWord 0x01 rd.val ra.val rb.val 0x04)
  | .shl _ rd ra rb => some (regWord 0x01 rd.val ra.val rb.val 0x08)
  | .shr _ rd ra rb => some (regWord 0x01 rd.val ra.val rb.val 0x09)
  | .shra _ rd ra rb => some (regWord 0x01 rd.val ra.val rb.val 0x0A)
  | .lts _ rd ra rb => some (regWord 0x01 rd.val ra.val rb.val 0x10)
  | .ltu _ rd ra rb => some (regWord 0x01 rd.val ra.val rb.val 0x11)
  | .min _ rd ra rb => some (regWord 0x01 rd.val ra.val rb.val 0x18)
  | .minu _ rd ra rb => some (regWord 0x01 rd.val ra.val rb.val 0x19)
  | .max _ rd ra rb => some (regWord 0x01 rd.val ra.val rb.val 0x1A)
  | .maxu _ rd ra rb => some (regWord 0x01 rd.val ra.val rb.val 0x1B)
  | .mul _ rd ra rb => some (regWord 0x01 rd.val ra.val rb.val 0x20)
  | .mulhs _ rd ra rb => some (regWord 0x01 rd.val ra.val rb.val 0x21)
  | .mulhu _ rd ra rb => some (regWord 0x01 rd.val ra.val rb.val 0x22)
  | .divs _ rd ra rb => some (regWord 0x01 rd.val ra.val rb.val 0x28)
  | .divu _ rd ra rb => some (regWord 0x01 rd.val ra.val rb.val 0x29)
  | .rems _ rd ra rb => some (regWord 0x01 rd.val ra.val rb.val 0x2A)
  | .remu _ rd ra rb => some (regWord 0x01 rd.val ra.val rb.val 0x2B)
  | .addi _ rd ra imm => some (immWord 0x02 rd.val ra.val imm.toNat)
  | .andi _ rd ra imm => some (immWord 0x03 rd.val ra.val imm.toNat)
  | .ori _ rd ra imm => some (immWord 0x04 rd.val ra.val imm.toNat)
  | .xori _ rd ra imm => some (immWord 0x05 rd.val ra.val imm.toNat)
  | .ltsi _ rd ra imm => some (immWord 0x06 rd.val ra.val imm.toNat)
  | .ltui _ rd ra imm => some (immWord 0x07 rd.val ra.val imm.toNat)
  | .shli _ rd ra imm => some (immWord 0x08 rd.val ra.val imm.toNat)
  | .shri _ rd ra imm => some (immWord 0x09 rd.val ra.val imm.toNat)
  | .shrai _ rd ra imm => some (immWord 0x0A rd.val ra.val imm.toNat)
  | .ldhi _ rd ra imm => some (immWord 0x0B rd.val ra.val imm.toNat)
  | .ldb _ rd ra imm => some (immWord 0x10 rd.val ra.val imm.toNat)
  | .ldbu _ rd ra imm => some (immWord 0x11 rd.val ra.val imm.toNat)
  | .ldh _ rd ra imm => some (immWord 0x12 rd.val ra.val imm.toNat)
  | .ldhu _ rd ra imm => some (immWord 0x13 rd.val ra.val imm.toNat)
  | .ldw _ rd ra imm => some (immWord 0x14 rd.val ra.val imm.toNat)
  | .ldp _ rd ra imm => some (immWord 0x15 rd.val ra.val imm.toNat)
  | .stb _ rd ra imm => some (immWord 0x18 rd.val ra.val imm.toNat)
  | .sth _ rd ra imm => some (immWord 0x19 rd.val ra.val imm.toNat)
  | .stw _ rd ra imm => some (immWord 0x1A rd.val ra.val imm.toNat)
  | .stp _ rd ra imm => some (immWord 0x1B rd.val ra.val imm.toNat)
  | .jmpr _ rd ra imm => some (immWord 0x27 rd.val ra.val imm.toNat)
  | .ctr _ rd ra imm => some (immWord 0x29 rd.val ra.val imm.toNat)
  | .crr _ rd ra imm => some (immWord 0x2A rd.val ra.val imm.toNat)
  | .crw _ rd ra imm => some (immWord 0x2B rd.val ra.val imm.toNat)
  | .beq _ ra rb disp => some (immWord 0x20 ra.val rb.val disp.toNat)
  | .bne _ ra rb disp => some (immWord 0x21 ra.val rb.val disp.toNat)
  | .blts _ ra rb disp => some (immWord 0x22 ra.val rb.val disp.toNat)
  | .bges _ ra rb disp => some (immWord 0x23 ra.val rb.val disp.toNat)
  | .bltu _ ra rb disp => some (immWord 0x24 ra.val rb.val disp.toNat)
  | .bgeu _ ra rb disp => some (immWord 0x25 ra.val rb.val disp.toNat)
  | .jmpl _ rd disp => some (jmpWord 0x26 rd.val disp.toNat)
  | .endProgram _ => some (regWord 0x28 0 0 0 1)
  | .brk _ => some (regWord 0x28 0 0 0 2)
  | .hint _ imm => some (immWord 0x2C 0 0 imm.toNat)
  | .mxi _ rd ra => some (regWord 0x30 rd.val ra.val 0 0)
  | .setvl _ rd ra => some (regWord 0x32 rd.val ra.val 0 0)
  | .vstr _ k ra => some (regWord 0x32 0 ra.val 0 (0x10 + k.val))
  | .fill _ rd ra rb rc => some (triWord 0x33 rd.val ra.val rb.val rc.val 0)
  | .copy _ rd ra rb rc => some (triWord 0x34 rd.val ra.val rb.val rc.val 0)
  | .move _ rd ra => some (regWord 0x35 rd.val ra.val 0 0)
  | .twait _ ra => some (regWord 0x36 0 ra.val 0 0)
  | .ttest _ rd ra => some (regWord 0x36 rd.val ra.val 0 1)
  | .tlast _ rd ra => some (regWord 0x36 rd.val ra.val 0 2)
  | .wopen _ k => some (immWord 0x37 0 0 k.val)
  | .wclose _ k => some (immWord 0x38 0 0 k.val)
  | .put _ rd ra rb => some (regWord 0x39 rd.val ra.val rb.val 0)
  | .send _ rd ra rb rc => some (triWord 0x3A rd.val ra.val rb.val rc.val 0)
  | .hset _ ra rb => some (triWord 0x3A 0 ra.val rb.val 0 1)
  | .rqhead _ rd => some (triWord 0x3A rd.val 0 0 0 2)
  | .rqpop _ => some (triWord 0x3A 0 0 0 0 3)
  | .port _ ra => some (triWord 0x3A 0 ra.val 0 0 4)
  | .sig _ ra rb => some (regWord 0x3B 0 ra.val rb.val 0)
  | .arrive _ rd ra => some (regWord 0x3B rd.val ra.val 0 1)
  | .swait _ ra rb => some (regWord 0x3B 0 ra.val rb.val 2)
  | .sread _ rd ra .arrives => some (regWord 0x3B rd.val ra.val 0 3)
  | .sread _ _ _ .request => none
  | .sread _ _ _ .answer => none
  | .sconf _ ra rb => some (regWord 0x3B 0 ra.val rb.val 4)
  | .vmov _ dst sa sb sc p z => some (vecWord 0x01 dst sa sb sc p z)
  | .vadd _ dst sa sb sc p z => some (vecWord 0x02 dst sa sb sc p z)
  | .vsub _ dst sa sb sc p z => some (vecWord 0x03 dst sa sb sc p z)
  | .vmul _ dst sa sb sc p z => some (vecWord 0x04 dst sa sb sc p z)
  | .vfma _ dst sa sb sc p z => some (vecWord 0x05 dst sa sb sc p z)
  | .vmin _ dst sa sb sc p z => some (vecWord 0x06 dst sa sb sc p z)
  | .vmax _ dst sa sb sc p z => some (vecWord 0x07 dst sa sb sc p z)
  | .vabs _ dst sa sb sc p z => some (vecWord 0x08 dst sa sb sc p z)
  | .vneg _ dst sa sb sc p z => some (vecWord 0x09 dst sa sb sc p z)
  | .vdiv _ dst sa sb sc p z => some (vecWord 0x0A dst sa sb sc p z)
  | .vsqrt _ dst sa sb sc p z => some (vecWord 0x0B dst sa sb sc p z)
  | .vrelu _ dst sa sb sc p z => some (vecWord 0x0C dst sa sb sc p z)
  | .vclamp _ dst sa sb sc p z => some (vecWord 0x0D dst sa sb sc p z)
  | .vexp _ dst sa sb sc p z => some (vecWord 0x10 dst sa sb sc p z)
  | .vexp2 _ dst sa sb sc p z => some (vecWord 0x11 dst sa sb sc p z)
  | .vlog _ dst sa sb sc p z => some (vecWord 0x12 dst sa sb sc p z)
  | .vrcp _ dst sa sb sc p z => some (vecWord 0x13 dst sa sb sc p z)
  | .vrsqrt _ dst sa sb sc p z => some (vecWord 0x14 dst sa sb sc p z)
  | .vtanh _ dst sa sb sc p z => some (vecWord 0x15 dst sa sb sc p z)
  | .vsigm _ dst sa sb sc p z => some (vecWord 0x16 dst sa sb sc p z)
  | .vgelu _ dst sa sb sc p z => some (vecWord 0x17 dst sa sb sc p z)
  | .vsilu _ dst sa sb sc p z => some (vecWord 0x18 dst sa sb sc p z)
  | .vcmpgt _ dst sa sb sc p z => some (vecWord 0x20 dst sa sb sc p z)
  | .vcmpge _ dst sa sb sc p z => some (vecWord 0x21 dst sa sb sc p z)
  | .vcmpeq _ dst sa sb sc p z => some (vecWord 0x22 dst sa sb sc p z)
  | .vcmpne _ dst sa sb sc p z => some (vecWord 0x23 dst sa sb sc p z)
  | .vsel _ dst sa sb sc p z => some (vecWord 0x24 dst sa sb sc p z)
  | .vsum64 _ dst sa sb sc p z => some (vecWord 0x30 dst sa sb sc p z)
  | .vsum64a _ dst sa sb sc p z => some (vecWord 0x31 dst sa sb sc p z)
  | .vssq64 _ dst sa sb sc p z => some (vecWord 0x32 dst sa sb sc p z)
  | .vssq64a _ dst sa sb sc p z => some (vecWord 0x33 dst sa sb sc p z)
  | .vdot64 _ dst sa sb sc p z => some (vecWord 0x34 dst sa sb sc p z)
  | .vdot64a _ dst sa sb sc p z => some (vecWord 0x35 dst sa sb sc p z)
  | .vmaxr _ dst sa sb sc p z => some (vecWord 0x38 dst sa sb sc p z)
  | .vsegr _ dst sa sb sc p z => some (vecWord 0x3C dst sa sb sc p z)
  | .vsel24 _ dst sa sb sc p z => some (vecWord 0x40 dst sa sb sc p z)
  | .vsel24q _ dst sa sb sc p z => some (vecWord 0x41 dst sa sb sc p z)
  | .illegalInstruction _ _ => none
  | .matrixOpComplete _ => none
  | .ftqPush _ => none
  | .vectorOpComplete _ => none
  | .blockOpComplete _ => none
  | .tileRunStart _ => none
  | .tileRunStop _ => none
  | .windowDrainEnd _ => none
  | .remoteWriteCheck _ => none
  | .remoteWriteCommit _ _ => none
  | .sumContribution _ _ => none
  | .reservationRequest _ _ => none
  | .portAnswer _ _ => none
  | .retryTimer _ => none
  | .messagePacketArrival _ _ => none
  | .packetResend _ => none
  | .deliveryCommit _ => none
  | .withdrawal _ _ => none
  | .syncSignal _ _ => none
  | .arriveAtObject _ _ => none
  | .arriveAnswer _ _ => none
  | .syncWaitAtObject _ _ => none
  | .syncWaitResume _ _ => none
  | .beatLoRead _ => none
  | .skipCountLoRead _ _ _ => none
  | .vecCountLoRead _ _ => none
  | .ftqClr _ => none
  | .lossPost _ _ => none
  | .hbmRefresh _ => none
  | .ddrRefresh _ _ => none
  | .patrolScrub _ _ _ _ => none
  | .cxlmemHostAccess _ _ _ _ => none
  | .ueSrcRead _ => none
  | .moverTransferComplete _ _ => none
  | .memBlockReadAnswer _ _ _ _ => none
  | .memBlockRequest _ _ _ _ => none
  | .hostWindowResponse _ _ _ _ _ => none
  | .cxlCompletionTimeout _ _ _ => none
  | .contributionBlock _ _ _ _ _ => none
  | .poolWaitEnd _ _ _ _ => none
  | .ringPacket _ _ _ _ _ _ _ _ _ _ => none
  | .nfReadyWrite _ _ => none
  | .kuAcceptLoRead _ => none
  | .commitEnd _ _ _ => none
  | .digestReceived _ _ _ _ _ _ => none
  | .linkBlockArrival _ _ _ _ _ => none
  | .linkRetrain _ _ => none
  | .retrainEnd _ => none
  | .linkFailTimeout _ => none
  | .orientationStep _ => none
  | .linkUp _ _ _ _ => none
  | .linkWriteArrival _ _ _ _ _ => none
  | .landingSignal _ => none
  | .linkStepAdvance _ => none
  | .jobAbortReceived _ _ _ => none
  | .lightLoss _ _ => none
  | .laserFault _ _ => none
  | .laserInsert _ => none
  | .trainingPatternReceived _ => none
  | .lkTxLoRead _ => none
  | .checkpointCopyEnd _ _ _ _ => none
  | .commitRequest _ _ _ => none
  | .commitRequestResume _ _ _ => none
  | .endToEndAnswer _ _ => none
  | .buddySlotRequest _ _ _ => none
  | .droop _ => none
  | .undervoltage _ _ => none
  | .handshakeStall _ _ _ => none
  | .railSettled _ => none
  | .marginDailyLower => none
  | .wearRecord _ => none
  | .chamoisSample _ _ _ _ => none
  | .energyWindow _ => none
  | .releaseReport _ => none
  | .hardThermalTrip _ _ => none
  | .teardownQuiesceTimeout _ => none
  | .teardownEnd _ => none
  | .faultFlag _ => none
  | .haltFlag _ => none
  | .nonfinFlag _ => none
  | .quiesceRequest _ => none
  | .quiesceAnswer _ => none
  | .switchOutDrainEnd _ => none
  | .switchAbandon _ => none
  | .switchInEnd _ => none
  | .periodBoundary _ => none
  | .mbDoorbell _ _ => none
  | .commandTake _ => none
  | .crEnableWrite _ _ => none
  | .crHeadWrite _ _ => none
  | .heldRecordWrite _ _ => none
  | .identity _ _ => none
  | .moduleConfig _ _ => none
  | .readBlock _ _ => none
  | .syncRead _ _ => none
  | .countersRead _ _ => none
  | .accountRead _ _ => none
  | .linkStatus _ _ => none
  | .tileDebugHalt _ _ => none
  | .tileDebugResume _ _ => none
  | .registerWrite _ _ _ _ => none
  | .kuduClosingEnd _ _ => none
  | .sweepHop _ _ _ _ _ => none
  | .concordExchange _ _ _ _ _ _ => none
  | .concordTimeout _ => none
  | .enable _ _ => none
  | .disable _ _ => none
  | .lifecycleStartupEnd _ _ _ _ => none
  | .lifecycleShutdownEnd _ _ => none
  | .jobLoad _ _ _ => none
  | .jobStart _ _ => none
  | .jobAbort _ _ => none
  | .jobUnload _ _ => none
  | .redRearm _ _ _ => none
  | .commitConfig _ _ => none
  | .commitRecover _ _ _ => none
  | .cxlmemSet _ _ => none
  | .cxlmemHandover _ _ => none
  | .healthConfig _ _ => none
  | .checkpointTake _ _ => none
  | .checkpointRollback _ _ _ _ => none
  | .attest _ _ _ => none
  | .romStatus _ _ => none
  | .fwLoad _ _ _ _ => none
  | .bootEnd _ _ => none
  | .powerOn => none
  | .inputUndervoltageOff => none
  | .inputOvervoltageOff => none
  | .inputReversed => none
  | .modReset _ => none
  | .cxlHotReset => none
  | .cxlTrain _ _ _ => none
  | .dimmBranchShort _ => none
  | .mgmtRailShort => none
  | .remoteSenseOpen _ => none
  | .smbusRead _ _ => none
  | .smbusWrite _ _ => none

/-- The tile that issues an instruction command; none for a command that is no instruction of Table 4-2. -/
def issuerOf : Instr → Option Nat
  | .add t _ _ _ => some t
  | .sub t _ _ _ => some t
  | .and t _ _ _ => some t
  | .or t _ _ _ => some t
  | .xor t _ _ _ => some t
  | .shl t _ _ _ => some t
  | .shr t _ _ _ => some t
  | .shra t _ _ _ => some t
  | .lts t _ _ _ => some t
  | .ltu t _ _ _ => some t
  | .min t _ _ _ => some t
  | .minu t _ _ _ => some t
  | .max t _ _ _ => some t
  | .maxu t _ _ _ => some t
  | .mul t _ _ _ => some t
  | .mulhs t _ _ _ => some t
  | .mulhu t _ _ _ => some t
  | .divs t _ _ _ => some t
  | .divu t _ _ _ => some t
  | .rems t _ _ _ => some t
  | .remu t _ _ _ => some t
  | .addi t _ _ _ => some t
  | .andi t _ _ _ => some t
  | .ori t _ _ _ => some t
  | .xori t _ _ _ => some t
  | .ltsi t _ _ _ => some t
  | .ltui t _ _ _ => some t
  | .shli t _ _ _ => some t
  | .shri t _ _ _ => some t
  | .shrai t _ _ _ => some t
  | .ldhi t _ _ _ => some t
  | .ldb t _ _ _ => some t
  | .ldbu t _ _ _ => some t
  | .ldh t _ _ _ => some t
  | .ldhu t _ _ _ => some t
  | .ldw t _ _ _ => some t
  | .ldp t _ _ _ => some t
  | .stb t _ _ _ => some t
  | .sth t _ _ _ => some t
  | .stw t _ _ _ => some t
  | .stp t _ _ _ => some t
  | .jmpr t _ _ _ => some t
  | .ctr t _ _ _ => some t
  | .crr t _ _ _ => some t
  | .crw t _ _ _ => some t
  | .beq t _ _ _ => some t
  | .bne t _ _ _ => some t
  | .blts t _ _ _ => some t
  | .bges t _ _ _ => some t
  | .bltu t _ _ _ => some t
  | .bgeu t _ _ _ => some t
  | .jmpl t _ _ => some t
  | .endProgram t => some t
  | .brk t => some t
  | .hint t _ => some t
  | .mxi t _ _ => some t
  | .setvl t _ _ => some t
  | .vstr t _ _ => some t
  | .fill t _ _ _ _ => some t
  | .copy t _ _ _ _ => some t
  | .move t _ _ => some t
  | .twait t _ => some t
  | .ttest t _ _ => some t
  | .tlast t _ _ => some t
  | .wopen t _ => some t
  | .wclose t _ => some t
  | .put t _ _ _ => some t
  | .send t _ _ _ _ => some t
  | .hset t _ _ => some t
  | .rqhead t _ => some t
  | .rqpop t => some t
  | .port t _ => some t
  | .sig t _ _ => some t
  | .arrive t _ _ => some t
  | .swait t _ _ => some t
  | .sread t _ _ _ => some t
  | .sconf t _ _ => some t
  | .vmov t _ _ _ _ _ _ => some t
  | .vadd t _ _ _ _ _ _ => some t
  | .vsub t _ _ _ _ _ _ => some t
  | .vmul t _ _ _ _ _ _ => some t
  | .vfma t _ _ _ _ _ _ => some t
  | .vmin t _ _ _ _ _ _ => some t
  | .vmax t _ _ _ _ _ _ => some t
  | .vabs t _ _ _ _ _ _ => some t
  | .vneg t _ _ _ _ _ _ => some t
  | .vdiv t _ _ _ _ _ _ => some t
  | .vsqrt t _ _ _ _ _ _ => some t
  | .vrelu t _ _ _ _ _ _ => some t
  | .vclamp t _ _ _ _ _ _ => some t
  | .vexp t _ _ _ _ _ _ => some t
  | .vexp2 t _ _ _ _ _ _ => some t
  | .vlog t _ _ _ _ _ _ => some t
  | .vrcp t _ _ _ _ _ _ => some t
  | .vrsqrt t _ _ _ _ _ _ => some t
  | .vtanh t _ _ _ _ _ _ => some t
  | .vsigm t _ _ _ _ _ _ => some t
  | .vgelu t _ _ _ _ _ _ => some t
  | .vsilu t _ _ _ _ _ _ => some t
  | .vcmpgt t _ _ _ _ _ _ => some t
  | .vcmpge t _ _ _ _ _ _ => some t
  | .vcmpeq t _ _ _ _ _ _ => some t
  | .vcmpne t _ _ _ _ _ _ => some t
  | .vsel t _ _ _ _ _ _ => some t
  | .vsum64 t _ _ _ _ _ _ => some t
  | .vsum64a t _ _ _ _ _ _ => some t
  | .vssq64 t _ _ _ _ _ _ => some t
  | .vssq64a t _ _ _ _ _ _ => some t
  | .vdot64 t _ _ _ _ _ _ => some t
  | .vdot64a t _ _ _ _ _ _ => some t
  | .vmaxr t _ _ _ _ _ _ => some t
  | .vsegr t _ _ _ _ _ _ => some t
  | .vsel24 t _ _ _ _ _ _ => some t
  | .vsel24q t _ _ _ _ _ _ => some t
  | .illegalInstruction _ _ => none
  | .matrixOpComplete _ => none
  | .ftqPush _ => none
  | .vectorOpComplete _ => none
  | .blockOpComplete _ => none
  | .tileRunStart _ => none
  | .tileRunStop _ => none
  | .windowDrainEnd _ => none
  | .remoteWriteCheck _ => none
  | .remoteWriteCommit _ _ => none
  | .sumContribution _ _ => none
  | .reservationRequest _ _ => none
  | .portAnswer _ _ => none
  | .retryTimer _ => none
  | .messagePacketArrival _ _ => none
  | .packetResend _ => none
  | .deliveryCommit _ => none
  | .withdrawal _ _ => none
  | .syncSignal _ _ => none
  | .arriveAtObject _ _ => none
  | .arriveAnswer _ _ => none
  | .syncWaitAtObject _ _ => none
  | .syncWaitResume _ _ => none
  | .beatLoRead _ => none
  | .skipCountLoRead _ _ _ => none
  | .vecCountLoRead _ _ => none
  | .ftqClr _ => none
  | .lossPost _ _ => none
  | .hbmRefresh _ => none
  | .ddrRefresh _ _ => none
  | .patrolScrub _ _ _ _ => none
  | .cxlmemHostAccess _ _ _ _ => none
  | .ueSrcRead _ => none
  | .moverTransferComplete _ _ => none
  | .memBlockReadAnswer _ _ _ _ => none
  | .memBlockRequest _ _ _ _ => none
  | .hostWindowResponse _ _ _ _ _ => none
  | .cxlCompletionTimeout _ _ _ => none
  | .contributionBlock _ _ _ _ _ => none
  | .poolWaitEnd _ _ _ _ => none
  | .ringPacket _ _ _ _ _ _ _ _ _ _ => none
  | .nfReadyWrite _ _ => none
  | .kuAcceptLoRead _ => none
  | .commitEnd _ _ _ => none
  | .digestReceived _ _ _ _ _ _ => none
  | .linkBlockArrival _ _ _ _ _ => none
  | .linkRetrain _ _ => none
  | .retrainEnd _ => none
  | .linkFailTimeout _ => none
  | .orientationStep _ => none
  | .linkUp _ _ _ _ => none
  | .linkWriteArrival _ _ _ _ _ => none
  | .landingSignal _ => none
  | .linkStepAdvance _ => none
  | .jobAbortReceived _ _ _ => none
  | .lightLoss _ _ => none
  | .laserFault _ _ => none
  | .laserInsert _ => none
  | .trainingPatternReceived _ => none
  | .lkTxLoRead _ => none
  | .checkpointCopyEnd _ _ _ _ => none
  | .commitRequest _ _ _ => none
  | .commitRequestResume _ _ _ => none
  | .endToEndAnswer _ _ => none
  | .buddySlotRequest _ _ _ => none
  | .droop _ => none
  | .undervoltage _ _ => none
  | .handshakeStall _ _ _ => none
  | .railSettled _ => none
  | .marginDailyLower => none
  | .wearRecord _ => none
  | .chamoisSample _ _ _ _ => none
  | .energyWindow _ => none
  | .releaseReport _ => none
  | .hardThermalTrip _ _ => none
  | .teardownQuiesceTimeout _ => none
  | .teardownEnd _ => none
  | .faultFlag _ => none
  | .haltFlag _ => none
  | .nonfinFlag _ => none
  | .quiesceRequest _ => none
  | .quiesceAnswer _ => none
  | .switchOutDrainEnd _ => none
  | .switchAbandon _ => none
  | .switchInEnd _ => none
  | .periodBoundary _ => none
  | .mbDoorbell _ _ => none
  | .commandTake _ => none
  | .crEnableWrite _ _ => none
  | .crHeadWrite _ _ => none
  | .heldRecordWrite _ _ => none
  | .identity _ _ => none
  | .moduleConfig _ _ => none
  | .readBlock _ _ => none
  | .syncRead _ _ => none
  | .countersRead _ _ => none
  | .accountRead _ _ => none
  | .linkStatus _ _ => none
  | .tileDebugHalt _ _ => none
  | .tileDebugResume _ _ => none
  | .registerWrite _ _ _ _ => none
  | .kuduClosingEnd _ _ => none
  | .sweepHop _ _ _ _ _ => none
  | .concordExchange _ _ _ _ _ _ => none
  | .concordTimeout _ => none
  | .enable _ _ => none
  | .disable _ _ => none
  | .lifecycleStartupEnd _ _ _ _ => none
  | .lifecycleShutdownEnd _ _ => none
  | .jobLoad _ _ _ => none
  | .jobStart _ _ => none
  | .jobAbort _ _ => none
  | .jobUnload _ _ => none
  | .redRearm _ _ _ => none
  | .commitConfig _ _ => none
  | .commitRecover _ _ _ => none
  | .cxlmemSet _ _ => none
  | .cxlmemHandover _ _ => none
  | .healthConfig _ _ => none
  | .checkpointTake _ _ => none
  | .checkpointRollback _ _ _ _ => none
  | .attest _ _ _ => none
  | .romStatus _ _ => none
  | .fwLoad _ _ _ _ => none
  | .bootEnd _ _ => none
  | .powerOn => none
  | .inputUndervoltageOff => none
  | .inputOvervoltageOff => none
  | .inputReversed => none
  | .modReset _ => none
  | .cxlHotReset => none
  | .cxlTrain _ _ _ => none
  | .dimmBranchShort _ => none
  | .mgmtRailShort => none
  | .remoteSenseOpen _ => none
  | .smbusRead _ _ => none
  | .smbusWrite _ _ => none

/-- The vector instruction of a VOP value (Table 7-3). -/
def vopInstr (t : Nat) (v : Nat) (dst sa sb sc : BitVec 4) (p z : Bool) : Option Instr :=
  match v with
  | 0x01 => some (.vmov t dst sa sb sc p z)
  | 0x02 => some (.vadd t dst sa sb sc p z)
  | 0x03 => some (.vsub t dst sa sb sc p z)
  | 0x04 => some (.vmul t dst sa sb sc p z)
  | 0x05 => some (.vfma t dst sa sb sc p z)
  | 0x06 => some (.vmin t dst sa sb sc p z)
  | 0x07 => some (.vmax t dst sa sb sc p z)
  | 0x08 => some (.vabs t dst sa sb sc p z)
  | 0x09 => some (.vneg t dst sa sb sc p z)
  | 0x0A => some (.vdiv t dst sa sb sc p z)
  | 0x0B => some (.vsqrt t dst sa sb sc p z)
  | 0x0C => some (.vrelu t dst sa sb sc p z)
  | 0x0D => some (.vclamp t dst sa sb sc p z)
  | 0x10 => some (.vexp t dst sa sb sc p z)
  | 0x11 => some (.vexp2 t dst sa sb sc p z)
  | 0x12 => some (.vlog t dst sa sb sc p z)
  | 0x13 => some (.vrcp t dst sa sb sc p z)
  | 0x14 => some (.vrsqrt t dst sa sb sc p z)
  | 0x15 => some (.vtanh t dst sa sb sc p z)
  | 0x16 => some (.vsigm t dst sa sb sc p z)
  | 0x17 => some (.vgelu t dst sa sb sc p z)
  | 0x18 => some (.vsilu t dst sa sb sc p z)
  | 0x20 => some (.vcmpgt t dst sa sb sc p z)
  | 0x21 => some (.vcmpge t dst sa sb sc p z)
  | 0x22 => some (.vcmpeq t dst sa sb sc p z)
  | 0x23 => some (.vcmpne t dst sa sb sc p z)
  | 0x24 => some (.vsel t dst sa sb sc p z)
  | 0x30 => some (.vsum64 t dst sa sb sc p z)
  | 0x31 => some (.vsum64a t dst sa sb sc p z)
  | 0x32 => some (.vssq64 t dst sa sb sc p z)
  | 0x33 => some (.vssq64a t dst sa sb sc p z)
  | 0x34 => some (.vdot64 t dst sa sb sc p z)
  | 0x35 => some (.vdot64a t dst sa sb sc p z)
  | 0x38 => some (.vmaxr t dst sa sb sc p z)
  | 0x3C => some (.vsegr t dst sa sb sc p z)
  | 0x40 => some (.vsel24 t dst sa sb sc p z)
  | 0x41 => some (.vsel24q t dst sa sb sc p z)
  | _ => none

/-- The ALU group by FN (Table 4-4). -/
def aluInstr (t w : Nat) : Option Instr :=
  match wFn11 w with
  | 0x00 => some (.add t (regNo (wRd w)) (regNo (wRa w)) (regNo (wRb w)))
  | 0x01 => some (.sub t (regNo (wRd w)) (regNo (wRa w)) (regNo (wRb w)))
  | 0x02 => some (.and t (regNo (wRd w)) (regNo (wRa w)) (regNo (wRb w)))
  | 0x03 => some (.or t (regNo (wRd w)) (regNo (wRa w)) (regNo (wRb w)))
  | 0x04 => some (.xor t (regNo (wRd w)) (regNo (wRa w)) (regNo (wRb w)))
  | 0x08 => some (.shl t (regNo (wRd w)) (regNo (wRa w)) (regNo (wRb w)))
  | 0x09 => some (.shr t (regNo (wRd w)) (regNo (wRa w)) (regNo (wRb w)))
  | 0x0A => some (.shra t (regNo (wRd w)) (regNo (wRa w)) (regNo (wRb w)))
  | 0x10 => some (.lts t (regNo (wRd w)) (regNo (wRa w)) (regNo (wRb w)))
  | 0x11 => some (.ltu t (regNo (wRd w)) (regNo (wRa w)) (regNo (wRb w)))
  | 0x18 => some (.min t (regNo (wRd w)) (regNo (wRa w)) (regNo (wRb w)))
  | 0x19 => some (.minu t (regNo (wRd w)) (regNo (wRa w)) (regNo (wRb w)))
  | 0x1A => some (.max t (regNo (wRd w)) (regNo (wRa w)) (regNo (wRb w)))
  | 0x1B => some (.maxu t (regNo (wRd w)) (regNo (wRa w)) (regNo (wRb w)))
  | 0x20 => some (.mul t (regNo (wRd w)) (regNo (wRa w)) (regNo (wRb w)))
  | 0x21 => some (.mulhs t (regNo (wRd w)) (regNo (wRa w)) (regNo (wRb w)))
  | 0x22 => some (.mulhu t (regNo (wRd w)) (regNo (wRa w)) (regNo (wRb w)))
  | 0x28 => some (.divs t (regNo (wRd w)) (regNo (wRa w)) (regNo (wRb w)))
  | 0x29 => some (.divu t (regNo (wRd w)) (regNo (wRa w)) (regNo (wRb w)))
  | 0x2A => some (.rems t (regNo (wRd w)) (regNo (wRa w)) (regNo (wRb w)))
  | 0x2B => some (.remu t (regNo (wRd w)) (regNo (wRa w)) (regNo (wRb w)))
  | _ => none

/-- The SYS group by FN (Table 4-2). -/
def sysInstr (t w : Nat) : Option Instr :=
  match wFn11 w with
  | 0x01 => if wRd w == 0 && wRa w == 0 && wRb w == 0 then some (.endProgram t) else none
  | 0x02 => if wRd w == 0 && wRa w == 0 && wRb w == 0 then some (.brk t) else none
  | _ => none

/-- The VCTL group by FN (Table 4-2). -/
def vctlInstr (t w : Nat) : Option Instr :=
  match wFn11 w with
  | 0x00 => if wRb w == 0 then some (.setvl t (regNo (wRd w)) (regNo (wRa w))) else none
  | 0x10 => if wRd w == 0 && wRb w == 0 then some (.vstr t 0 (regNo (wRa w))) else none
  | 0x11 => if wRd w == 0 && wRb w == 0 then some (.vstr t 1 (regNo (wRa w))) else none
  | 0x12 => if wRd w == 0 && wRb w == 0 then some (.vstr t 2 (regNo (wRa w))) else none
  | 0x13 => if wRd w == 0 && wRb w == 0 then some (.vstr t 3 (regNo (wRa w))) else none
  | 0x14 => if wRd w == 0 && wRb w == 0 then some (.vstr t 4 (regNo (wRa w))) else none
  | 0x15 => if wRd w == 0 && wRb w == 0 then some (.vstr t 5 (regNo (wRa w))) else none
  | _ => none

/-- The TOK group by FN (Table 4-2). -/
def tokInstr (t w : Nat) : Option Instr :=
  match wFn11 w with
  | 0x00 => if wRd w == 0 && wRb w == 0 then some (.twait t (regNo (wRa w))) else none
  | 0x01 => if wRb w == 0 then some (.ttest t (regNo (wRd w)) (regNo (wRa w))) else none
  | 0x02 => if wRb w == 0 then some (.tlast t (regNo (wRd w)) (regNo (wRa w))) else none
  | _ => none

/-- The MSG group by FN (Table 4-2). -/
def msgInstr (t w : Nat) : Option Instr :=
  match wFn6 w with
  | 0x00 => some (.send t (regNo (wRd w)) (regNo (wRa w)) (regNo (wRb w)) (regNo (wRc w)))
  | 0x01 => if wRd w == 0 && wRc w == 0 then some (.hset t (regNo (wRa w)) (regNo (wRb w))) else none
  | 0x02 => if wRa w == 0 && wRb w == 0 && wRc w == 0 then some (.rqhead t (regNo (wRd w))) else none
  | 0x03 => if wRd w == 0 && wRa w == 0 && wRb w == 0 && wRc w == 0 then some (.rqpop t) else none
  | 0x04 => if wRd w == 0 && wRb w == 0 && wRc w == 0 then some (.port t (regNo (wRa w))) else none
  | _ => none

/-- The SYNC group by FN (Table 4-2). -/
def syncInstr (t w : Nat) : Option Instr :=
  match wFn11 w with
  | 0x00 => if wRd w == 0 then some (.sig t (regNo (wRa w)) (regNo (wRb w))) else none
  | 0x01 => if wRb w == 0 then some (.arrive t (regNo (wRd w)) (regNo (wRa w))) else none
  | 0x02 => if wRd w == 0 then some (.swait t (regNo (wRa w)) (regNo (wRb w))) else none
  | 0x03 => if wRb w == 0 then some (.sread t (regNo (wRd w)) (regNo (wRa w)) .arrives) else none
  | 0x04 => if wRd w == 0 then some (.sconf t (regNo (wRa w)) (regNo (wRb w))) else none
  | _ => none

/-- The command that a word spells for tile `t` (Table 4-2): none where its OP or FN is not listed or an unused field is
not 0 (R100). -/
def tileInstr (t w : Nat) : Option Instr :=
  match wOp w with
  | 0x01 => aluInstr t w
  | 0x02 => some (.addi t (regNo (wRd w)) (regNo (wRa w)) (BitVec.ofNat 16 w))
  | 0x03 => some (.andi t (regNo (wRd w)) (regNo (wRa w)) (BitVec.ofNat 16 w))
  | 0x04 => some (.ori t (regNo (wRd w)) (regNo (wRa w)) (BitVec.ofNat 16 w))
  | 0x05 => some (.xori t (regNo (wRd w)) (regNo (wRa w)) (BitVec.ofNat 16 w))
  | 0x06 => some (.ltsi t (regNo (wRd w)) (regNo (wRa w)) (BitVec.ofNat 16 w))
  | 0x07 => some (.ltui t (regNo (wRd w)) (regNo (wRa w)) (BitVec.ofNat 16 w))
  | 0x08 => some (.shli t (regNo (wRd w)) (regNo (wRa w)) (BitVec.ofNat 16 w))
  | 0x09 => some (.shri t (regNo (wRd w)) (regNo (wRa w)) (BitVec.ofNat 16 w))
  | 0x0A => some (.shrai t (regNo (wRd w)) (regNo (wRa w)) (BitVec.ofNat 16 w))
  | 0x0B => some (.ldhi t (regNo (wRd w)) (regNo (wRa w)) (BitVec.ofNat 16 w))
  | 0x10 => some (.ldb t (regNo (wRd w)) (regNo (wRa w)) (BitVec.ofNat 16 w))
  | 0x11 => some (.ldbu t (regNo (wRd w)) (regNo (wRa w)) (BitVec.ofNat 16 w))
  | 0x12 => some (.ldh t (regNo (wRd w)) (regNo (wRa w)) (BitVec.ofNat 16 w))
  | 0x13 => some (.ldhu t (regNo (wRd w)) (regNo (wRa w)) (BitVec.ofNat 16 w))
  | 0x14 => some (.ldw t (regNo (wRd w)) (regNo (wRa w)) (BitVec.ofNat 16 w))
  | 0x15 => some (.ldp t (regNo (wRd w)) (regNo (wRa w)) (BitVec.ofNat 16 w))
  | 0x18 => some (.stb t (regNo (wRd w)) (regNo (wRa w)) (BitVec.ofNat 16 w))
  | 0x19 => some (.sth t (regNo (wRd w)) (regNo (wRa w)) (BitVec.ofNat 16 w))
  | 0x1A => some (.stw t (regNo (wRd w)) (regNo (wRa w)) (BitVec.ofNat 16 w))
  | 0x1B => some (.stp t (regNo (wRd w)) (regNo (wRa w)) (BitVec.ofNat 16 w))
  | 0x20 => some (.beq t (regNo (wRd w)) (regNo (wRa w)) (BitVec.ofNat 16 w))
  | 0x21 => some (.bne t (regNo (wRd w)) (regNo (wRa w)) (BitVec.ofNat 16 w))
  | 0x22 => some (.blts t (regNo (wRd w)) (regNo (wRa w)) (BitVec.ofNat 16 w))
  | 0x23 => some (.bges t (regNo (wRd w)) (regNo (wRa w)) (BitVec.ofNat 16 w))
  | 0x24 => some (.bltu t (regNo (wRd w)) (regNo (wRa w)) (BitVec.ofNat 16 w))
  | 0x25 => some (.bgeu t (regNo (wRd w)) (regNo (wRa w)) (BitVec.ofNat 16 w))
  | 0x26 => some (.jmpl t (regNo (wRd w)) (BitVec.ofNat 21 w))
  | 0x27 => some (.jmpr t (regNo (wRd w)) (regNo (wRa w)) (BitVec.ofNat 16 w))
  | 0x28 => sysInstr t w
  | 0x29 => some (.ctr t (regNo (wRd w)) (regNo (wRa w)) (BitVec.ofNat 16 w))
  | 0x2A => some (.crr t (regNo (wRd w)) (regNo (wRa w)) (BitVec.ofNat 16 w))
  | 0x2B => some (.crw t (regNo (wRd w)) (regNo (wRa w)) (BitVec.ofNat 16 w))
  | 0x2C => if wRd w == 0 && wRa w == 0 then some (.hint t (BitVec.ofNat 16 w)) else none
  | 0x30 => if wFn11 w == 0 && wRb w == 0 then some (.mxi t (regNo (wRd w)) (regNo (wRa w))) else none
  | 0x31 => vopInstr t (bits w 18 8) (BitVec.ofNat 4 (bits w 14 4)) (BitVec.ofNat 4 (bits w 10 4))
      (BitVec.ofNat 4 (bits w 6 4)) (BitVec.ofNat 4 (bits w 2 4)) (bit w 1) (bit w 0)
  | 0x32 => vctlInstr t w
  | 0x33 => if wFn6 w == 0 then some (.fill t (regNo (wRd w)) (regNo (wRa w)) (regNo (wRb w)) (regNo (wRc w))) else none
  | 0x34 => if wFn6 w == 0 then some (.copy t (regNo (wRd w)) (regNo (wRa w)) (regNo (wRb w)) (regNo (wRc w))) else none
  | 0x35 => if wFn11 w == 0 && wRb w == 0 then some (.move t (regNo (wRd w)) (regNo (wRa w))) else none
  | 0x36 => tokInstr t w
  | 0x37 => if h : wRd w = 0 ∧ wRa w = 0 ∧ wImm w < 8 then some (.wopen t ⟨wImm w, h.2.2⟩) else none
  | 0x38 => if h : wRd w = 0 ∧ wRa w = 0 ∧ wImm w < 8 then some (.wclose t ⟨wImm w, h.2.2⟩) else none
  | 0x39 => if wFn11 w == 0 then some (.put t (regNo (wRd w)) (regNo (wRa w)) (regNo (wRb w))) else none
  | 0x3A => msgInstr t w
  | 0x3B => syncInstr t w
  | _ => none

/-- The field rules of an instruction's own section (R100): a shift amount below 32 and a zero RA field of LDHI (R106), an
even pair register (R107, R111), a listed CTR field (R111), and the selectors of a VOP (R120, R204). -/
def fieldsLegal : Instr → Bool
  | .shli _ _ _ imm => decide (imm.toNat < 32)
  | .shri _ _ _ imm => decide (imm.toNat < 32)
  | .shrai _ _ _ imm => decide (imm.toNat < 32)
  | .ldhi _ _ ra _ => ra == 0
  | .ldp _ rd _ _ => rd.val % 2 == 0
  | .stp _ rd _ _ => rd.val % 2 == 0
  | .ctr _ rd ra imm => ra == 0 && (imm == 2 || imm == 3 || ((imm == 0 || imm == 1) && rd.val % 2 == 0))
  | .vmov _ dst sa sb sc p z => vopFieldsOk .mov dst.toNat sa.toNat sb.toNat sc.toNat p z
  | .vadd _ dst sa sb sc p z => vopFieldsOk .add dst.toNat sa.toNat sb.toNat sc.toNat p z
  | .vsub _ dst sa sb sc p z => vopFieldsOk .sub dst.toNat sa.toNat sb.toNat sc.toNat p z
  | .vmul _ dst sa sb sc p z => vopFieldsOk .mul dst.toNat sa.toNat sb.toNat sc.toNat p z
  | .vfma _ dst sa sb sc p z => vopFieldsOk .fma dst.toNat sa.toNat sb.toNat sc.toNat p z
  | .vmin _ dst sa sb sc p z => vopFieldsOk .min dst.toNat sa.toNat sb.toNat sc.toNat p z
  | .vmax _ dst sa sb sc p z => vopFieldsOk .max dst.toNat sa.toNat sb.toNat sc.toNat p z
  | .vabs _ dst sa sb sc p z => vopFieldsOk .abs dst.toNat sa.toNat sb.toNat sc.toNat p z
  | .vneg _ dst sa sb sc p z => vopFieldsOk .neg dst.toNat sa.toNat sb.toNat sc.toNat p z
  | .vdiv _ dst sa sb sc p z => vopFieldsOk .div dst.toNat sa.toNat sb.toNat sc.toNat p z
  | .vsqrt _ dst sa sb sc p z => vopFieldsOk .sqrt dst.toNat sa.toNat sb.toNat sc.toNat p z
  | .vrelu _ dst sa sb sc p z => vopFieldsOk .relu dst.toNat sa.toNat sb.toNat sc.toNat p z
  | .vclamp _ dst sa sb sc p z => vopFieldsOk .clamp dst.toNat sa.toNat sb.toNat sc.toNat p z
  | .vexp _ dst sa sb sc p z => vopFieldsOk .exp dst.toNat sa.toNat sb.toNat sc.toNat p z
  | .vexp2 _ dst sa sb sc p z => vopFieldsOk .exp2 dst.toNat sa.toNat sb.toNat sc.toNat p z
  | .vlog _ dst sa sb sc p z => vopFieldsOk .log dst.toNat sa.toNat sb.toNat sc.toNat p z
  | .vrcp _ dst sa sb sc p z => vopFieldsOk .rcp dst.toNat sa.toNat sb.toNat sc.toNat p z
  | .vrsqrt _ dst sa sb sc p z => vopFieldsOk .rsqrt dst.toNat sa.toNat sb.toNat sc.toNat p z
  | .vtanh _ dst sa sb sc p z => vopFieldsOk .tanh dst.toNat sa.toNat sb.toNat sc.toNat p z
  | .vsigm _ dst sa sb sc p z => vopFieldsOk .sigm dst.toNat sa.toNat sb.toNat sc.toNat p z
  | .vgelu _ dst sa sb sc p z => vopFieldsOk .gelu dst.toNat sa.toNat sb.toNat sc.toNat p z
  | .vsilu _ dst sa sb sc p z => vopFieldsOk .silu dst.toNat sa.toNat sb.toNat sc.toNat p z
  | .vcmpgt _ dst sa sb sc p z => vopFieldsOk .cmpgt dst.toNat sa.toNat sb.toNat sc.toNat p z
  | .vcmpge _ dst sa sb sc p z => vopFieldsOk .cmpge dst.toNat sa.toNat sb.toNat sc.toNat p z
  | .vcmpeq _ dst sa sb sc p z => vopFieldsOk .cmpeq dst.toNat sa.toNat sb.toNat sc.toNat p z
  | .vcmpne _ dst sa sb sc p z => vopFieldsOk .cmpne dst.toNat sa.toNat sb.toNat sc.toNat p z
  | .vsel _ dst sa sb sc p z => vopFieldsOk .sel dst.toNat sa.toNat sb.toNat sc.toNat p z
  | .vsum64 _ dst sa sb sc p z => vopFieldsOk .sum64 dst.toNat sa.toNat sb.toNat sc.toNat p z
  | .vsum64a _ dst sa sb sc p z => vopFieldsOk .sum64a dst.toNat sa.toNat sb.toNat sc.toNat p z
  | .vssq64 _ dst sa sb sc p z => vopFieldsOk .ssq64 dst.toNat sa.toNat sb.toNat sc.toNat p z
  | .vssq64a _ dst sa sb sc p z => vopFieldsOk .ssq64a dst.toNat sa.toNat sb.toNat sc.toNat p z
  | .vdot64 _ dst sa sb sc p z => vopFieldsOk .dot64 dst.toNat sa.toNat sb.toNat sc.toNat p z
  | .vdot64a _ dst sa sb sc p z => vopFieldsOk .dot64a dst.toNat sa.toNat sb.toNat sc.toNat p z
  | .vmaxr _ dst sa sb sc p z => vopFieldsOk .maxr dst.toNat sa.toNat sb.toNat sc.toNat p z
  | .vsegr _ dst sa sb sc p z => vopFieldsOk .segr dst.toNat sa.toNat sb.toNat sc.toNat p z
  | .vsel24 _ dst sa sb sc p z => vopFieldsOk .sel24 dst.toNat sa.toNat sb.toNat sc.toNat p z
  | .vsel24q _ dst sa sb sc p z => vopFieldsOk .sel24q dst.toNat sa.toNat sb.toNat sc.toNat p z
  | .add _ _ _ _ => true
  | .sub _ _ _ _ => true
  | .and _ _ _ _ => true
  | .or _ _ _ _ => true
  | .xor _ _ _ _ => true
  | .shl _ _ _ _ => true
  | .shr _ _ _ _ => true
  | .shra _ _ _ _ => true
  | .lts _ _ _ _ => true
  | .ltu _ _ _ _ => true
  | .min _ _ _ _ => true
  | .minu _ _ _ _ => true
  | .max _ _ _ _ => true
  | .maxu _ _ _ _ => true
  | .mul _ _ _ _ => true
  | .mulhs _ _ _ _ => true
  | .mulhu _ _ _ _ => true
  | .divs _ _ _ _ => true
  | .divu _ _ _ _ => true
  | .rems _ _ _ _ => true
  | .remu _ _ _ _ => true
  | .addi _ _ _ _ => true
  | .andi _ _ _ _ => true
  | .ori _ _ _ _ => true
  | .xori _ _ _ _ => true
  | .ltsi _ _ _ _ => true
  | .ltui _ _ _ _ => true
  | .ldb _ _ _ _ => true
  | .ldbu _ _ _ _ => true
  | .ldh _ _ _ _ => true
  | .ldhu _ _ _ _ => true
  | .ldw _ _ _ _ => true
  | .stb _ _ _ _ => true
  | .sth _ _ _ _ => true
  | .stw _ _ _ _ => true
  | .beq _ _ _ _ => true
  | .bne _ _ _ _ => true
  | .blts _ _ _ _ => true
  | .bges _ _ _ _ => true
  | .bltu _ _ _ _ => true
  | .bgeu _ _ _ _ => true
  | .jmpl _ _ _ => true
  | .jmpr _ _ _ _ => true
  | .illegalInstruction _ _ => true
  | .endProgram _ => true
  | .brk _ => true
  | .crr _ _ _ _ => true
  | .crw _ _ _ _ => true
  | .hint _ _ => true
  | .twait _ _ => true
  | .ttest _ _ _ => true
  | .tlast _ _ _ => true
  | .mxi _ _ _ => true
  | .matrixOpComplete _ => true
  | .ftqPush _ => true
  | .setvl _ _ _ => true
  | .vstr _ _ _ => true
  | .vectorOpComplete _ => true
  | .fill _ _ _ _ _ => true
  | .copy _ _ _ _ _ => true
  | .blockOpComplete _ => true
  | .move _ _ _ => true
  | .wopen _ _ => true
  | .wclose _ _ => true
  | .put _ _ _ _ => true
  | .send _ _ _ _ _ => true
  | .hset _ _ _ => true
  | .rqhead _ _ => true
  | .rqpop _ => true
  | .port _ _ => true
  | .sig _ _ _ => true
  | .arrive _ _ _ => true
  | .swait _ _ _ => true
  | .sread _ _ _ _ => true
  | .sconf _ _ _ => true
  | .tileRunStart _ => true
  | .tileRunStop _ => true
  | .windowDrainEnd _ => true
  | .remoteWriteCheck _ => true
  | .remoteWriteCommit _ _ => true
  | .sumContribution _ _ => true
  | .reservationRequest _ _ => true
  | .portAnswer _ _ => true
  | .retryTimer _ => true
  | .messagePacketArrival _ _ => true
  | .packetResend _ => true
  | .deliveryCommit _ => true
  | .withdrawal _ _ => true
  | .syncSignal _ _ => true
  | .arriveAtObject _ _ => true
  | .arriveAnswer _ _ => true
  | .syncWaitAtObject _ _ => true
  | .syncWaitResume _ _ => true
  | .beatLoRead _ => true
  | .skipCountLoRead _ _ _ => true
  | .vecCountLoRead _ _ => true
  | .ftqClr _ => true
  | .lossPost _ _ => true
  | .hbmRefresh _ => true
  | .ddrRefresh _ _ => true
  | .patrolScrub _ _ _ _ => true
  | .cxlmemHostAccess _ _ _ _ => true
  | .ueSrcRead _ => true
  | .moverTransferComplete _ _ => true
  | .memBlockReadAnswer _ _ _ _ => true
  | .memBlockRequest _ _ _ _ => true
  | .hostWindowResponse _ _ _ _ _ => true
  | .cxlCompletionTimeout _ _ _ => true
  | .contributionBlock _ _ _ _ _ => true
  | .poolWaitEnd _ _ _ _ => true
  | .ringPacket _ _ _ _ _ _ _ _ _ _ => true
  | .nfReadyWrite _ _ => true
  | .kuAcceptLoRead _ => true
  | .commitEnd _ _ _ => true
  | .digestReceived _ _ _ _ _ _ => true
  | .linkBlockArrival _ _ _ _ _ => true
  | .linkRetrain _ _ => true
  | .retrainEnd _ => true
  | .linkFailTimeout _ => true
  | .orientationStep _ => true
  | .linkUp _ _ _ _ => true
  | .linkWriteArrival _ _ _ _ _ => true
  | .landingSignal _ => true
  | .linkStepAdvance _ => true
  | .jobAbortReceived _ _ _ => true
  | .lightLoss _ _ => true
  | .laserFault _ _ => true
  | .laserInsert _ => true
  | .trainingPatternReceived _ => true
  | .lkTxLoRead _ => true
  | .checkpointCopyEnd _ _ _ _ => true
  | .commitRequest _ _ _ => true
  | .commitRequestResume _ _ _ => true
  | .endToEndAnswer _ _ => true
  | .buddySlotRequest _ _ _ => true
  | .droop _ => true
  | .undervoltage _ _ => true
  | .handshakeStall _ _ _ => true
  | .railSettled _ => true
  | .marginDailyLower => true
  | .wearRecord _ => true
  | .chamoisSample _ _ _ _ => true
  | .energyWindow _ => true
  | .releaseReport _ => true
  | .hardThermalTrip _ _ => true
  | .teardownQuiesceTimeout _ => true
  | .teardownEnd _ => true
  | .faultFlag _ => true
  | .haltFlag _ => true
  | .nonfinFlag _ => true
  | .quiesceRequest _ => true
  | .quiesceAnswer _ => true
  | .switchOutDrainEnd _ => true
  | .switchAbandon _ => true
  | .switchInEnd _ => true
  | .periodBoundary _ => true
  | .mbDoorbell _ _ => true
  | .commandTake _ => true
  | .crEnableWrite _ _ => true
  | .crHeadWrite _ _ => true
  | .heldRecordWrite _ _ => true
  | .identity _ _ => true
  | .moduleConfig _ _ => true
  | .readBlock _ _ => true
  | .syncRead _ _ => true
  | .countersRead _ _ => true
  | .accountRead _ _ => true
  | .linkStatus _ _ => true
  | .tileDebugHalt _ _ => true
  | .tileDebugResume _ _ => true
  | .registerWrite _ _ _ _ => true
  | .kuduClosingEnd _ _ => true
  | .sweepHop _ _ _ _ _ => true
  | .concordExchange _ _ _ _ _ _ => true
  | .concordTimeout _ => true
  | .enable _ _ => true
  | .disable _ _ => true
  | .lifecycleStartupEnd _ _ _ _ => true
  | .lifecycleShutdownEnd _ _ => true
  | .jobLoad _ _ _ => true
  | .jobStart _ _ => true
  | .jobAbort _ _ => true
  | .jobUnload _ _ => true
  | .redRearm _ _ _ => true
  | .commitConfig _ _ => true
  | .commitRecover _ _ _ => true
  | .cxlmemSet _ _ => true
  | .cxlmemHandover _ _ => true
  | .healthConfig _ _ => true
  | .checkpointTake _ _ => true
  | .checkpointRollback _ _ _ _ => true
  | .attest _ _ _ => true
  | .romStatus _ _ => true
  | .fwLoad _ _ _ _ => true
  | .bootEnd _ _ => true
  | .powerOn => true
  | .inputUndervoltageOff => true
  | .inputOvervoltageOff => true
  | .inputReversed => true
  | .modReset _ => true
  | .cxlHotReset => true
  | .cxlTrain _ _ _ => true
  | .dimmBranchShort _ => true
  | .mgmtRailShort => true
  | .remoteSenseOpen _ => true
  | .smbusRead _ _ => true
  | .smbusWrite _ _ => true

end Sys2Proof.Machine
end

