-- ==== Sys2Proof/Safety.lean ====
section
/-! DEFINITION. What counts as a sound state and a safe run of the module, and the few terms that the statements are
written in: a command that completes with an effect, a tile that can issue, what an instruction leaves as it was. -/

namespace Sys2Proof.Machine

/-- The memory is in its canonical form. -/
abbrev State.MemSound (s : State) : Prop := s.mem.wf

/-- A tile's queues hold no more entries than Table 4-5 and R157 give them. -/
abbrev Tile.QueuesFit (T : Tile) : Prop :=
  (∀ u ∈ [1, 2, 3, 4, 5], T.depth u ≤ unitDepth u) ∧ T.ftq.entries.length ≤ 8

/-- Every queue of the module is within its entries: those of each tile, in a herd or in a job's saved context, 32 of each
direction of a crossing (R49), and 8 commands outstanding in a mailbox (R428). -/
abbrev State.QueuesFit (s : State) : Prop :=
  (∀ e ∈ s.tiles, e.2.QueuesFit) ∧ (∀ e ∈ s.jobs, ∀ c ∈ e.2.ctx, ∀ f ∈ c.tiles, f.2.QueuesFit) ∧
    (∀ e ∈ s.crossings, e.2.out.length ≤ 32 ∧ e.2.back.length ≤ 32) ∧ ∀ e ∈ s.mailboxes, e.2.outstanding ≤ 8

/-- A step that ends in a next state: no fault and no refusal. -/
def Runs (s : State) : Prop := ∃ t, step s = .next t

/-- The command completes: exec answers a next state, and of that state `P` holds. -/
def Does (c : Instr) (s : State) (P : State → Prop) : Prop := ∃ s', exec c s = .next s' ∧ P s'

/-- The herd memory's first device address, as tile `t` sees it, plus an offset (Table 1-6). -/
def devOf (t off : Nat) : Nat := t / 32 * 0x1000000 + off

/-- Tile `t` can issue an instruction that reads the registers `uses`: the grade has the tile (R20), it is RUNNING with
no SWAIT on its way, no register of `uses` awaits an ARRIVE answer (R101), and its program counter lies in its code
range (R67). -/
abbrev CanIssue (t : Nat) (uses : List Reg) (s : State) : Prop :=
  t < s.tileCount ∧ (s.tile t).ready uses = true ∧ (s.tile t).fetchOk = true

/-- Only tile `t` (and the model's free counter) differ: every other tile, every byte of memory and every other part of
the module is as it was. -/
structure TileOnly (t : Nat) (s s' : State) : Prop where
  others : ∀ u, u ≠ t → s'.tile u = s.tile u
  bytes : ∀ a, readByte s'.mem a = readByte s.mem a
  rest : s' = { s with tiles := s'.tiles, free := s'.free }

/-- The beat counter of tile `t` after an instruction of `cost` beats (R52, R138): the beats that passed until the registers
`uses` could be read, the instruction's own, and those beyond the minimum that the model leaves free (log 7). -/
def beatsAfter (t : Nat) (uses : List Reg) (cost : Nat) (s : State) : Nat :=
  ((s.tile t).beats + (s.tile t).stall uses + cost + slackBeats s.free) % 2 ^ 64

/-- An instruction of tile `t` that reads the registers `uses`, costs `cost` beats, goes on at `next`, and changes no
register but those of `rds`; the tile's beat counter, its Tahr pass and the awaited marks of `rds` move with it, and nothing
else of the module. -/
structure RegStep (t : Nat) (uses rds : List Reg) (cost : Nat) (next : Word) (s s' : State) : Prop where
  only : TileOnly t s s'
  regs : ∀ r, r ∉ rds → (s'.tile t).reg r = (s.tile t).reg r
  awaits : ∀ a, (∀ r ∈ rds, r.val ≠ a.reg) → (a ∈ (s'.tile t).awaits ↔ a ∈ (s.tile t).awaits)
  pc : (s'.tile t).pc = next
  beats : (s'.tile t).beats = beatsAfter t uses cost s
  tile : s'.tile t = { s.tile t with
    regs := (s'.tile t).regs, awaits := (s'.tile t).awaits, due := (s'.tile t).due, beats := (s'.tile t).beats, pc := next,
    tahr := { (s.tile t).tahr with pass := none } }

/-- The value that a register reads as after `v` was written to it: s0 reads 0 (R65). -/
def wrote (rd : Reg) (v : Word) : Word := if rd = 0 then 0 else v

/-- The instruction writes `v` to RD and does nothing else but go on to the next word (R98). -/
def WritesReg (c : Instr) (t : Nat) (uses : List Reg) (rd : Reg) (v : Word) (cost : Nat) (s : State) : Prop :=
  Does c s (fun s' => (s'.tile t).reg rd = wrote rd v ∧ RegStep t uses [rd] cost ((s.tile t).pc + 4) s s')

/-- The tile has faulted and recorded what R94 says: STATE FAULTED, UNIT and CODE, FAULT_PC and FAULT_ADDR, its registers
and program counter as they were. Memory and every other tile are as they were, no operation of the tile is left, and
the FAULT flag of its partition is up. -/
structure Faulted (t unit code : Nat) (pc : Word) (addr : Nat) (s s' : State) : Prop where
  run : (s'.tile t).run = .faulted
  record : (s'.tile t).faultUnit = unit ∧ (s'.tile t).faultCode = code ∧ (s'.tile t).faultPc = pc ∧
    (s'.tile t).faultAddr = addr
  regs : (s'.tile t).regs = (s.tile t).regs ∧ (s'.tile t).pc = (s.tile t).pc
  ended : (s'.tile t).blocks = [] ∧ (s'.tile t).mx = [] ∧ (s'.tile t).vec.queue = [] ∧ (s'.tile t).port.queue = [] ∧
    (s'.tile t).mover = []
  others : ∀ u, u ≠ t → s'.tile u = s.tile u
  bytes : ∀ a, readByte s'.mem a = readByte s.mem a
  flag : s.partOf t ≠ 0 → (s'.part (s.partOf t)).fault = true

/-- The instruction faults its tile with `code` at its own offset. -/
def Faults (c : Instr) (t unit code addr : Nat) (s : State) : Prop :=
  Does c s (fun s' => Faulted t unit code (s.tile t).pc addr s s')

/-- The instruction changes no register and goes on at `next`. -/
def GoesTo (c : Instr) (t : Nat) (uses : List Reg) (cost : Nat) (next : Word) (s : State) : Prop :=
  Does c s (RegStep t uses [] cost next s)

/-- The instruction parks the tile with PARK_CAUSE `cause` and its program counter on it: the interlock's beats pass, and
nothing else of the tile or the module changes. -/
def Parks (c : Instr) (t cause : Nat) (s : State) : Prop :=
  Does c s (fun s' => TileOnly t s s' ∧ (s'.tile t).park.cause = cause ∧ s'.tile t = { s.tile t with
    run := .parked, park := (s'.tile t).park, beats := (s'.tile t).beats, due := (s'.tile t).due })

/-- No word of herd memory that the bytes `a .. a + n - 1` touch holds an error (R72). -/
abbrev CleanRange (a n : Nat) (s : State) : Prop :=
  (∀ w ∈ s.eccBad, w * 8 + 8 ≤ a ∨ a + n ≤ w * 8) ∧ (∀ w ∈ s.eccSoft, w * 8 + 8 ≤ a ∨ a + n ≤ w * 8)

/-- The `n` bytes at offset `off` can be accessed by tile `t`: the offset has no high bits (R68), is aligned (R107) and the
bytes lie in the region (R75); the tile is not in Tahr mode, and no word holds an error. -/
abbrev Accessible (t off n : Nat) (s : State) : Prop :=
  off < 0x1000000 ∧ off % n = 0 ∧ (s.tile t).regionBase ≤ off ∧ off + n ≤ (s.tile t).regionBase + (s.tile t).regionSize ∧
    (s.tile t).tahrMode = false ∧ CleanRange (devOf t off) n s

/-- The bytes at offset `off` do not meet the code range (R67). -/
abbrev NotCode (t off n : Nat) (s : State) : Prop :=
  off + n ≤ (s.tile t).codeBase ∨ (s.tile t).codeBase + (s.tile t).codeSize ≤ off

/-- A store of tile `t`, reading the registers `uses`, to the `n` bytes at device address `a`: it costs 1 beat, no register
changes, the tile goes on to the next word, and every byte outside those is as it was. -/
structure StoreStep (t : Nat) (uses : List Reg) (a n : Nat) (s s' : State) : Prop where
  others : ∀ u, u ≠ t → s'.tile u = s.tile u
  outside : ∀ x, x < a ∨ a + n ≤ x → readByte s'.mem x = readByte s.mem x
  beats : (s'.tile t).beats = beatsAfter t uses 1 s
  tile : s'.tile t = { s.tile t with
    due := (s'.tile t).due, beats := (s'.tile t).beats, pc := (s.tile t).pc + 4, tahr := { (s.tile t).tahr with pass := none } }
  rest : s' = { s with tiles := s'.tiles, free := s'.free, mem := s'.mem }

/-! ## Vector operations that can run -/

/-- The vector queue of a running tile holds these operations, none run yet, and what they take of the finished-tile queue is
there; no word of memory or of the operand cache is in error. -/
abbrev VecReady (t : Nat) (ops : List VecOp) (s : State) : Prop :=
  t < s.tileCount ∧ (s.tile t).run = .running ∧ (s.tile t).vec.queue = ops.map .op ∧
    s.eccBad = [] ∧ s.eccSoft = [] ∧ (s.tile t).vec.cacheBad = [] ∧ (s.tile t).vec.cacheSoft = [] ∧
    ∀ o ∈ ops, o.done = false ∧ o.ftqNeed ≤ (s.tile t).vec.taken.length

/-- Every scale record that the operation uses is up to date for its binding (R226), those of the slots in `but` aside. -/
abbrev VecOp.Rolled (t : Nat) (o : VecOp) (but : List Nat) (s : State) : Prop :=
  ∀ e ∈ o.slots, e.1 ∉ but → e.2.recordUsed = true → (Sparse.get {} (s.tile t).vec.slots e.1 : ExecSlot).rolled = true

/-- Element `i` of a source: of a stream at its position, widened to binary32 but for binary64 and w48 (R205), or of the
finished-tile queue (R203); an unused position is +0. -/
def VecOp.input (t : Nat) (o : VecOp) (s : State) (x : VOperand) (i : Nat) : FVal :=
  match x with
  | .slot k d pos =>
    let v := s.elemVal t d (o.blk k) (pos + i)
    if d.fmt = 5 ∨ d.fmt = 6 then v else widen v
  | .ftq => f32 ((s.tile t).vec.taken.getD i 0).toNat
  | _ => fzero

/-- The bytes of element `e` of a stream of tile `t` do not hold the byte at device address `a`. -/
abbrev StreamDesc.Misses (d : StreamDesc) (t e a : Nat) : Prop :=
  d.loc = true ∨ a < devOf t (d.elemBytes e).1 ∨ devOf t (d.elemBytes e).1 + (d.elemBytes e).2 ≤ a

/-- Element `e` of stream `d` and element `f` of stream `b` share no bit. -/
abbrev StreamDesc.Apart (d : StreamDesc) (e : Nat) (b : StreamDesc) (f : Nat) : Prop :=
  d.loc ≠ b.loc ∨ d.bitAddr e + fmtBits d.fmt ≤ b.bitAddr f ∨ b.bitAddr f + fmtBits b.fmt ≤ d.bitAddr e

/-- Of elements `pos` to `pos + n - 1` every two lie apart or, in rows that REP repeats, at the same place. -/
abbrev StreamDesc.Placed (d : StreamDesc) (pos n : Nat) : Prop :=
  ∀ i < n, ∀ j < n, d.bitAddr (pos + i) = d.bitAddr (pos + j) ∨ d.Apart (pos + i) d (pos + j)

/-- The elements of an E2M1 stream, and the scale bytes of its blocks in `b`, share no bit with one another. -/
abbrev StreamDesc.BlocksApart (d b : StreamDesc) (pos n : Nat) : Prop :=
  ∀ i < n, ∀ j < n, (i = j ∨ d.Apart (pos + i) d (pos + j)) ∧ d.Apart (pos + i) b (pos / 32 + j / 32) ∧
    (i / 32 = j / 32 ∨ b.Apart (pos / 32 + i / 32) b (pos / 32 + j / 32))

/-- The codes that a destination holds once an operation has written code `c i` to each element `i` for which it has one: of
elements at one place the last counts, and an element that none is written to is as it was. -/
abbrev ElemsWritten (t : Nat) (d : StreamDesc) (pos n : Nat) (c : Nat → Option Nat) (s s' : State) : Prop :=
  (∀ i < n, s'.elemCode t d (pos + i) =
    match (List.range n).reverse.find? (fun j => (c j).isSome && d.bitAddr (pos + j) == d.bitAddr (pos + i)) with
    | some j => ((c j).getD 0) % 2 ^ fmtBits d.fmt
    | none => s.elemCode t d (pos + i)) ∧
  ∀ a, (∀ i < n, d.Misses t (pos + i) a) → readByte s'.mem a = readByte s.mem a

/-- A transfer but for how far the herd mover has placed its blocks into the crossings. -/
def MoverOp.moved (o : MoverOp) : MoverOp := { o with next := 0, again := [], placed := [] }

/-- A tile differs in nothing but how far the herd mover has placed its transfers' blocks (R331). -/
structure Placing (T T' : Tile) : Prop where
  tile : T' = { T with mover := T'.mover }
  moves : T'.mover.map MoverOp.moved = T.mover.map MoverOp.moved

/-- No LINK_WRITE has a block still to place on its link. -/
abbrev NoLinkToPlace (s : State) : Prop := ∀ e ∈ s.tiles, ∀ o ∈ e.2.mover, o.desc.kind = 4 → o.nextBlock = none

/-- What link `k` sends or frees lets no herd mover go on: no LINK_WRITE goes over it, or no mover has a block left to place. -/
abbrev NoMoverRuns (k : Nat) (s : State) : Prop :=
  s.linkWrites k = [] ∨ ∀ e ∈ s.tiles, ∀ o ∈ e.2.mover, o.nextBlock = none

/-- No mover WRITE is being sent again: no access has to wait for one (R328, R330). -/
abbrev NoneRetried (s : State) : Prop := ∀ e ∈ s.tiles, ∀ o ∈ e.2.mover, o.desc.kind = 1 → o.retries = []

/-- The Kudus' accesses go on: HBM has power, and no mover WRITE is being sent again (R330, R501). -/
abbrev KudusServe (s : State) : Prop := s.power.hbm = true ∧ NoneRetried s

/-- A transfer of tile `t` has ended its tile with `code` (Table 12-9): UNIT 0x05, FAULT_PC at its MOVE; no byte changes,
and in the other tiles nothing but the placing of blocks. -/
structure MoveFaulted (t code : Nat) (pc : Word) (addr : Nat) (s s' : State) : Prop where
  run : (s'.tile t).run = .faulted
  record : (s'.tile t).faultUnit = 5 ∧ (s'.tile t).faultCode = code ∧ (s'.tile t).faultPc = pc ∧ (s'.tile t).faultAddr = addr
  ended : (s'.tile t).mover = []
  others : ∀ v, v ≠ t → Placing (s.tile v) (s'.tile v)
  bytes : ∀ a, readByte s'.mem a = readByte s.mem a
  flag : s.partOf t ≠ 0 → (s'.part (s.partOf t)).fault = true

/-! ## Commands of a mailbox -/

/-- The taken command `c`, SEQ `q` of mailbox `m`, has the opcode `op`, has not started, waits for no other command and
passes the checks of R430: it acts now. -/
abbrev Acts (m q : Nat) (c : Cmd) (op : Nat) (s : State) : Prop :=
  s.cmd m q = some c ∧ c.opcode = op ∧ c.phase = .taken ∧ s.blocked m c = false ∧ checkCmd s m c = none

/-- The command has ended (R436): it is outstanding no more, and its final record with this status and DETAIL stands last
in the mailbox's ring or is held. -/
structure Ends (m q : Nat) (c : Cmd) (st : Status) (detail : List Byte) (s' : State) : Prop where
  gone : s'.cmd m q = none
  record : ∃ r : Record, r.final = true ∧ r.event = false ∧ r.seq = q ∧ r.opcode = c.opcode ∧ r.tag = c.tag ∧
    r.status = st.code ∧ r.detail = detail ∧ ((s'.mb m).last = some r ∨ r ∈ (s'.mb m).held)

/-- Nothing below the host window has changed, and no tile. -/
structure HostOnly (s s' : State) : Prop where
  bytes : ∀ a, a < hostBase → readByte s'.mem a = readByte s.mem a
  tiles : s'.tiles = s.tiles

/-- The completion ring of a mailbox and the `n` bytes at a host offset do not meet. -/
abbrev RingApart (m off n : Nat) (s : State) : Prop :=
  (s.mb m).crBase + 64 * (s.mb m).ringLen ≤ off ∨ off + n ≤ (s.mb m).crBase

/-- The result data of a command as the host finds it (R433). -/
abbrev ResultIs (c : Cmd) (bs : List Byte) (s' : State) : Prop :=
  ∀ i, i < bs.length → readByte s'.mem (hostBase + c.resultAddr + i) = bs.getD i 0

end Sys2Proof.Machine
end

