-- ==== Sys2Proof/Certificates/Slice0/Obligations.lean ====
section
/-! DEFINITION. The statements that are to be proved of the model. -/

open Sys2Proof Sys2Proof.Machine

/-- For every command c and every state s whose queue is c followed by r: step at s is exec of c at s with the queue r. The queue is the model's own (log 1). -/
def Obligations.StepTakesFront : Prop :=
  ∀ (c : Instr) (r : List Instr) (s : State), s.pending = c :: r → step s = exec c { s with pending := r }

/-- With no command waiting, step answers a next state. Where no link data, no ring packet and no concord verdict wait to be taken, the module time has moved on by some amount; a tile differs at most in its beat counter and the registers still to come, in its matrix operations and skip counters, and in ECC_SEEN; a job only in the times for which it has held its herds; a link that is not UP not at all. With no matrix operation outstanding and no command taken, every byte of memory is as it was. Nothing else of the module differs, but marks of corrected words, corrected-error counts, the mailboxes and the free counter. Idling as the passing of time is the model's own choice (log 6, 7, 9, 57). -/
def Obligations.IdleStepPassesTime : Prop :=
  ∀ s : State, s.pending = [] →
    ∃ s', step s = .next s' ∧
    ((∀ e ∈ s.links, e.2.delivered = []) → (∀ e ∈ s.reds, e.2.ringHeld = []) → (∀ e ∈ s.jobs, e.2.concord = none) →
      (∃ n, s'.time = s.time + n) ∧
      s' = { s with time := s'.time, tiles := s'.tiles, jobs := s'.jobs, links := s'.links, mailboxes := s'.mailboxes, mem := s'.mem
                    eccBad := s'.eccBad, eccSoft := s'.eccSoft, badBlocks := s'.badBlocks, herdCe := s'.herdCe, free := s'.free } ∧
      (∀ t, ∃ b d m st k e, s'.tile t =
        { s.tile t with beats := b, due := d, mx := m, mxStore := st, skips := k, eccSeen := e }) ∧
      (∀ j, ∃ (h sl : Nat) (a : Acct), s'.job j = { s.job j with heldNs := h, sliceNs := sl, acct := a }) ∧
      (∀ k, (s.link k).run ≠ .up → s'.link k = s.link k) ∧
      ((∀ t, (s.tile t).mx = []) → (∀ m, m < 17 → (s.mb m).cmds = []) →
        (∀ a, readByte s'.mem a = readByte s.mem a) ∧ s'.mailboxes = s.mailboxes))

/-- For each of the 17 instructions of Table 4-4 beside the divisions, on a tile that can issue: RD receives the value of the table as arithmetic modulo 2^32, a shift amount is bits 4:0 of RB, and the program counter goes on; every other register, tile, byte and part of the module is unchanged. The divisions are in DivisionResults. Commands that it says complete, under conditions on state and operands alone: ADD, SUB, AND, OR, XOR, SHL, SHR, SHRA, LTS, LTU, MIN, MINU, MAX, MAXU, MUL, MULHS, MULHU. -/
def Obligations.AluRegisterResults : Prop :=
  ∀ (s : State) (t : Nat) (rd ra rb : Reg), CanIssue t [ra, rb] s →
    ∀ a b, (s.tile t).reg ra = a → (s.tile t).reg rb = b →
    WritesReg (.add t rd ra rb) t [ra, rb] rd (word (a.toNat + b.toNat)) 1 s ∧
    WritesReg (.sub t rd ra rb) t [ra, rb] rd (BitVec.ofInt 32 ((a.toNat : Int) - b.toNat)) 1 s ∧
    WritesReg (.and t rd ra rb) t [ra, rb] rd (a &&& b) 1 s ∧
    WritesReg (.or t rd ra rb) t [ra, rb] rd (a ||| b) 1 s ∧
    WritesReg (.xor t rd ra rb) t [ra, rb] rd (a ^^^ b) 1 s ∧
    WritesReg (.shl t rd ra rb) t [ra, rb] rd (word (a.toNat * 2 ^ (b.toNat % 32))) 1 s ∧
    WritesReg (.shr t rd ra rb) t [ra, rb] rd (word (a.toNat / 2 ^ (b.toNat % 32))) 1 s ∧
    WritesReg (.shra t rd ra rb) t [ra, rb] rd (BitVec.ofInt 32 (a.toInt / 2 ^ (b.toNat % 32))) 1 s ∧
    WritesReg (.lts t rd ra rb) t [ra, rb] rd (if a.toInt < b.toInt then 1 else 0) 1 s ∧
    WritesReg (.ltu t rd ra rb) t [ra, rb] rd (if a.toNat < b.toNat then 1 else 0) 1 s ∧
    WritesReg (.min t rd ra rb) t [ra, rb] rd (BitVec.ofInt 32 (min a.toInt b.toInt)) 1 s ∧
    WritesReg (.minu t rd ra rb) t [ra, rb] rd (word (min a.toNat b.toNat)) 1 s ∧
    WritesReg (.max t rd ra rb) t [ra, rb] rd (BitVec.ofInt 32 (max a.toInt b.toInt)) 1 s ∧
    WritesReg (.maxu t rd ra rb) t [ra, rb] rd (word (max a.toNat b.toNat)) 1 s ∧
    WritesReg (.mul t rd ra rb) t [ra, rb] rd (word (a.toNat * b.toNat)) 1 s ∧
    WritesReg (.mulhs t rd ra rb) t [ra, rb] rd (BitVec.ofInt 32 (a.toInt * b.toInt / 2 ^ 32)) 1 s ∧
    WritesReg (.mulhu t rd ra rb) t [ra, rb] rd (word (a.toNat * b.toNat / 2 ^ 32)) 1 s

/-- For DIVS, DIVU, REMS and REMU on a tile that can issue: a divisor of 0 gives 0xFFFF_FFFF as quotient and RA as remainder; DIVS of 0x8000_0000 by 0xFFFF_FFFF gives 0x8000_0000 and REMS gives 0; otherwise the quotient is rounded toward zero and the remainder has the sign of RA. Nothing else changes. Commands that it says complete, under conditions on state and operands alone: DIVS, DIVU, REMS, REMU. -/
def Obligations.DivisionResults : Prop :=
  ∀ (s : State) (t : Nat) (rd ra rb : Reg), CanIssue t [ra, rb] s →
    ∀ a b, (s.tile t).reg ra = a → (s.tile t).reg rb = b →
    WritesReg (.divs t rd ra rb) t [ra, rb] rd
      (if b = 0 then 0xFFFFFFFF else if a = 0x80000000 ∧ b = 0xFFFFFFFF then 0x80000000
       else BitVec.ofInt 32 (a.toInt.tdiv b.toInt)) 33 s ∧
    WritesReg (.divu t rd ra rb) t [ra, rb] rd (if b = 0 then 0xFFFFFFFF else word (a.toNat / b.toNat)) 33 s ∧
    WritesReg (.rems t rd ra rb) t [ra, rb] rd
      (if b = 0 then a else if a = 0x80000000 ∧ b = 0xFFFFFFFF then 0 else BitVec.ofInt 32 (a.toInt.tmod b.toInt)) 33 s ∧
    WritesReg (.remu t rd ra rb) t [ra, rb] rd (if b = 0 then a else word (a.toNat % b.toNat)) 33 s

/-- On a tile that can issue: ADDI and LTSI sign-extend IMM, ANDI, ORI, XORI and LTUI zero-extend it and LTUI compares as unsigned; SHLI, SHRI and SHRAI shift by an IMM below 32 and are illegal above; LDHI writes IMM times 0x1_0000 and is illegal with an RA field that is not 0. Nothing else changes. Commands that it says complete, under conditions on state and operands alone: ADDI, ANDI, ORI, XORI, LTSI, LTUI, SHLI, SHRI, SHRAI, LDHI. -/
def Obligations.ImmediateResults : Prop :=
  ∀ (s : State) (t : Nat) (rd ra : Reg) (imm : BitVec 16), CanIssue t [ra] s →
    ∀ a, (s.tile t).reg ra = a →
    WritesReg (.addi t rd ra imm) t [ra] rd (BitVec.ofInt 32 (a.toNat + imm.toInt)) 1 s ∧
    WritesReg (.andi t rd ra imm) t [ra] rd (a &&& word imm.toNat) 1 s ∧
    WritesReg (.ori t rd ra imm) t [ra] rd (a ||| word imm.toNat) 1 s ∧
    WritesReg (.xori t rd ra imm) t [ra] rd (a ^^^ word imm.toNat) 1 s ∧
    WritesReg (.ltsi t rd ra imm) t [ra] rd (if a.toInt < imm.toInt then 1 else 0) 1 s ∧
    WritesReg (.ltui t rd ra imm) t [ra] rd (if a.toNat < imm.toNat then 1 else 0) 1 s ∧
    (imm.toNat < 32 →
      WritesReg (.shli t rd ra imm) t [ra] rd (word (a.toNat * 2 ^ imm.toNat)) 1 s ∧
      WritesReg (.shri t rd ra imm) t [ra] rd (word (a.toNat / 2 ^ imm.toNat)) 1 s ∧
      WritesReg (.shrai t rd ra imm) t [ra] rd (BitVec.ofInt 32 (a.toInt / 2 ^ imm.toNat)) 1 s) ∧
    (32 ≤ imm.toNat →
      Faults (.shli t rd ra imm) t 0 Code.illegal 0 s ∧ Faults (.shri t rd ra imm) t 0 Code.illegal 0 s ∧
      Faults (.shrai t rd ra imm) t 0 Code.illegal 0 s) ∧
    (ra = 0 → WritesReg (.ldhi t rd ra imm) t [ra] rd (word (imm.toNat * 0x10000)) 1 s) ∧
    (ra ≠ 0 → Faults (.ldhi t rd ra imm) t 0 Code.illegal 0 s)

/-- On a tile that can issue, at an accessible offset RA + sign-extended IMM: LDB, LDH sign-extend, LDBU, LDHU zero-extend, LDW loads a word, and LDP with an even RD loads the lower address into RD and the upper into RD + 1. No other register, no byte and nothing else of the module changes. Commands that it says complete, under conditions on state and operands alone: LDB, LDBU, LDH, LDHU, LDW, LDP. -/
def Obligations.LoadResults : Prop :=
  ∀ (s : State) (t : Nat) (rd ra : Reg) (imm : BitVec 16) (off : Nat), CanIssue t [ra] s →
    off = (((s.tile t).reg ra).toNat + imm.toInt) % 2 ^ 32 →
    let B (i : Nat) : Byte := readByte s.mem (devOf t off + i)
    (Accessible t off 1 s →
      WritesReg (.ldb t rd ra imm) t [ra] rd ((B 0).signExtend 32) 1 s ∧ WritesReg (.ldbu t rd ra imm) t [ra] rd ((B 0).setWidth 32) 1 s) ∧
    (Accessible t off 2 s →
      WritesReg (.ldh t rd ra imm) t [ra] rd ((B 1 ++ B 0).signExtend 32) 1 s ∧
      WritesReg (.ldhu t rd ra imm) t [ra] rd ((B 1 ++ B 0).setWidth 32) 1 s) ∧
    (Accessible t off 4 s → WritesReg (.ldw t rd ra imm) t [ra] rd (B 3 ++ B 2 ++ B 1 ++ B 0) 1 s) ∧
    (Accessible t off 8 s → ∀ r1 : Reg, rd.val % 2 = 0 → r1.val = rd.val + 1 →
      Does (.ldp t rd ra imm) s (fun s' => (s'.tile t).reg rd = wrote rd (B 3 ++ B 2 ++ B 1 ++ B 0) ∧
        (s'.tile t).reg r1 = B 7 ++ B 6 ++ B 5 ++ B 4 ∧ RegStep t [ra] [rd, r1] 1 ((s.tile t).pc + 4) s s'))

/-- On a tile that can issue, at an accessible offset RA + sign-extended IMM outside the code range: STB, STH and STW write the low 1, 2 and 4 bytes of RD, and STP with an even RD writes RD to the lower address and RD + 1 to the upper (s0 stores 0). Every byte outside the stored ones, every register, every other tile and the rest of the module are as they were. Commands that it says complete, under conditions on state and operands alone: STB, STH, STW, STP. -/
def Obligations.StoreResults : Prop :=
  ∀ (s : State) (t : Nat) (rd ra : Reg) (imm : BitVec 16) (off : Nat), CanIssue t [ra, rd] s →
    off = (((s.tile t).reg ra).toNat + imm.toInt) % 2 ^ 32 →
    let stored (s' : State) (i : Nat) (v : Word) : Prop := readByte s'.mem (devOf t off + i) = (v >>> (8 * (i % 4))).setWidth 8
    let v := (s.tile t).reg rd
    (Accessible t off 1 s → NotCode t off 1 s →
      Does (.stb t rd ra imm) s (fun s' => stored s' 0 v ∧ StoreStep t [ra, rd] (devOf t off) 1 s s')) ∧
    (Accessible t off 2 s → NotCode t off 2 s →
      Does (.sth t rd ra imm) s (fun s' => (∀ i < 2, stored s' i v) ∧ StoreStep t [ra, rd] (devOf t off) 2 s s')) ∧
    (Accessible t off 4 s → NotCode t off 4 s →
      Does (.stw t rd ra imm) s (fun s' => (∀ i < 4, stored s' i v) ∧ StoreStep t [ra, rd] (devOf t off) 4 s s')) ∧
    (Accessible t off 8 s → NotCode t off 8 s → ∀ r1 : Reg, rd.val % 2 = 0 → r1.val = rd.val + 1 → CanIssue t [ra, rd, r1] s →
      Does (.stp t rd ra imm) s (fun s' => (∀ i < 4, stored s' i v) ∧
        (∀ i, 4 ≤ i → i < 8 → stored s' i ((s.tile t).reg r1)) ∧ StoreStep t [ra, rd, r1] (devOf t off) 8 s s'))

/-- For the six loads and four stores of 1, 2, 4 and 8 bytes on a tile that can issue, at offset RA + sign-extended IMM: a pair with an odd RD is illegal; else bits 31:24 not 0 fault with OFFSET_HIGH; else an offset that is not aligned faults with MISALIGNED; else bytes that leave the region fault with REGION_BOUND; else a store into the code range faults with CODE_WRITE; a load of a word that cannot be corrected faults with MEMORY_UNCORRECTABLE, the lowest such word its address. FAULT_ADDR is 0 for an illegal form and OFFSET_HIGH and the device address else, as log 21 chooses. The tile records the fault, and no byte changes. In Tahr mode, an access that passes these checks and meets a reservation of another unit, one of the two writing, halts the tile with TR_UNIT and has no effect; one that meets none, no open window and, writing, not the ring, goes on and costs 3 beats where it costs 1 outside Tahr mode, beside those it waits for its registers and those beyond the minimum that log 7 leaves free. -/
def Obligations.AccessChecks : Prop :=
  ∀ (s : State) (t : Nat) (rd ra : Reg) (imm : BitVec 16) (off : Nat), CanIssue t [ra, rd, Reg.pair rd] s →
    off = (((s.tile t).reg ra).toNat + imm.toInt) % 2 ^ 32 →
    let T := s.tile t
    let forms : List (Instr × Bool × Nat × List Reg) :=
      [(.ldb t rd ra imm, false, 1, [ra]), (.ldbu t rd ra imm, false, 1, [ra]), (.ldh t rd ra imm, false, 2, [ra]),
       (.ldhu t rd ra imm, false, 2, [ra]), (.ldw t rd ra imm, false, 4, [ra]), (.ldp t rd ra imm, false, 8, [ra]),
       (.stb t rd ra imm, true, 1, [ra, rd]), (.sth t rd ra imm, true, 2, [ra, rd]), (.stw t rd ra imm, true, 4, [ra, rd]),
       (.stp t rd ra imm, true, 8, [ra, rd, Reg.pair rd])]
    ∀ f ∈ forms,
    let c := f.1
    let store := f.2.1
    let n := f.2.2.1
    let inside : Prop := off < 0x1000000 ∧ off % n = 0 ∧ T.regionBase ≤ off ∧ off + n ≤ T.regionBase + T.regionSize
    (n = 8 → rd.val % 2 = 1 → Faults c t 0 Code.illegal 0 s) ∧
    ((n = 8 → rd.val % 2 = 0) →
      (0x1000000 ≤ off → Faults c t 0 Code.offsetHigh 0 s) ∧
      (off < 0x1000000 → off % n ≠ 0 → Faults c t 0 Code.misaligned (devOf t off) s) ∧
      (off < 0x1000000 → off % n = 0 → (off < T.regionBase ∨ T.regionBase + T.regionSize < off + n) →
        Faults c t 0 Code.regionBound (devOf t off) s) ∧
      (inside → store = true → off < T.codeBase + T.codeSize → T.codeBase < off + n → 0 < T.codeSize →
        Faults c t 0 Code.codeWrite (devOf t off) s) ∧
      (inside → store = false → T.tahrMode = false → ∀ w ∈ s.eccBad, w * 8 < devOf t off + n → devOf t off < w * 8 + 8 →
        (∀ v ∈ s.eccBad, v * 8 < devOf t off + n → devOf t off < v * 8 + 8 → w ≤ v) →
        Faults c t 0 Code.memoryUncorrectable (w * 8) s) ∧
      (inside → (store = true → NotCode t off n s) → T.tahrMode = true → T.tahr.pass = none →
        (∀ r : TahrRes, T.tahr.res = [r] → r.unit ≠ 0 → (store = true ∨ r.write = true) → off < r.lo + r.len → r.lo < off + n → 0 < r.len →
          Does c s (fun s' => (s'.tile t).run = .halted ∧ (s'.tile t).pc = T.pc ∧ (s'.tile t).regs = T.regs ∧
            (s'.tile t).tahr = { T.tahr with count := min max32 (T.tahr.count + 1), valid := true, arrival := false, code := 0x59, pc := T.pc
                                             addr := BitVec.ofNat 64 (devOf t (max off r.lo)), other := word (r.unit * 2 ^ 29 + r.num % 2 ^ 29) } ∧
            (s.partOf t ≠ 0 → (s'.part (s.partOf t)).halt = true) ∧ (∀ u, u ≠ t → s'.tile u = s.tile u) ∧
            ∀ a, readByte s'.mem a = readByte s.mem a)) ∧
        (T.tahr.res = [] → (∀ w ∈ T.windows, w.2.opened = false) → (store = true → off + n ≤ T.ringBase ∨ T.ringBase + T.ringSize ≤ off) →
          CleanRange (devOf t off) n s → Does c s (fun s' => (s'.tile t).run = .running ∧ (s'.tile t).pc = T.pc + 4 ∧
            (s'.tile t).beats = beatsAfter t f.2.2.2 3 s))))

/-- On a tile that can issue: BEQ, BNE, BLTS, BGES, BLTU and BGEU go to their own offset + 4 times sign-extended DISP where the condition of RA and RB holds and to the next word otherwise, changing no register. JMPL and JMPR write their offset + 4 to RD; JMPL goes to its offset + 4 times DISP, JMPR to RA + sign-extended IMM as RA was; a JMPR target that is not 4-byte aligned faults with MISALIGNED. Commands that it says complete, under conditions on state and operands alone: BEQ, BNE, BLTS, BGES, BLTU, BGEU, JMPL, JMPR. -/
def Obligations.BranchesAndJumps : Prop :=
  ∀ (s : State) (t : Nat) (rd ra rb : Reg) (disp : BitVec 16), CanIssue t [ra, rb] s →
    ∀ a b pc, (s.tile t).reg ra = a → (s.tile t).reg rb = b → (s.tile t).pc = pc →
    let goes (c : Instr) (taken : Prop) : Prop :=
      (taken → GoesTo c t [ra, rb] 2 (BitVec.ofInt 32 (pc.toNat + 4 * disp.toInt)) s) ∧ (¬ taken → GoesTo c t [ra, rb] 1 (pc + 4) s)
    goes (.beq t ra rb disp) (a = b) ∧ goes (.bne t ra rb disp) (a ≠ b) ∧
    goes (.blts t ra rb disp) (a.toInt < b.toInt) ∧ goes (.bges t ra rb disp) (b.toInt ≤ a.toInt) ∧
    goes (.bltu t ra rb disp) (a.toNat < b.toNat) ∧ goes (.bgeu t ra rb disp) (b.toNat ≤ a.toNat) ∧
    (∀ far : BitVec 21, Does (.jmpl t rd far) s (fun s' => (s'.tile t).reg rd = wrote rd (pc + 4) ∧
      RegStep t [] [rd] 2 (BitVec.ofInt 32 (pc.toNat + 4 * far.toInt)) s s')) ∧
    ((BitVec.ofInt 32 (a.toNat + disp.toInt)).toNat % 4 = 0 →
      Does (.jmpr t rd ra disp) s (fun s' => (s'.tile t).reg rd = wrote rd (pc + 4) ∧
        RegStep t [ra] [rd] 2 (BitVec.ofInt 32 (a.toNat + disp.toInt)) s s')) ∧
    ((BitVec.ofInt 32 (a.toNat + disp.toInt)).toNat % 4 ≠ 0 → Faults (.jmpr t rd ra disp) t 0 Code.misaligned 0 s)

/-- On a tile that can issue. END parks the tile with cause TOKEN_WAIT while a unit has an operation left; with every unit idle, no relay owed, no binding and no window draining, and another tile of its job not yet ended, it ends: STATE STOPPED, every window closed, an open port closed, and a port in reset still in reset, which is the model's choice (log 90). BRK halts the tile after the BRK in Tahr debug mode and faults with BREAKPOINT otherwise. CTR writes the beat counter, the module time, the stepping id word or the tile id, and is illegal for any other field. HINT records the class for its AHEAD, classes above 4 as 4 (R113), and changes no register. Commands that it says complete, under conditions on state and operands alone: END, BRK, CTR, HINT. -/
def Obligations.ControlInstructions : Prop :=
  ∀ (s : State) (t : Nat), CanIssue t [] s →
    let T := s.tile t
    (T.vec.relays.any (fun e => e.2.owed) = false → T.unitsDone = false →
      Does (.endProgram t) s (fun s' => TileOnly t s s' ∧ (s'.tile t).run = .parked ∧ (s'.tile t).park.cause = 0x02 ∧
        (s'.tile t).regs = T.regs ∧ (s'.tile t).pc = T.pc)) ∧
    (T.vec.relays.any (fun e => e.2.owed) = false → T.unitsDone = true → T.vec.slots = [] → T.draining = false →
      (s.jobOfTile t = 0 ∨ ∃ u ∈ s.usedTiles (s.jobOfTile t), u ≠ t ∧ (s.tile u).ended = false) →
      Does (.endProgram t) s (fun s' => (s'.tile t).run = .stopped ∧ (s'.tile t).ended = true ∧
        (∀ w, ((s'.tile t).window w).opened = false) ∧ (T.port.state = .opened → (s'.tile t).port.state = .closed) ∧
        (T.port.state = .reset → (s'.tile t).port.state = .reset) ∧ (s'.tile t).regs = T.regs ∧ ∀ a, readByte s'.mem a = readByte s.mem a)) ∧
    (T.tahrMode = true →
      Does (.brk t) s (fun s' => (s'.tile t).run = .halted ∧ (s'.tile t).pc = T.pc + 4 ∧ (s'.tile t).regs = T.regs ∧
        (s.partOf t ≠ 0 → (s'.part (s.partOf t)).halt = true) ∧ ∀ u, u ≠ t → s'.tile u = s.tile u)) ∧
    (T.tahrMode = false → Faults (.brk t) t 0 Code.breakpoint 0 s) ∧
    (∀ rd r1 : Reg, rd.val % 2 = 0 → r1.val = rd.val + 1 →
      Does (.ctr t rd 0 0) s (fun s' => (s'.tile t).reg rd = wrote rd (word (T.beats % 2 ^ 32)) ∧
        (s'.tile t).reg r1 = word (T.beats / 2 ^ 32) ∧ RegStep t [] [rd, r1] 1 (T.pc + 4) s s') ∧
      Does (.ctr t rd 0 1) s (fun s' => (s'.tile t).reg rd = wrote rd (word (s.time % 2 ^ 32)) ∧
        (s'.tile t).reg r1 = word (s.time / 2 ^ 32) ∧ RegStep t [] [rd, r1] 1 (T.pc + 4) s s')) ∧
    (∀ rd : Reg, WritesReg (.ctr t rd 0 2) t [] rd (word (0x09 * 2 ^ 16 + s.stepMajor.toNat * 2 ^ 8 + s.stepMinor.toNat)) 1 s ∧
      WritesReg (.ctr t rd 0 3) t [] rd (word t) 1 s) ∧
    (∀ (rd ra : Reg) (imm : BitVec 16), (ra ≠ 0 ∨ 3 < imm.toNat ∨ (imm.toNat < 2 ∧ rd.val % 2 = 1)) →
      Faults (.ctr t rd ra imm) t 0 Code.illegal 0 s) ∧
    (∀ imm : BitVec 16, Does (.hint t imm) s (fun s' => TileOnly t s s' ∧ (s'.tile t).regs = T.regs ∧ (s'.tile t).pc = T.pc + 4 ∧
      ∀ ahead, Sparse.get 0 (s'.tile t).hints ahead =
        if ahead = imm.toNat / 16 % 16 then min 4 (imm.toNat % 16) else Sparse.get 0 T.hints ahead))

/-- On a tile that can issue. For a token of unit 1 to 5 whose SEQ names operation k of the n issued, less than 2^28 behind: it is seen when no operation up to k is outstanding; TTEST writes 1 if it is seen and else 0; TWAIT goes on if it is seen and else parks with TOKEN_WAIT. A token of no unit, or of an operation not yet issued, faults both with TOKEN_INVALID. TLAST writes the last token of the unit that RA names and faults for any other RA. Commands that it says complete, under conditions on state and operands alone: TWAIT, TTEST, TLAST. -/
def Obligations.TokenInstructions : Prop :=
  ∀ (s : State) (t : Nat) (rd ra : Reg), CanIssue t [ra] s →
    let T := s.tile t
    let keeps (s' : State) : Prop := TileOnly t s s' ∧ (s'.tile t).regs = T.regs
    (∀ u k, 1 ≤ u → u ≤ 5 → k ≤ T.count u → T.count u < k + 2 ^ 28 → T.reg ra = word (u * 2 ^ 29 + k % 2 ^ 29) →
      ((∀ m ∈ T.outstanding u, k < m) →
        Does (.ttest t rd ra) s (fun s' => TileOnly t s s' ∧ (s'.tile t).reg rd = wrote rd 1 ∧ (s'.tile t).pc = T.pc + 4 ∧
          ∀ r, r ≠ rd → (s'.tile t).reg r = T.reg r) ∧
        Does (.twait t ra) s (fun s' => keeps s' ∧ (s'.tile t).run = .running ∧ (s'.tile t).pc = T.pc + 4)) ∧
      ((∃ m ∈ T.outstanding u, m ≤ k) →
        WritesReg (.ttest t rd ra) t [ra] rd 0 1 s ∧
        Parks (.twait t ra) t 0x02 s)) ∧
    ((T.reg ra).toNat / 2 ^ 29 = 0 ∨ 5 < (T.reg ra).toNat / 2 ^ 29 →
      Faults (.ttest t rd ra) t 0 Code.tokenInvalid 0 s ∧ Faults (.twait t ra) t 0 Code.tokenInvalid 0 s) ∧
    (∀ u d, 1 ≤ u → u ≤ 5 → 0 < d → d ≤ 2 ^ 28 → T.reg ra = word (u * 2 ^ 29 + (T.count u + d) % 2 ^ 29) →
      Faults (.ttest t rd ra) t 0 Code.tokenInvalid 0 s ∧ Faults (.twait t ra) t 0 Code.tokenInvalid 0 s) ∧
    (1 ≤ (T.reg ra).toNat → (T.reg ra).toNat ≤ 5 →
      WritesReg (.tlast t rd ra) t [ra] rd (word ((T.reg ra).toNat * 2 ^ 29 + T.count (T.reg ra).toNat % 2 ^ 29)) 1 s) ∧
    ((T.reg ra).toNat = 0 ∨ 5 < (T.reg ra).toNat → Faults (.tlast t rd ra) t 0 Code.tokenInvalid 0 s)

/-- On a tile that can issue, at block offset RA + sign-extended IMM: CRR writes to RD the register's value once RA may be read; the block's offsets 0x000, 0x010, 0x020, 0x024 and 0x904 read the tile id, the last fault's UNIT with a CODE of 0, which is the model's choice for a tile that has not faulted (log 91), the region's base and size and the seed's high word. CRW writes RD: STEP_CTR and LOSS_VALUE take it, and the read-only TILE_ID ignores it. An offset that is no multiple of 4 faults with MISALIGNED, one above 0xFFF with REGION_BOUND. Where the block lists no register, CRR reads what R92 says. Commands that it says complete, under conditions on state and operands alone: CRR, CRW. -/
def Obligations.OwnRegisterAccess : Prop :=
  ∀ (s : State) (t : Nat) (rd ra : Reg) (imm : BitVec 16) (off : Nat), CanIssue t [ra, rd] s →
    off = (((s.tile t).reg ra).toNat + imm.toInt) % 2 ^ 32 →
    let T := s.tile t
    let reads (v : Word) : Prop := WritesReg (.crr t rd ra imm) t [ra] rd v 1 s
    (off = 0x000 → reads (word t)) ∧
    (off = 0x010 → reads (word (T.faultUnit * 2 ^ 8))) ∧
    (off = 0x020 → reads (word T.regionBase)) ∧ (off = 0x024 → reads (word T.regionSize)) ∧ (off = 0x904 → reads T.vec.seedHi) ∧
    (off % 4 = 0 → off ≤ 0xFFF → Does (.crr t rd ra imm) s (fun s' => TileOnly t s s' ∧
      (s'.tile t).reg rd = wrote rd (word (tileReg t (stallTile t [ra] s) off)) ∧ (s'.tile t).pc = T.pc + 4 ∧
      ∀ r, r ≠ rd → (s'.tile t).reg r = T.reg r)) ∧
    (off = 0x908 → Does (.crw t rd ra imm) s (fun s' => TileOnly t s s' ∧ (s'.tile t).vec = { T.vec with stepCtr := T.reg rd } ∧
      (s'.tile t).regs = T.regs ∧ (s'.tile t).pc = T.pc + 4)) ∧
    (off = 0x940 → Does (.crw t rd ra imm) s (fun s' => TileOnly t s s' ∧ (s'.tile t).loss = { T.loss with value := T.reg rd } ∧
      (s'.tile t).regs = T.regs ∧ (s'.tile t).pc = T.pc + 4)) ∧
    (off = 0x000 → GoesTo (.crw t rd ra imm) t [ra, rd] 1 (T.pc + 4) s) ∧
    (off % 4 ≠ 0 → Faults (.crr t rd ra imm) t 0 Code.misaligned (ctrlBase + t * 0x1000 + off) s ∧
      Faults (.crw t rd ra imm) t 0 Code.misaligned (ctrlBase + t * 0x1000 + off) s) ∧
    (off % 4 = 0 → 0xFFF < off → Faults (.crr t rd ra imm) t 0 Code.regionBound (ctrlBase + t * 0x1000 + off) s ∧
      Faults (.crw t rd ra imm) t 0 Code.regionBound (ctrlBase + t * 0x1000 + off) s)

/-- For every command that is an instruction of tile t, t a tile of the grade. While the tile is stopped, parked, faulted or halted, or while an SWAIT of it is on its way to its object, the state does not change: the command then is no event of the hardware, and that it does nothing is the model's choice (log 2). Where it is RUNNING with no register awaited and no SWAIT on its way, and its program counter lies outside its code range, it faults with REGION_BOUND of the scalar core at that offset, whatever the instruction. ILLEGAL_INSTRUCTION completes, and the fault is its own effect: on a tile that can issue, for every word that no command of the tile has, or whose fields break a field rule of its section, exec answers a next state in which the tile is FAULTED with ILLEGAL_INSTRUCTION, the UNIT of the word's OP and the word's offset as FAULT_PC, its registers, every byte and every other tile as they were; the word 0 is such a word, of UNIT 0. A word that is a legal instruction is no illegal word, and the command does nothing: that is the model's choice (log 2). Commands that it says complete, under conditions on state and operands alone: ILLEGAL_INSTRUCTION. -/
def Obligations.IssueConditions : Prop :=
  (∀ (s : State) (i : Instr) (t : Nat), issuerOf i = some t → t < s.tileCount →
    ((s.tile t).run ≠ .running ∨ (s.tile t).syncTravel = true → exec i s = .next s) ∧
    ((s.tile t).run = .running → (s.tile t).syncTravel = false → (s.tile t).awaits = [] → (s.tile t).fetchOk = false →
      Faults i t 0 Code.regionBound (devOf t (s.tile t).pc.toNat) s)) ∧
  ∀ (s : State) (t : Nat), CanIssue t [] s →
    (∀ w : Word, (∀ i, tileInstr t w.toNat = some i → fieldsLegal i = false) →
      let op := w.toNat / 2 ^ 26
      let unit := if op = 0x30 then 1 else if op = 0x31 ∨ op = 0x32 then 2 else if op = 0x33 ∨ op = 0x34 then 3
        else if 0x37 ≤ op ∧ op ≤ 0x3A then 4 else if op = 0x35 then 5 else 0
      ∃ s', exec (.illegalInstruction t w) s = .next s' ∧ Faulted t unit Code.illegal (s.tile t).pc 0 s s') ∧
    (∃ s', exec (.illegalInstruction t 0) s = .next s' ∧ Faulted t 0 Code.illegal (s.tile t).pc 0 s s') ∧
    (∀ (w : Word) (i : Instr), tileInstr t w.toNat = some i → fieldsLegal i = true → exec (.illegalInstruction t w) s = .next s)

/-- For every word below 2^32 and every tile t: an instruction that the word decodes to has that word and no other, so no bit is dropped and no two words share an instruction; and every legal word decodes. Every command that is an instruction of tile t has a word, but for the two forms of SREAD that stand for a lost packet (log 95), and no other command has one. For every one of them, whatever its operands: its word is below 2^32, the word decodes for t to that instruction with every operand at every value, and the word is legal exactly where the instruction meets the field rules of its section. -/
def Obligations.TileWordRoundTrip : Prop :=
  ∀ (t w : Nat), w < 2 ^ 32 →
    (∀ i, tileInstr t w = some i → tileCode i = some w) ∧ (wordLegal w = true → ∃ i, tileInstr t w = some i) ∧
    (∀ (i : Instr) (v : Nat), issuerOf i = some t → tileCode i = some v →
      v < 2 ^ 32 ∧ tileInstr t v = some i ∧ (wordLegal v = true ↔ fieldsLegal i = true)) ∧
    (∀ i : Instr, issuerOf i = some t → (tileCode i = none ↔
      ∃ rd ra, i = .sread t rd ra .request ∨ i = .sread t rd ra .answer)) ∧
    (∀ i : Instr, issuerOf i = none → tileCode i = none)

/-- On a tile that can issue, not in Tahr mode, whose 64-byte descriptor lies aligned, within one line and within the region and holds no error (AccessChecks has words in error and Tahr mode): with fewer than four operations outstanding and a descriptor that passes the checks of Table 5-5, the operation is appended to the matrix queue with the next number, RD receives its token and nothing else changes; a descriptor that fails a check faults with UNIT 1 and that check's code; with four outstanding the tile parks at the MXI whatever RA is, before any check of the descriptor, which is the model's choice (log 15). Commands that it says complete, under conditions on state and operands alone: MXI. -/
def Obligations.MatrixIssue : Prop :=
  ∀ (s : State) (t : Nat) (rd ra : Reg), CanIssue t [ra] s →
    let T := s.tile t
    let off := (T.reg ra).toNat
    let d := MxDesc.ofNat (readNat s.mem (devOf t off) 64)
    (T.mx.length < 4 → Accessible t off 64 s →
      (checkMx t T d = none → Does (.mxi t rd ra) s (fun s' => TileOnly t s s' ∧
        (∃ o : MxOp, (s'.tile t).mx = T.mx ++ [o] ∧ o.num = T.count 1 + 1 ∧ o.desc = d ∧ o.pc = T.pc ∧ o.emitting = false) ∧
        (s'.tile t).count 1 = T.count 1 + 1 ∧ (s'.tile t).reg rd = wrote rd (word (2 ^ 29 + (T.count 1 + 1) % 2 ^ 29)) ∧
        (∀ r, r ≠ rd → (s'.tile t).reg r = T.reg r) ∧ (s'.tile t).pc = T.pc + 4)) ∧
      (∀ f, checkMx t T d = some f → Faults (.mxi t rd ra) t 1 f.code f.addr s)) ∧
    (4 ≤ T.mx.length → Parks (.mxi t rd ra) t 0x06 s)

/-- For a running tile and its oldest operation. That the outputs form, and a fault of them is raised, at one of these two commands is the model's choice (log 9); what the outputs are is in ArithmeticRules. Not yet in emission, with outputs that form without a fault: MATRIX_OP_COMPLETE with DEST 0 leaves row m of the outputs little-endian at OUT_BASE + m times OUT_PITCH where no later row overlaps it, changes no other byte, and the operation leaves the queue; FTQ_PUSH with DEST 1 and a finished-tile queue of fewer than eight appends the first 1,024 outputs and keeps the rest for later pushes. In emission, MATRIX_OP_COMPLETE with DEST 0 writes the lines that are left, and FTQ_PUSH appends the next entry; with every entry pushed, MATRIX_OP_COMPLETE ends the operation. A fault of the outputs faults the tile with UNIT 1 at the issuing instruction, whichever of the two commands comes. Commands that it says complete, under conditions on state and operands alone: MATRIX_OP_COMPLETE, FTQ_PUSH. -/
def Obligations.MatrixCompletion : Prop :=
  ∀ (s : State) (t : Nat) (o : MxOp) (r : List MxOp), t < s.tileCount → (s.tile t).run = .running → (s.tile t).mx = o :: r →
    let T := s.tile t
    let row (m : Nat) : Nat := devOf t (o.desc.outBase + m * o.desc.outPitch)
    (o.emitting = false →
      (∀ x s1, o.desc.dest = false → mxCompute t o s = .ok (x, s1) →
        Does (.matrixOpComplete t) s (fun s' => (s'.tile t).mx = r ∧
          (∀ a, (∀ m < x.rows.length, a < row m ∨ row m + 4 * (x.rows.getD m []).length ≤ a) → readByte s'.mem a = readByte s.mem a) ∧
          ((∀ m < x.rows.length, 4 * (x.rows.getD m []).length ≤ o.desc.outPitch) → ∀ m < x.rows.length, ∀ n < (x.rows.getD m []).length,
            readNat s'.mem (row m + 4 * n) 4 = ((x.rows.getD m []).getD n 0).toNat))) ∧
      (∀ x s1 e rest, o.desc.dest = true → mxCompute t o s = .ok (x, s1) → chunks 1024 x.rows.flatten = e :: rest →
        T.ftq.entries.length < 8 → T.vec.queue = [] →
        Does (.ftqPush t) s (fun s' => (s'.tile t).ftq = { T.ftq with entries := T.ftq.entries ++ [e] } ∧
          (s'.tile t).mx = { o with emitting := true, rest := rest, beats := x.beats, idle := x.idle } :: r ∧ s'.mem = s.mem)) ∧
      (∀ f s1, mxCompute t o s = .error (f, s1) → Does (.matrixOpComplete t) s (fun s' => Faulted t 1 f.code o.pc f.addr s s') ∧
        (o.desc.dest = true → Does (.ftqPush t) s (fun s' => Faulted t 1 f.code o.pc f.addr s s')))) ∧
    (o.emitting = true → o.desc.dest = false → (∀ l ∈ o.rest, l.length = 32) → o.rest.length ≤ 2 * o.desc.m → 256 ≤ o.desc.outPitch →
      Does (.matrixOpComplete t) s (fun s' => (s'.tile t).mx = r ∧
        let at_ (i : Nat) : Nat := devOf t ({ o with rest := o.rest.drop i } : MxOp).lineAt
        (∀ i < o.rest.length, ∀ n < 32, readNat s'.mem (at_ i + 4 * n) 4 = ((o.rest.getD i []).getD n 0).toNat) ∧
        ∀ a, (∀ i < o.rest.length, a < at_ i ∨ at_ i + 128 ≤ a) → readByte s'.mem a = readByte s.mem a)) ∧
    (o.desc.dest = true → o.emitting = true →
      (o.rest = [] → Does (.matrixOpComplete t) s (fun s' => (s'.tile t).mx = r ∧ (s'.tile t).ftq = T.ftq ∧ s'.mem = s.mem)) ∧
      (∀ e rest, o.rest = e :: rest → T.ftq.entries.length < 8 → T.vec.queue = [] →
        Does (.ftqPush t) s (fun s' => (s'.tile t).ftq = { T.ftq with entries := T.ftq.entries ++ [e] } ∧
          (s'.tile t).mx = { o with rest := rest } :: r ∧ TileOnly t s s')))

/-- On a tile that can issue. SETVL completes: VLEN is the smaller of RA and 65,536, and RD its copy. VSTR, not in Tahr mode and with a 16-byte descriptor that lies within one line and the region and holds no error. With fewer than 16 entries in use and a descriptor that meets R196 it completes: the slot's binding at issue is the descriptor at position 0; with an empty vector queue and a slot not used as a destination it is the binding in force too, its counters at 0; behind an operation that has elements or is done, it stands at the end of the queue. No register changes. A descriptor that does not meet R196 faults with VX_STREAM. With 16 entries in use the tile parks at the VSTR whatever RA is, before any check of the descriptor, which is the model's choice (log 15). Commands that it says complete, under conditions on state and operands alone: SETVL, VSTR. -/
def Obligations.VectorBinding : Prop :=
  ∀ (s : State) (t : Nat) (rd ra : Reg) (k : Fin 6), CanIssue t [ra] s →
    let T := s.tile t
    let off := (T.reg ra).toNat
    let d := StreamDesc.ofNat (readNat s.mem (devOf t off) 16)
    Does (.setvl t rd ra) s (fun s' => TileOnly t s s' ∧ (s'.tile t).vec = { T.vec with vlen := min off 65536 } ∧
      (s'.tile t).reg rd = wrote rd (word (min off 65536)) ∧ (∀ r, r ≠ rd → (s'.tile t).reg r = T.reg r) ∧ (s'.tile t).pc = T.pc + 4) ∧
    (16 ≤ T.depth 2 → Parks (.vstr t k ra) t 0x06 s) ∧
    (T.depth 2 < 16 → Accessible t off 1 s → off + 16 ≤ T.regionBase + T.regionSize → off % 128 + 16 ≤ 128 → CleanRange (devOf t off) 16 s →
      (d.ok = true →
        (T.vec.queue = [] → (T.execSlot k.val).usedDst = false →
          Does (.vstr t k ra) s (fun s' => TileOnly t s s' ∧ (s'.tile t).issueSlot k.val = { desc := some d } ∧
            (s'.tile t).execSlot k.val = { desc := some d } ∧ (s'.tile t).vec.queue = [] ∧
            (∀ j : Fin 6, j ≠ k → (s'.tile t).issueSlot j.val = T.issueSlot j.val ∧ (s'.tile t).execSlot j.val = T.execSlot j.val) ∧
            (s'.tile t).regs = T.regs ∧ (s'.tile t).pc = T.pc + 4)) ∧
        (∀ o q, T.vec.queue = .op o :: q → o.done = true ∨ o.vlen ≠ 0 →
          Does (.vstr t k ra) s (fun s' => TileOnly t s s' ∧ (s'.tile t).issueSlot k.val = { desc := some d } ∧
            (s'.tile t).vec.queue = T.vec.queue ++ [.bind k.val d T.pc] ∧ (s'.tile t).vec.slots = T.vec.slots ∧
            (s'.tile t).regs = T.regs ∧ (s'.tile t).pc = T.pc + 4))) ∧
      (d.ok = false → Faults (.vstr t k ra) t 2 Code.vxStream 0 s))

/-- For each of the 37 vector operations of Table 7-3, with any selectors and flags, on a tile that can issue, not in Tahr mode. Selectors that break the field rules fault with ILLEGAL_INSTRUCTION. With a full queue of 16 the tile parks, before the checks of its operands, which is the model's choice (log 15). Else a failing check of its operands faults with that check's code and UNIT 2. Else, with VLEN not 0 and an operation of elements or nothing at the head of the queue, it is appended to the queue as operation number n + 1 with the copied VLEN, step counter and seed and its operands, and no register, no byte and no other tile changes. Commands that it says complete, under conditions on state and operands alone: VMOV, VADD, VSUB, VMUL, VFMA, VMIN, VMAX, VABS, VNEG, VDIV, VSQRT, VRELU, VCLAMP, VEXP, VEXP2, VLOG, VRCP, VRSQRT, VTANH, VSIGM, VGELU, VSILU, VCMPGT, VCMPGE, VCMPEQ, VCMPNE, VSEL, VSUM64, VSUM64A, VSSQ64, VSSQ64A, VDOT64, VDOT64A, VMAXR, VSEGR, VSEL24, VSEL24Q. -/
def Obligations.VectorIssue : Prop :=
  ∀ (s : State) (t : Nat) (dst sa sb sc : BitVec 4) (p z : Bool), CanIssue t [] s → (s.tile t).tahrMode = false →
    let vops : List ((Nat → BitVec 4 → BitVec 4 → BitVec 4 → BitVec 4 → Bool → Bool → Instr) × Vop) :=
      [(.vmov, .mov), (.vadd, .add), (.vsub, .sub), (.vmul, .mul), (.vfma, .fma), (.vmin, .min), (.vmax, .max), (.vabs, .abs),
       (.vneg, .neg), (.vdiv, .div), (.vsqrt, .sqrt), (.vrelu, .relu), (.vclamp, .clamp), (.vexp, .exp), (.vexp2, .exp2),
       (.vlog, .log), (.vrcp, .rcp), (.vrsqrt, .rsqrt), (.vtanh, .tanh), (.vsigm, .sigm), (.vgelu, .gelu), (.vsilu, .silu),
       (.vcmpgt, .cmpgt), (.vcmpge, .cmpge), (.vcmpeq, .cmpeq), (.vcmpne, .cmpne), (.vsel, .sel), (.vsum64, .sum64), (.vsum64a,
       .sum64a), (.vssq64, .ssq64), (.vssq64a, .ssq64a), (.vdot64, .dot64), (.vdot64a, .dot64a), (.vmaxr, .maxr), (.vsegr,
       .segr), (.vsel24, .sel24), (.vsel24q, .sel24q)]
    ∀ e ∈ vops,
    let v := e.2
    let i := e.1 t dst sa sb sc p z
    let T := s.tile t
    let u := T.vopUse v dst sa sb sc p z
    let legal := vopFieldsOk v dst.toNat sa.toNat sb.toNat sc.toNat p z = true
    (¬ legal → Faults i t 2 Code.illegal 0 s) ∧
    (legal → 16 ≤ T.depth 2 → Parks i t 0x06 s) ∧
    (legal → T.depth 2 < 16 → ∀ f, u.fault t T = some f → Faults i t 2 f.code f.addr s) ∧
    (legal → T.depth 2 < 16 → u.fault t T = none → T.vec.vlen ≠ 0 →
      (T.vec.queue = [] ∨ ∃ o r, T.vec.queue = .op o :: r ∧ o.vlen ≠ 0) →
      Does i s (fun s' => TileOnly t s s' ∧ (s'.tile t).count 2 = T.count 2 + 1 ∧
        (∃ o : VecOp, (s'.tile t).vec.queue = T.vec.queue ++ [.op o] ∧ o.vop = v ∧ o.num = T.count 2 + 1 ∧ o.pc = T.pc ∧
          o.vlen = T.vec.vlen ∧ o.step = T.vec.stepCtr.toNat ∧ o.seed = T.vec.seedLo.toNat + T.vec.seedHi.toNat * 2 ^ 32 ∧
          o.dst = (T.operand dst.toNat).getD .none ∧ o.sa = (T.operand sa.toNat).getD .none ∧
          o.sb = (T.operand sb.toNat).getD .none ∧ o.sc = (T.operand sc.toNat).getD .none ∧ o.z = z ∧ o.done = false) ∧
        (s'.tile t).regs = T.regs ∧ (s'.tile t).pc = T.pc + 4))

/-- For a running tile, no word in error and the records used up to date. One element-wise operation without a relay slot: sources are streams of any format or the finished-tile queue. Every active element of a destination that is not E2M1 takes the result of Table 7-3 converted with the destination's record and rounding; a masked one becomes +0 with Z = 1 and stays with Z = 0; no other byte changes. VEC_SAT grows by the active conversions that saturated, VEC_NONFIN by the active elements with a non-finite source or result, and the destination slot's SAT and NONFIN by the saturations and non-finite results, up to their top. Into an E2M1 stream, each block of 32 takes its scale byte, 0xFF with codes 0 where an active element is non-finite, else e + 127 for the smallest e from -127 to 127 with the greatest active magnitude at most 6 x 2^e, -127 where that is 0; its active elements are converted as x / 2^e and masked ones are +0. Conversion into E4M3, E5M2 and bfloat16 saturates at the largest finite value with the source's sign. A chain of two: the second member reads through the relay slot the first one's results as binary32, masked ones +0, and the first leaves the queue. That all elements are written in one completion, the sources read as they stood, is the model's choice (log 9). An operation whose effects are already there only leaves the queue. FTQ_CLR with nothing in the queue clears the finished-tile queue's three counters. Commands that it says complete, under conditions on state and operands alone: VECTOR_OP_COMPLETE, FTQ_CLR. -/
def Obligations.VectorCompletion : Prop :=
  let plainVop (v : Vop) : Prop := v.isReduce = false ∧ v.isSel24 = false ∧ v ≠ .segr
  let act (t : Nat) (o : VecOp) (s : State) (i : Nat) : Bool := match o.pred with | .slot _ d pos => s.elemCode t d (pos + i) == 1 | _ => true
  let noRelay (x : VOperand) : Prop := ∀ k, x ≠ .relay k
  (∀ (s : State) (t : Nat) (o : VecOp), VecReady t [o] s → o.Rolled t [] s → plainVop o.vop → noRelay o.sa → noRelay o.sb → noRelay o.sc →
    ∀ k d pos, o.dst = .slot k d pos →
    let T := s.tile t
    let a (i : Nat) : FVal := o.input t s o.sa i
    let b (i : Nat) : FVal := o.input t s o.sb i
    let c (i : Nat) : FVal := o.input t s o.sc i
    let res (i : Nat) : FVal := o.vop.apply (a i) (b i) (c i)
    let active := (List.range o.vlen).filter (act t o s)
    let counted (sat : Nat) (s' : State) : Prop :=
      (s'.tile t).vec.satCnt = (T.vec.satCnt + sat) % 2 ^ 64 ∧
      (s'.tile t).vec.nonfinCnt = (T.vec.nonfinCnt + (active.filter (fun i =>
        (a i).nonfinite || (b i).nonfinite || (c i).nonfinite || (res i).nonfinite)).length) % 2 ^ 64 ∧
      ((∀ x ∈ [o.sa, o.sb, o.sc], ∀ k' d' p', x = .slot k' d' p' → k' ≠ k) →
        let old : ExecSlot := Sparse.get {} T.vec.slots k
        let now : ExecSlot := Sparse.get {} (s'.tile t).vec.slots k
        now.sat = min (2 ^ 32 - 1) (old.sat + sat) ∧
        now.nonfin = min (2 ^ 32 - 1) (old.nonfin + (active.filter (fun i => (res i).nonfinite)).length))
    (d.fmt ≠ 0 → d.Placed pos o.vlen →
      let conv (i : Nat) : Nat × Bool :=
        convElem d (s.recordOf t d) (d.rounding (s.recordOf t d) o.seed o.step (pos + i)) 0 (res i)
      Does (.vectorOpComplete t) s (fun s' => (s'.tile t).vec.queue = [] ∧
        ElemsWritten t d pos o.vlen (fun i => if act t o s i then some (conv i).1 else if o.z then some 0 else none) s s' ∧
        counted (active.filter (fun i => (conv i).2)).length s')) ∧
    (d.fmt = 0 → ∀ bs, o.blk k = some bs → bs.fmt = 7 → pos % 32 = 0 → d.BlocksApart bs pos o.vlen →
      let block (i : Nat) : List Nat := active.filter (fun j => decide (j / 32 = i / 32))
      let bad (i : Nat) : Bool := (block i).any (fun j => (res j).nonfinite)
      let fits (i : Nat) (e : Int) : Bool := (block i).all (fun j => !FVal.lt false (.fin false 3 (e + 1)) (res j).abs)
      Does (.vectorOpComplete t) s (fun s' => (s'.tile t).vec.queue = [] ∧
        (∀ i < o.vlen,
          let sc := s'.elemCode t bs ((pos + i) / 32)
          let e : Int := (sc : Int) - 127
          (bad i = true → sc = 0xFF ∧ s'.elemCode t d (pos + i) = 0) ∧
          (bad i = false → sc ≤ 254 ∧
            (if (block i).all (fun j => (res j).isZero) then sc = 0 else (fits i e = true ∨ sc = 254) ∧ (sc = 0 ∨ fits i (e - 1) = false)) ∧
            s'.elemCode t d (pos + i) = if act t o s i then
              (convElem d (s.recordOf t d) (d.rounding (s.recordOf t d) o.seed o.step (pos + i)) e (res i)).1 % 16 else 0)) ∧
        (∀ x, (∀ i < o.vlen, d.Misses t (pos + i) x ∧ bs.Misses t (pos / 32 + i / 32) x) → readByte s'.mem x = readByte s.mem x)))) ∧
  (∀ (s : State) (t : Nat) (p q : VecOp), VecReady t [p, q] s → p.Rolled t [] s → q.Rolled t [] s → p.chain = q.chain → p.vlen = q.vlen →
    plainVop p.vop → plainVop q.vop → noRelay p.sa → noRelay p.sb → noRelay p.sc → noRelay q.sb → noRelay q.sc → q.sb ≠ .ftq → q.sc ≠ .ftq →
    ∀ k, p.dst = .relay k → q.sa = .relay k → ∀ k' d pos, q.dst = .slot k' d pos → d.fmt ≠ 0 → d.Placed pos q.vlen →
    let mid (i : Nat) : FVal := if act t p s i then
        f32 (fmtF32.convert .nearest (p.vop.apply (p.input t s p.sa i) (p.input t s p.sb i) (p.input t s p.sc i))).1 else fzero
    Does (.vectorOpComplete t) s (fun s' => (s'.tile t).vec.queue = [.op { q with done := true }] ∧
      ElemsWritten t d pos q.vlen (fun i => if act t q s i then
          some (convElem d (s.recordOf t d) (d.rounding (s.recordOf t d) q.seed q.step (pos + i)) 0
            (q.vop.apply (mid i) (q.input t s q.sb i) (q.input t s q.sc i))).1
        else if q.z then some 0 else none) s s')) ∧
  (∀ f ∈ [fmtE4M3, fmtE5M2, fmtBf16, fmtE2M1], ∀ (neg : Bool) (m : Nat) (e : Int) (mode : Rounding),
    f.top < f.roundMag mode m e → f.convert mode (.fin neg m e) = (f.signed neg f.top, true)) ∧
  (∀ (s : State) (t : Nat) (o : VecOp), t < s.tileCount → (s.tile t).run = .running → (s.tile t).vec.queue = [.op o] → o.done = true →
    Does (.vectorOpComplete t) s (fun s' => (s'.tile t).vec.queue = [] ∧ s'.mem = s.mem)) ∧
  (∀ s : State, ∀ t, t < s.tileCount → (s.tile t).run = .running → (s.tile t).vec.queue = [] →
    Does (.ftqClr t) s (fun s' => TileOnly t s s' ∧
      (s'.tile t).vec = { (s.tile t).vec with ftqAmax := fzero, ftqNonfin := 0, ftqSat := 0 } ∧ (s'.tile t).regs = (s.tile t).regs))

/-- For a running tile with one operation, no word in error. Reductions with VLEN not 0 and a binary64 or binary32 destination: the four lanes take the active terms in index order, each addition rounded to binary64, and combine pairwise; lane 0 starts with the old destination in the accumulate forms, which with every element masked is the result; VMAXR takes the maximum over the active elements from -infinity. The result goes, rounded to nearest, to one element, and no other byte changes. VSEL24 and VSEL24Q: an active output takes the element of SA that its quartet's IDX names (R163), converted; a masked one is +0 or stays; an active output with IDX0 >= IDX1 faults with VX_META. VSEGR: the first chunk that breaks a condition of R211 faults with VX_CHUNK at its address (0 in the operand cache); else every row that a chunk has an element of takes the sum of R210 over the lanes, the five levels and the chunks in order, and no other byte changes. A record not yet up to date for its binding: it faults with VX_SCALE at its address where it is not well formed (R229), has another FMT, or its STEP is not older than the operation's by less than 2^31 nor equal; else the operation completes and, where the STEP was older, the record has rolled: HIST, HEAD, CUR_AMAX, STEP and, for E4M3 and E5M2 that are not FIXED, the smallest SCALE_EXP of R227, every other field as it was. That an operation completes in one step is the model's choice (log 9). A record in the operand cache has the address 0 by log 21; how VSEL24 reads its metadata is log 28, what it counts log 80; when the panel and the records are read, and that a sum starts from its first term, are log 94. Commands that it says complete, under conditions on state and operands alone: VECTOR_OP_COMPLETE. -/
def Obligations.VectorReductionsAndRecords : Prop :=
  let act (t : Nat) (o : VecOp) (s : State) (i : Nat) : Bool := match o.pred with | .slot _ d pos => s.elemCode t d (pos + i) == 1 | _ => true
  let slotOrFtq (x : VOperand) : Prop := ∀ k, x ≠ .relay k
  (∀ (s : State) (t : Nat) (o : VecOp), VecReady t [o] s → o.Rolled t [] s → o.vop.isReduce = true → 0 < o.vlen →
    slotOrFtq o.sa → slotOrFtq o.sb → ∀ k d pos, o.dst = .slot k d pos → (d.fmt = 4 ∨ d.fmt = 5) →
    let a (i : Nat) : FVal := o.input t s o.sa i
    let b (i : Nat) : FVal := o.input t s o.sb i
    let x (i : Nat) : FVal := if o.vop = .ssq64 ∨ o.vop = .ssq64a then (a i).mul (a i)
      else if o.vop = .dot64 ∨ o.vop = .dot64a then (a i).mul (b i) else a i
    let active := (List.range o.vlen).filter (act t o s)
    let start : FVal := if o.vop = .sum64a ∨ o.vop = .ssq64a ∨ o.vop = .dot64a then
        (if d.fmt = 5 then fmtF64.decode (s.elemCode t d pos) else f32 (s.elemCode t d pos)) else fzero
    let lane (n : Nat) : FVal := (active.filter (fun i => i % 4 == n)).foldl (fun acc i => rne64 (acc.add (x i))) (if n = 0 then start else fzero)
    let result : FVal := if o.vop = .maxr then active.foldl (fun m i => m.fmax (a i)) (.inf true)
      else if active = [] then start
      else rne64 ((rne64 ((lane 0).add (lane 1))).add (rne64 ((lane 2).add (lane 3))))
    let code := (if d.fmt = 5 then fmtF64 else fmtF32).convert .nearest result
    Does (.vectorOpComplete t) s (fun s' => (s'.tile t).vec.queue = [] ∧
      s'.elemCode t d pos = code.1 % 2 ^ fmtBits d.fmt ∧ (∀ y, d.Misses t pos y → readByte s'.mem y = readByte s.mem y) ∧
      (s'.tile t).vec.satCnt = ((s.tile t).vec.satCnt + if code.2 then 1 else 0) % 2 ^ 64)) ∧
  (∀ (s : State) (t : Nat) (o : VecOp), VecReady t [o] s → o.Rolled t [] s → o.vop.isSel24 = true →
    let kt := if o.vop = .sel24q then 32 else 16
    o.vlen % (64 * kt) = 0 → slotOrFtq o.sa → ∀ kb db pb, o.sb = .slot kb db pb → ∀ k d pos, o.dst = .slot k d pos → d.fmt ≠ 0 → d.Placed pos o.vlen →
    let word (w : Nat) : Nat := s.elemCode t db (pb + w)
    let col (i : Nat) : Nat := if kt = 32 then word (2 * (i / 32)) + word (2 * (i / 32) + 1) * 2 ^ 32 else word (i / 16)
    let quartet (i : Nat) : Nat := i % kt / 2
    let idx0 (i : Nat) : Nat := col i / 2 ^ (4 * quartet i) % 4
    let idx1 (i : Nat) : Nat := col i / 2 ^ (4 * quartet i + 2) % 4
    let src (i : Nat) : Nat := i / (64 * kt) * (128 * kt) + 64 * (4 * quartet i + if i % 2 = 0 then idx0 i else idx1 i) + i % (64 * kt) / kt
    ((∀ i < o.vlen, act t o s i = true → idx0 i < idx1 i) →
      Does (.vectorOpComplete t) s (fun s' => (s'.tile t).vec.queue = [] ∧
        ElemsWritten t d pos o.vlen (fun i => if act t o s i then
          some (convElem d (s.recordOf t d) (d.rounding (s.recordOf t d) o.seed o.step (pos + i)) 0 (o.input t s o.sa (src i))).1
          else if o.z then some 0 else none) s s')) ∧
    (∀ i < o.vlen, act t o s i = true → idx1 i ≤ idx0 i →
      Does (.vectorOpComplete t) s (fun s' => Faulted t 2 Code.vxMeta o.pc 0 s s'))) ∧
  (∀ (s : State) (t : Nat) (o : VecOp), VecReady t [o] s → o.Rolled t [] s → o.vop = .segr →
    ∀ ka da pa, o.sa = .slot ka da pa → ∀ kb db pb, o.sb = .slot kb db pb → ∀ k d pos, o.dst = .slot k d pos → d.fmt = 4 →
    let field (i off n : Nat) : Nat := leNat (s.streamBytes t da.loc (da.base + (pa + i) * da.rowPitch + off) n)
    let first (i : Nat) : Nat := field i 0 4
    let count (i : Nat) : Nat := field i 4 2
    let value (i j : Nat) : Nat := field i (128 + 4 * j) 4
    let column (i j : Nat) : Nat := field i (1152 + 2 * j) 2
    let row (i j : Nat) : Nat := first i + field i (1664 + 2 * j) 2
    let bad (i : Nat) : Prop := count i = 0 ∨ 256 < count i ∨ (∃ j < count i - 1, row i (j + 1) < row i j) ∨
      (0 < i ∧ field i 8 4 ≤ field (i - 1) 8 4) ∨
      ∃ j < count i, db.rowLen ≤ column i j ∨ row i j < first 0 ∨ d.rowLen ≤ row i j - first 0
    (∀ i < o.vlen, bad i → (∀ j < i, ¬ bad j) → Does (.vectorOpComplete t) s (fun s' =>
      Faulted t 2 Code.vxChunk o.pc (if da.loc then 0 else devOf t (da.base + (pa + i) * da.rowPitch)) s s')) ∧
    ((∀ i < o.vlen, ¬ bad i) → d.Placed pos d.rowLen →
      let both (x y : Option Nat) : Option Nat := match x, y with
        | some x, some y => some (add32 x y)
        | some x, none => some x
        | none, y => y
      let product (i j : Nat) : Option Nat := some (mul32 (value i j) (s.elemCode t db (pb + column i j)))
      let lane (i r l : Nat) : Option Nat :=
        (((List.range 8).map (8 * l + ·)).filter (fun j => decide (j < count i) && row i j == r)).foldl (fun acc j => both acc (product i j)) none
      let root (i r : Nat) : Option Nat := (List.range 5).foldl (fun (f : Nat → Option Nat) _ => fun l => both (f (2 * l)) (f (2 * l + 1))) (lane i r) 0
      let sum (r : Nat) : Option Nat := (List.range o.vlen).foldl (fun acc i => both acc (root i r)) none
      (∀ e < d.rowLen, ∀ f < d.rowLen, e ≠ f → d.Apart (pos + e) d (pos + f)) →
      Does (.vectorOpComplete t) s (fun s' => (s'.tile t).vec.queue = [] ∧
        ElemsWritten t d pos d.rowLen (fun e => sum (first 0 + e)) s s'))) ∧
  (∀ (s : State) (t : Nat) (o : VecOp), VecReady t [o] s → ∀ e ∈ o.slots,
    let k := e.1
    let d := e.2
    d.recordUsed = true →
    (Sparse.get {} (s.tile t).vec.slots k : ExecSlot).rolled = false → o.Rolled t [k] s → o.step < 2 ^ 32 →
    let r := s.record t d
    let n := (o.step + 2 ^ 32 - ScaleRec.step r) % 2 ^ 32
    ((ScaleRec.wellFormed r = false ∨ ScaleRec.fmt r ≠ d.fmt ∨ 2 ^ 31 ≤ n) → chainClosed [o] = true →
      Does (.vectorOpComplete t) s (fun s' => Faulted t 2 Code.vxScale o.pc (devOf t d.scale) s s')) ∧
    (ScaleRec.wellFormed r = true → ScaleRec.fmt r = d.fmt → n < 2 ^ 31 →
      o.vop.isReduce = false → o.vop.isSel24 = false → o.vop ≠ .segr → slotOrFtq o.sa → slotOrFtq o.sb → slotOrFtq o.sc →
      ∀ k' d' pos, o.dst = .slot k' d' pos → d'.fmt ≠ 0 →
      (∀ i < o.vlen, ∀ y < 64, d'.Misses t (pos + i) (devOf t d.scale + y)) →
      Does (.vectorOpComplete t) s (fun s' =>
        let r' := s'.record t d
        let pushed := min n 16
        let h : Nat := (List.range 16).foldl (fun m i => max m (ScaleRec.hist r' i)) 0
        let fits (e : Int) : Bool := !FVal.lt false (((streamFmt d.fmt).decode (streamFmt d.fmt).top).scale (e - ScaleRec.margin r)) (fmtBf16.decode h)
        (Sparse.get {} (s'.tile t).vec.slots k : ExecSlot).rolled = true ∧ (n = 0 → r' = r) ∧
        (0 < n →
          (∀ i < 16, i < pushed → ScaleRec.hist r' ((ScaleRec.head r + i) % 16) = if n ≤ 16 ∧ i = 0 then ScaleRec.bf16Up (ScaleRec.amax r) else 0) ∧
          (∀ i < 16, pushed ≤ i → ScaleRec.hist r' ((ScaleRec.head r + i) % 16) = ScaleRec.hist r ((ScaleRec.head r + i) % 16)) ∧
          ScaleRec.head r' = (ScaleRec.head r + pushed) % 16 ∧ ScaleRec.amax r' = 0 ∧ ScaleRec.step r' = o.step ∧
          (if ScaleRec.fixed r = true ∨ (d.fmt ≠ 1 ∧ d.fmt ≠ 2) then ScaleRec.scaleExp r' = ScaleRec.scaleExp r
           else if h = 0 then ScaleRec.scaleExp r' = ScaleRec.initExp r
           else -60 ≤ ScaleRec.scaleExp r' ∧ ScaleRec.scaleExp r' ≤ 60 ∧ (fits (ScaleRec.scaleExp r') = true ∨ ScaleRec.scaleExp r' = 60) ∧
            (ScaleRec.scaleExp r' = -60 ∨ fits (ScaleRec.scaleExp r' - 1) = false)) ∧
          ScaleRec.sat r' = ScaleRec.sat r ∧ ScaleRec.nonfin r' = ScaleRec.nonfin r ∧ ScaleRec.elemBase r' = ScaleRec.elemBase r ∧
          ScaleRec.initExp r' = ScaleRec.initExp r ∧ ScaleRec.fmt r' = ScaleRec.fmt r ∧ ScaleRec.margin r' = ScaleRec.margin r ∧
          ScaleRec.fixed r' = ScaleRec.fixed r)))) ∧
  (∀ a, a ≤ fmtF32.top →
    let up := ScaleRec.bf16Up a
    up ≤ fmtBf16.top ∧ (FVal.lt false (fmtBf16.decode up) (f32 a) = false ∨ up = fmtBf16.top) ∧
    (up = 0 ∨ FVal.lt false (fmtBf16.decode (up - 1)) (f32 a) = true))

/-- Vector results before conversion: a NaN in any operand position of an operation of Table 7-3 that depends on it gives a NaN, which converts to 0x7FC0_0000; VMIN, VMAX, VCLAMP and VRELU order -0 below +0; a compare with a NaN on either side is +0, but VCMPNE is 1.0; VSEL takes A where C is not a zero, a NaN among them, and B where it is; the special functions take the limits of R206. Matrix outputs: where the outputs of an operation form, without skip and over dense and zero records, output (m, n) is DESCALE times the accumulator that starts at C or +0 and takes one rounded exact group sum after another, in the 4-bit class scaled by both scale bytes; a group with a NaN product or infinities of both signs sums to NaN, an exact sum of 0 is +0, and the spec's example group gives 0x3B00_0000. A commit's update of an element: the new moments and master(n) of each RULE, each operation rounded once; the spec's example of seventeen updates of -2^-12. -/
def Obligations.ArithmeticRules : Prop :=
  (
      let bits32 (v : FVal) : Nat := (fmtF32.convert .nearest v).1
    bits32 .nan = 0x7FC00000 ∧
    (∀ v ∈ ([.mov, .abs, .neg, .sqrt, .relu, .exp, .exp2, .log, .rcp, .rsqrt, .tanh, .sigm, .gelu, .silu] : List Vop), ∀ x y, v.apply .nan x y = .nan) ∧
    (∀ v ∈ ([.add, .sub, .mul, .div, .min, .max] : List Vop), ∀ x y, v.apply .nan x y = .nan ∧ v.apply x .nan y = .nan) ∧
    (∀ v ∈ ([.fma, .clamp] : List Vop), ∀ x y, v.apply .nan x y = .nan ∧ v.apply x .nan y = .nan ∧ v.apply x y .nan = .nan) ∧
    (∀ (e f : Int) (c : FVal),
      let pos := FVal.fin false 0 e
      let neg := FVal.fin true 0 f
      Vop.apply .min pos neg c = neg ∧ Vop.apply .min neg pos c = neg ∧ Vop.apply .max pos neg c = pos ∧ Vop.apply .max neg pos c = pos ∧
      Vop.apply .clamp neg pos pos = pos ∧ Vop.apply .clamp pos neg neg = neg ∧ bits32 (Vop.apply .relu neg c c) = 0) ∧
    (∀ v ∈ ([.cmpgt, .cmpge, .cmpeq] : List Vop), ∀ x y, v.apply .nan x y = fzero ∧ v.apply x .nan y = fzero) ∧
    (∀ x y, Vop.apply .cmpne .nan x y = .fin false 1 0 ∧ Vop.apply .cmpne x .nan y = .fin false 1 0) ∧
    (∀ a b c : FVal, Vop.apply .sel a b c = if c.isZero then b else a) ∧ FVal.isZero .nan = false ∧
    (∀ b c : FVal,
      let at_ (v : Vop) (x : FVal) : Nat := bits32 (v.apply x b c)
      at_ .exp (.inf true) = 0 ∧ at_ .exp2 (.inf true) = 0 ∧ at_ .log fzero = 0xFF800000 ∧ at_ .log (.inf true) = 0x7FC00000 ∧
      at_ .rcp fzero = 0x7F800000 ∧ at_ .rcp (.fin true 0 0) = 0xFF800000 ∧ at_ .tanh (.inf false) = 0x3F800000 ∧
      at_ .tanh (.inf true) = 0xBF800000 ∧ at_ .sigm (.inf true) = 0 ∧ at_ .sigm (.inf false) = 0x3F800000 ∧
      at_ .gelu (.inf false) = 0x7F800000 ∧ at_ .silu (.inf false) = 0x7F800000 ∧ at_ .gelu (.inf true) = 0x80000000 ∧
      at_ .silu (.inf true) = 0x80000000 ∧ ∀ m e, m ≠ 0 → at_ .log (.fin true m e) = 0x7FC00000)) ∧
  (∀ (s : State) (t : Nat) (o : MxOp) (x : MxResult) (u : State), mxCompute t o s = .ok (x, u) →
    let d := o.desc
    let byte (off n : Nat) : Nat := readNat s.mem (devOf t off) n
    let record (kt : Nat) : Nat := d.wBase + kt * d.wPitch
    let code (fmt : Nat) (at_ i : Nat) : FVal := if fmt = 0 then fmtE2M1.decode (byte (at_ + i / 2) 1 / 16 ^ (i % 2) % 16)
      else if fmt = 3 then fmtBf16.decode (byte (at_ + 2 * i) 2) else (if fmt = 1 then fmtE4M3 else fmtE5M2).decode (byte (at_ + i) 1)
    let a (m kt k : Nat) : FVal := code d.fmtA (d.aBase + kt * d.aKtPitch + m * d.aRowPitch) k
    let w (kt k n : Nat) : FVal := code d.fmtW (record kt + 128) (64 * k + n)
    let group (m n kt g : Nat) : FVal :=
      let sum := exactSum ((List.range 16).map (fun j => (a m kt (16 * g + j)).mul (w kt (16 * g + j) n)))
      if d.fmtA = 0 then (sum.mul (e8m0 (byte (d.asBase + kt * d.asKtPitch + m) 1))).mul (e8m0 (byte (record kt + 64 + n) 1)) else sum
    let acc (m n : Nat) : Nat := (List.range d.kt).foldl (fun acc kt =>
      if byte (record kt) 1 = 2 then acc
      else (List.range (if d.fmtA = 0 then 2 else 1)).foldl (fun acc g => add32 acc (rne32 (group m n kt g))) acc)
        (if d.init then byte (d.cBase + m * d.outPitch + 4 * n) 4 else 0)
    d.skip = false → (d.fmtA = 0 ↔ d.fmtW = 0) → d.fmtA ≤ 3 → d.fmtW ≤ 3 → (∀ kt < d.kt, byte (record kt) 1 = 0 ∨ byte (record kt) 1 = 2) →
    ∀ m < d.m, ∀ n < 64, (x.rows.getD m []).getD n 0 = word (mul32 (acc m n) d.descale)) ∧
  (∀ l : List FVal, .nan ∈ l ∨ (.inf true ∈ l ∧ .inf false ∈ l) → exactSum l = .nan) ∧
  (∀ (m : Nat) (e : Int), rne32 (exactSum [.fin false m e, .fin true m e]) = 0) ∧
  (∀ (n k : Bool) (e : Int), FVal.mul (.inf n) (.fin k 0 e) = .nan ∧ FVal.mul (.fin k 0 e) (.inf n) = .nan) ∧
  rne32 (exactSum [(fmtE4M3.decode 0x7E).mul (fmtE4M3.decode 0x7E), (fmtE4M3.decode 0x7E).mul (fmtE4M3.decode 0xFE),
    (fmtE4M3.decode 0x01).mul (fmtE4M3.decode 0x38)]) = 0x3B000000 ∧
  (∀ (s : State) (k i cnt : Nat),
    let c := s.com k
    let u := s.elemUpdate k i cnt
    let rq := s.request k
    let at_ (base o n : Nat) : Nat := leNat ((List.range n).map (fun b => readByte s.mem (shareAddr base (k / 64) (o + b))))
    let g := at_ (s.red k).bufBase (4 * i) 4
    let m1 := at_ (c.m1 cnt) (4 * i) 4
    let m2 := at_ (c.m2 cnt) (4 * i) 4
    let w := fmtW48.decode (at_ (c.master cnt) (6 * i) 6)
    let lr := rq / 2 ^ 32 % 2 ^ 32
    let decay := mul32 c.wd (rne32 w)
    let takes (d : Nat) : Prop := u.master = fmtW48.ieee (w.add (f32 (mul32 lr (add32 d decay))).neg)
    (c.rule = 0 → u.m1 = add32 (mul32 c.b1 m1) g ∧ takes u.m1) ∧
    (c.rule = 1 → u.m1 = add32 (mul32 c.b1 m1) (mul32 c.a1 g) ∧ u.m2 = add32 (mul32 c.b2 m2) (mul32 c.a2 (mul32 g g)) ∧
      takes (rne32 ((f32 (mul32 u.m1 (rq / 2 ^ 64 % 2 ^ 32))).div
        (f32 (add32 (rne32 (f32 (mul32 u.m2 (rq / 2 ^ 96 % 2 ^ 32))).sqrt) c.eps))))) ∧
    (c.rule = 2 → takes (at_ (c.m2 (cnt + 1)) (4 * i) 4))) ∧
  (
      let step (w : Nat) : Nat := newMaster w 0xB9800000
    let work (w : Nat) : Nat := (ComEntry.workElem { workFmt := 3 } w).1
    let one := fmtW48.ieee (.fin false 1 0)
    work one = 0x3F80 ∧ work (Nat.repeat step 16 one) = 0x3F80 ∧ work (Nat.repeat step 17 one) = 0x3F81)

/-- On a tile that can issue, not in Tahr mode. With four operations outstanding the tile parks whatever the operands are, also ones that would fault and a length of 0, which is the model's choice (log 15). With fewer: a FILL of RB bytes at RA and a COPY of RC bytes from RB to RA, multiples of 8 at most 16 MiB and within the region, the destination outside the code range, are queued with the next number, and RD receives the token; an argument that is no multiple of 8 faults with BLOCK_ARG, and so does a length above 16 MiB where the region holds it, while one that leaves the region, as every such length does in a region of at most 16 MiB, faults with REGION_BOUND first; an operation of length 0 takes no entry and gives its token. For a running tile, BLOCK_OP_COMPLETE of the oldest operation writes in one step, which is log 9's choice, the pattern to every word of the destination, or the source bytes as they stood, no other byte changes, and the operation leaves the queue. A tile parked on that operation's token runs on past its TWAIT. Commands that it says complete, under conditions on state and operands alone: FILL, COPY, BLOCK_OP_COMPLETE. -/
def Obligations.BlockUnit : Prop :=
  ∀ (s : State) (t : Nat), t < s.tileCount →
    let T := s.tile t
    (∀ (rd ra rb rc : Reg) (copy : Bool), CanIssue t [ra, rb, rc] s → T.blocks.length < 4 → T.tahrMode = false →
      let dst := (T.reg ra).toNat
      let src := (T.reg rb).toNat
      let len := if copy then (T.reg rc).toNat else (T.reg rb).toNat
      let c : Instr := if copy then .copy t rd ra rb rc else .fill t rd ra rb rc
      let inside (a : Nat) : Prop := a < 0x1000000 ∧ T.regionBase ≤ a ∧ a + len ≤ T.regionBase + T.regionSize
      0 < len → len ≤ 0x1000000 → inside dst → NotCode t dst len s → (copy = true → inside src) →
      (dst % 8 = 0 → len % 8 = 0 → (copy = true → src % 8 = 0) →
        Does c s (fun s' => TileOnly t s s' ∧ (s'.tile t).blocks = T.blocks ++
            [⟨T.count 3 + 1, T.pc, copy, dst, if copy then src else 0, len, if copy then 0 else T.reg rc⟩] ∧
          (s'.tile t).reg rd = wrote rd (word (3 * 2 ^ 29 + (T.count 3 + 1) % 2 ^ 29)) ∧ (s'.tile t).count 3 = T.count 3 + 1 ∧
          (∀ r, r ≠ rd → (s'.tile t).reg r = T.reg r) ∧ (s'.tile t).pc = T.pc + 4)) ∧
      (dst % 8 ≠ 0 ∨ len % 8 ≠ 0 ∨ (copy = true ∧ src % 8 ≠ 0) → Faults c t 3 Code.blockArg 0 s)) ∧
    (∀ (rd ra rb rc : Reg) (copy : Bool), CanIssue t [ra, rb, rc] s →
      let c : Instr := if copy then .copy t rd ra rb rc else .fill t rd ra rb rc
      (4 ≤ T.blocks.length → Parks c t 0x04 s) ∧
      let dst := (T.reg ra).toNat
      let src := (T.reg rb).toNat
      let len := (T.reg (if copy then rc else rb)).toNat
      (T.blocks.length < 4 → dst < 0x1000000 → (copy = true → src < 0x1000000) → 0x1000000 < len →
        (T.regionBase + T.regionSize < dst + len → Faults c t 3 Code.regionBound (devOf t dst) s) ∧
        (T.regionBase ≤ dst → dst + len ≤ T.regionBase + T.regionSize → NotCode t dst len s →
          (copy = true → T.regionBase ≤ src ∧ src + len ≤ T.regionBase + T.regionSize) → Faults c t 3 Code.blockArg 0 s))) ∧
    (∀ (rd ra rb rc : Reg) (copy : Bool), CanIssue t [ra, rb, rc] s → T.blocks.length < 4 → T.tahrMode = false →
      (T.reg (if copy then rc else rb)).toNat = 0 → (T.reg ra).toNat % 8 = 0 → (T.reg ra).toNat < 0x1000000 →
      (copy = true → (T.reg rb).toNat % 8 = 0 ∧ (T.reg rb).toNat < 0x1000000) →
      Does (if copy then .copy t rd ra rb rc else .fill t rd ra rb rc) s (fun s' => TileOnly t s s' ∧ (s'.tile t).blocks = T.blocks ∧
        (s'.tile t).reg rd = wrote rd (word (3 * 2 ^ 29 + (T.count 3 + 1) % 2 ^ 29)) ∧ (s'.tile t).count 3 = T.count 3 + 1 ∧
        (∀ r, r ≠ rd → (s'.tile t).reg r = T.reg r) ∧ (s'.tile t).pc = T.pc + 4)) ∧
    (∀ (o : BlockOp) (r : List BlockOp), T.blocks = o :: r → o.len % 8 = 0 → s.eccBad = [] → s.eccSoft = [] →
      let stored (s' : State) : Prop := (∀ i < o.len, readByte s'.mem (devOf t o.dst + i) =
          if o.copy then readByte s.mem (devOf t o.src + i) else (o.pattern >>> (8 * (i % 4))).setWidth 8) ∧
        ∀ a, a < devOf t o.dst ∨ devOf t o.dst + o.len ≤ a → readByte s'.mem a = readByte s.mem a
      (T.run = .running → Does (.blockOpComplete t) s (fun s' => stored s' ∧ (s'.tile t).blocks = r ∧ ∀ u, u ≠ t → s'.tile u = s.tile u)) ∧
      (T.run = .parked → T.park = .token 3 o.num → (∀ q ∈ r, o.num < q.num) → T.hold = false → T.tahr.waiting = [] →
        Does (.blockOpComplete t) s (fun s' => stored s' ∧ (s'.tile t).blocks = r ∧ (s'.tile t).run = .running ∧
          (s'.tile t).pc = T.pc + 4)))

/-- On a tile that can issue. WOPEN opens a closed window whose registers are in order, with WIN_COUNT 0; on an open one it faults with WINDOW_REOPEN, on one out of order with WINDOW_CONFIG (an end at or below its base is out of order). WCLOSE of an open window, outside Tahr mode, stops acceptance: with no accepted write on its way it goes on and no open sum of the window is left; else it parks with cause DRAIN, and WINDOW_DRAIN_END, once the last write has committed, lets it go on. WCLOSE of a closed window only goes on. No register and no byte changes. Commands that it says complete, under conditions on state and operands alone: WOPEN, WCLOSE, WINDOW_DRAIN_END. -/
def Obligations.WindowControl : Prop :=
  ∀ (s : State) (t : Nat) (w : Win),
    let T := s.tile t
    let x := T.window w.val
    let keeps (s' : State) : Prop := (s'.tile t).regs = T.regs ∧ (∀ u, u ≠ t → s'.tile u = s.tile u) ∧
      ∀ a, readByte s'.mem a = readByte s.mem a
    (CanIssue t [] s →
      (x.opened = false → windowBad t w.val s = false → Does (.wopen t w) s (fun s' => TileOnly t s s' ∧ keeps s' ∧
        (s'.tile t).window w.val = { x with opened := true, count := 0, settled := false } ∧ (s'.tile t).pc = T.pc + 4 ∧
        ∀ v, v ≠ w.val → (s'.tile t).window v = T.window v)) ∧
      (x.opened = true → Faults (.wopen t w) t 4 Code.windowReopen 0 s) ∧
      (x.opened = false → windowBad t w.val s = true → Faults (.wopen t w) t 4 Code.windowConfig 0 s) ∧
      (x.wend.toNat ≤ x.base.toNat → windowBad t w.val s = true) ∧
      (x.opened = false → GoesTo (.wclose t w) t [] 2 (T.pc + 4) s) ∧
      (x.opened = true → T.tahrMode = false → x.inFlight = 0 → Does (.wclose t w) s (fun s' => keeps s' ∧
        ((s'.tile t).window w.val).opened = false ∧ (s'.tile t).pc = T.pc + 4 ∧ (s'.tile t).run = .running ∧
        ∀ c ∈ s'.sums, ¬ (c.tile = t ∧ c.window = w.val))) ∧
      (x.opened = true → T.tahrMode = false → x.inFlight ≠ 0 → Does (.wclose t w) s (fun s' => keeps s' ∧
        ((s'.tile t).window w.val).opened = false ∧ (s'.tile t).pc = T.pc ∧ (s'.tile t).run = .parked ∧
        (s'.tile t).park.cause = 0x05))) ∧
    (t < s.tileCount → T.run = .parked → T.park = .drain w.val → x.inFlight = 0 → T.hold = false → T.tahr.waiting = [] →
      Does (.windowDrainEnd t) s (fun s' => keeps s' ∧ (s'.tile t).run = .running ∧ (s'.tile t).pc = T.pc + 4 ∧
        ∀ c ∈ s'.sums, ¬ (c.tile = t ∧ c.window = w.val)))

/-- On a tile that can issue, outside Tahr mode, with room in its port queue, a 16-byte descriptor aligned in its region, a status word it may write, and descriptor fields in range with the source in the region: the write enters the network with the descriptor's fields and the tile's MSG_JOB (or, for a destination outside the partition, its answer with STATUS 5), RD receives the token, the operation stands at the end of the port queue, and no byte changes. Fields out of range fault with PUT_ARG. With 16 operations in the port queue the tile parks at the PUT, whatever its operands: with CREDIT_WAIT where every one of them is a SEND that waits for a credit, else with ENGINE_FULL. The check for room before the others is log 15; a status word as a written extent is log 30. Commands that it says complete, under conditions on state and operands alone: PUT. -/
def Obligations.PutIssue : Prop :=
  ∀ (s : State) (t : Nat) (rd ra rb : Reg), CanIssue t [ra, rb] s →
    let T := s.tile t
    let off := (T.reg ra).toNat
    let st := (T.reg rb).toNat
    let d := PutDesc.ofNat (readNat s.mem (devOf t off) 16)
    let credit : Prop := ∀ o ∈ T.port.queue, o.send = true ∧
      ∃ m, s.msg o.id = some m ∧ (m.recv = .waitListed ∨ m.send = .retryWait ∨ m.send = .unsent)
    (16 ≤ T.port.queue.length → (credit → Parks (.put t rd ra rb) t 0x03 s) ∧ (¬ credit → Parks (.put t rd ra rb) t 0x06 s)) ∧
    (T.port.queue.length < 16 → Accessible t off 16 s → Accessible t st 8 s → NotCode t st 8 s →
    d.src < 0x1000000 → T.regionBase ≤ d.src → d.src + d.len ≤ T.regionBase + T.regionSize →
    (d.ok s = true → Does (.put t rd ra rb) s (fun s' =>
      (∃ p, s'.put s.nextId = some p ∧ p.sender = t ∧ p.dst = d.dstTile ∧ p.window = d.window ∧ p.dstOff = d.dstOff ∧
        p.len = d.len ∧ p.src = d.src ∧ p.statusOff = st ∧ p.job = T.port.job ∧ p.row = none ∧ p.live = true ∧
        p.sum = (d.kind == 1) ∧ p.phase = if s.samePart t d.dstTile then .inNet else .answered 5) ∧
      (s'.tile t).port.queue = T.port.queue ++ [⟨T.count 4 + 1, false, s.nextId⟩] ∧
      (s'.tile t).reg rd = wrote rd (word (4 * 2 ^ 29 + (T.count 4 + 1) % 2 ^ 29)) ∧ (∀ r, r ≠ rd → (s'.tile t).reg r = T.reg r) ∧
      (s'.tile t).pc = T.pc + 4 ∧ (∀ a, readByte s'.mem a = readByte s.mem a) ∧ ∀ u, u ≠ t → s'.tile u = s.tile u)) ∧
    (d.ok s = false → Faults (.put t rd ra rb) t 4 Code.putArg 0 s))

/-- For a remote write in the network that is no contribution: a PUT's, or a row of a FORWARD, whose bytes it carries. At its check: a closed window refuses with STATUS 8, bytes outside the window or on an open sum with 9, a sender outside the set (a tile, or any herd's mover where the window takes movers) with 0xA, another partition or job with 0xB; a refusal writes nothing, counts REMOTE_REJECT and answers; else, the receiver outside Tahr mode, it is accepted and counted in flight. At its commit, with a sound check code: the destination takes the source's bytes as they stand, with no word in error, or the row's, WIN_COUNT rises by one, STATUS 1 is answered and no other byte changes; with a bad code the packet is rewound, up to three times. The answer of a PUT, the sender outside Tahr mode, writes its status word and frees its queue entry; that of a row counts at its transfer, with the row's STATUS where it is a refusal; one whose check fails is sent again, but for PARTITION, which is no packet. That a packet's check is an operand is log 13, its re-sends and an answer's are log 95; the moment of the source read is log 9. Commands that it says complete, under conditions on state and operands alone: REMOTE_WRITE_CHECK, REMOTE_WRITE_COMMIT, PORT_ANSWER. -/
def Obligations.RemoteWrites : Prop :=
  ∀ (s : State) (id : Nat) (p : RemoteWrite), s.put id = some p →
    let D := s.tile p.dst
    let w := D.window p.window
    let refused (st : Nat) : Prop := Does (.remoteWriteCheck id) s (fun s' => s'.put id = some { p with phase := .answered st } ∧
      (s'.tile p.dst).remoteReject = min max32 (D.remoteReject + 1) ∧ (s'.tile p.dst).rejectSeen = true ∧
      (∀ a, readByte s'.mem a = readByte s.mem a) ∧ ∀ u, u ≠ p.dst → s'.tile u = s.tile u)
    let inside : Prop := w.base.toNat ≤ p.dstOff ∧ p.dstOff + p.len ≤ w.base.toNat + w.len
    let inSet : Prop := if p.row = none then bit w.sender.toNat 31 = true ∨ (w.lo ≤ p.sender ∧ p.sender ≤ w.hi)
      else bit w.sender.toNat 30 = true
    let same : Prop := s.samePart p.sender p.dst = true ∧ p.job = D.port.job
    (p.sum = false → p.phase = .inNet →
      (w.opened = false → refused 8) ∧
      (w.opened = true → (¬ inside ∨ s.hitsSum p.dst p.dstOff p.len = true) → refused 9) ∧
      (w.opened = true → inside → s.hitsSum p.dst p.dstOff p.len = false → ¬ inSet → refused 0xA) ∧
      (w.opened = true → inside → s.hitsSum p.dst p.dstOff p.len = false → inSet → ¬ same → refused 0xB) ∧
      (w.opened = true → inside → s.hitsSum p.dst p.dstOff p.len = false → inSet → same → D.tahrMode = false →
        Does (.remoteWriteCheck id) s (fun s' => s'.put id = some { p with phase := .accepted } ∧
          ((s'.tile p.dst).window p.window).inFlight = w.inFlight + 1 ∧ (∀ a, readByte s'.mem a = readByte s.mem a)))) ∧
    (p.sum = false → p.phase = .accepted →
      (p.row = none → s.eccBad = [] ∧ s.eccSoft = []) → (p.row ≠ none → p.data.length = p.len) →
      Does (.remoteWriteCommit id true) s (fun s' =>
      (∀ i < p.len, readByte s'.mem (devOf p.dst p.dstOff + i) =
        if p.row = none then readByte s.mem (devOf p.sender p.src + i) else p.data.getD i 0) ∧
      (∀ a, a < devOf p.dst p.dstOff ∨ devOf p.dst p.dstOff + p.len ≤ a → readByte s'.mem a = readByte s.mem a) ∧
      ((s'.tile p.dst).window p.window).count = min max32 (w.count + 1) ∧
      ((s'.tile p.dst).window p.window).inFlight = w.inFlight - 1 ∧ s'.put id = some { p with phase := .answered 1 })) ∧
    (p.sum = false → p.phase = .accepted → p.resends < 3 → Does (.remoteWriteCommit id false) s (fun s' =>
      s'.put id = some { p with resends := p.resends + 1 } ∧ (s'.tile p.dst).rewindCount = min max32 (D.rewindCount + 1) ∧
      (s'.tile p.dst).rewindSeen = true ∧ ∀ a, readByte s'.mem a = readByte s.mem a)) ∧
    (∀ st, p.phase = .answered st → s.msg id = none →
      (st ≠ 5 → p.ansResends < 3 → Does (.portAnswer id false) s (fun s' => s' = s.setPut id { p with ansResends := p.ansResends + 1 })) ∧
      (p.row ≠ none → p.live = true → (s.tile p.sender).tahrMode = false → Does (.portAnswer id true) s (fun s' =>
        s'.put id = none ∧ (s'.tile p.sender).mover = (s.tile p.sender).mover.map (fun o => if o.num = p.num then
          { o with rowsAnswered := o.rowsAnswered + 1,
                   refused := if 8 ≤ st then Sparse.set o.refused (p.row.getD 0) st else o.refused } else o) ∧
        (s'.tile p.sender).regs = (s.tile p.sender).regs ∧ (∀ a, readByte s'.mem a = readByte s.mem a) ∧
        ∀ u, u ≠ p.sender → s'.tile u = s.tile u)) ∧
      (∀ ok, (ok = true ∨ st = 5) → p.row = none → p.live = true → (s.tile p.sender).run = .running →
      (s.tile p.sender).tahrMode = false → st < 2 ^ 8 → Does (.portAnswer id ok) s (fun s' =>
        readNat s'.mem (devOf p.sender p.statusOff) 8 = 2 ^ 63 + st ∧ s'.put id = none ∧
        (s'.tile p.sender).port.queue = (s.tile p.sender).port.queue.filter (fun o => o.id != id) ∧
        ∀ a, a < devOf p.sender p.statusOff ∨ devOf p.sender p.statusOff + 8 ≤ a → readByte s'.mem a = readByte s.mem a)))

/-- For a window of a contiguous sender set of two (C = 2) and a contribution in the network whose checks pass, with no word in error. The first contribution opens a context at the router adder, its bytes stand in the staging slot one LENGTH above the destination, it is answered with STATUS 1 and no other byte changes. The second, with the first held, writes to each binary32 element of the destination the rounded sum of its element and the held one, raises WIN_COUNT by 2, closes the context and is answered; no byte outside the footprint changes. A first contribution whose check code fails opens the context and counts as accepted, writes nothing and is to come again. For C = 1 the destination takes the contribution at once. For C = 3 with the sum of the first two held, the third is added to it; for C = 4 with its sibling and the other pair held, a contribution is added to its sibling's value and that sum to the pair's. The root is then written, WIN_COUNT rises by C and the context, of the router or the hub, closes. That a contribution's check is an operand is log 13; the staging bytes behind a root are free (log 55). Commands that it says complete, under conditions on state and operands alone: SUM_CONTRIBUTION. -/
def Obligations.InFlightSums : Prop :=
  ∀ (s : State) (id : Nat) (p : RemoteWrite), s.put id = some p → p.row = none → p.sum = true → p.phase = .inNet →
    s.eccBad = [] → s.eccSoft = [] →
    let D := s.tile p.dst
    let w := D.window p.window
    let i := p.sender - w.lo
    let slot := devOf p.dst (p.dstOff + p.len)
    let src (k : Nat) : Nat := readNat s.mem (devOf p.sender p.src + 4 * k) 4
    let held (n k : Nat) : Nat := readNat s.mem (devOf p.dst (p.dstOff + (1 + n) * p.len) + 4 * k) 4
    let root (c top : Nat) (value : Nat → Nat) : Prop := Does (.sumContribution id true) s (fun s' =>
      s'.sums = [] ∧ s'.put id = some { p with phase := .answered 1 } ∧
      (∀ k < p.len / 4, readNat s'.mem (devOf p.dst p.dstOff + 4 * k) 4 = value k % 2 ^ 32) ∧
      ((s'.tile p.dst).window p.window).count = min max32 (w.count + c) ∧
      (∀ a, a < devOf p.dst p.dstOff ∨ devOf p.dst p.dstOff + top * p.len ≤ a → readByte s'.mem a = readByte s.mem a))
    let waits (c : Nat) (acc : List Nat) (l : List (Nat × Nat)) : Prop := ∃ hub, s.sums = [⟨p.dst, p.window, p.dstOff, p.len, c, acc, l, hub⟩] ∧
      checkSum p (some ⟨p.dst, p.window, p.dstOff, p.len, c, acc, l, hub⟩) s = none
    (w.contribs = 1 → p.len % 8 = 0 → D.tahrMode = false → s.sums = [] → checkSum p none s = none → root 1 1 src) ∧
    (∀ acc, w.contribs = 3 → i = 2 → p.len % 8 = 0 → D.tahrMode = false → waits 3 acc [(1, 0)] →
      root 3 3 (fun k => add32 (src k) (held 0 k))) ∧
    (∀ acc, w.contribs = 4 → i < 4 → p.len % 8 = 0 → D.tahrMode = false →
      waits 4 acc [(0, if i % 2 = 0 then i + 1 else i - 1), (1, 1 - i / 2)] →
      root 4 3 (fun k => add32 (add32 (src k) (held (i / 2) k)) (held (1 - i / 2) k))) ∧
    (w.contribs = 2 → i < 2 → p.len % 8 = 0 → D.tahrMode = false →
    (s.sums = [] → checkSum p none s = none → Does (.sumContribution id true) s (fun s' =>
      s'.sums = [⟨p.dst, p.window, p.dstOff, p.len, 2, [i], [(0, i)], false⟩] ∧ s'.put id = some { p with phase := .answered 1 } ∧
      (∀ k < p.len / 4, readNat s'.mem (slot + 4 * k) 4 = readNat s.mem (devOf p.sender p.src + 4 * k) 4) ∧
      (∀ a, a < slot ∨ slot + p.len ≤ a → readByte s'.mem a = readByte s.mem a))) ∧
    (∀ c : SumCtx, c = ⟨p.dst, p.window, p.dstOff, p.len, 2, [1 - i], [(0, 1 - i)], false⟩ → s.sums = [c] → checkSum p (some c) s = none →
      Does (.sumContribution id true) s (fun s' =>
        s'.sums = [] ∧ s'.put id = some { p with phase := .answered 1 } ∧
        (∀ k < p.len / 4, readNat s'.mem (devOf p.dst p.dstOff + 4 * k) 4 =
          add32 (readNat s.mem (devOf p.sender p.src + 4 * k) 4) (readNat s.mem (slot + 4 * k) 4) % 2 ^ 32) ∧
        ((s'.tile p.dst).window p.window).count = min max32 (w.count + 2) ∧
        (∀ a, a < devOf p.dst p.dstOff ∨ slot + p.len ≤ a → readByte s'.mem a = readByte s.mem a))) ∧
    (p.resends < 3 → (s.sums = [] → checkSum p none s = none → Does (.sumContribution id false) s (fun s' =>
      s'.sums = [⟨p.dst, p.window, p.dstOff, p.len, 2, [i], [], false⟩] ∧
      s'.put id = some { p with phase := .accepted, resends := p.resends + 1 } ∧ ∀ a, readByte s'.mem a = readByte s.mem a))))

/-- On a tile that can issue, outside Tahr mode, with room in its port queue, a sound header in its region, payload and status word accessible: SEND fills in the sender and MSG_JOB and places the message, its request out unless an earlier one to the receiver is outstanding (with STATUS 5 on its way for a destination outside the partition), RD takes the token and no byte changes. With 16 operations in the port queue the tile parks at the SEND: with CREDIT_WAIT where every one of them is a SEND that waits for a credit, else with ENGINE_FULL. For a requested message, an answer GRANT sends the packet, RETRY waits, and RETRY_TIMER sends the request again; an outcome writes the status word and frees the entry. PACKET_RESEND sends a rewound packet again. An answer packet whose check fails stays on its way and is sent again; the PARTITION outcome is no packet and has no check. The check for room before the others is log 15; a lost answer's re-sends are log 95. Commands that it says complete, under conditions on state and operands alone: SEND, PORT_ANSWER, RETRY_TIMER, PACKET_RESEND. -/
def Obligations.MessageSending : Prop :=
  (∀ (s : State) (t : Nat) (rd ra rb rc : Reg), CanIssue t [ra, rb, rc] s →
    let T := s.tile t
    let off := (T.reg ra).toNat
    let pay := (T.reg rb).toNat
    let st := (T.reg rc).toNat
    let h := readNat s.mem (devOf t off) 16
    let len := h / 2 ^ 32 % 2 ^ 16
    let credit : Prop := ∀ o ∈ T.port.queue, o.send = true ∧
      ∃ m, s.msg o.id = some m ∧ (m.recv = .waitListed ∨ m.send = .retryWait ∨ m.send = .unsent)
    (16 ≤ T.port.queue.length →
      (credit → Parks (.send t rd ra rb rc) t 0x03 s) ∧ (¬ credit → Parks (.send t rd ra rb rc) t 0x06 s)) ∧
    (T.port.queue.length < 16 → Accessible t off 16 s → pay < 0x1000000 → pay % 8 = 0 → T.regionBase ≤ pay →
    pay + len ≤ T.regionBase + T.regionSize → Accessible t st 8 s → NotCode t st 8 s → headerOk h s = true →
    Does (.send t rd ra rb rc) s (fun s' =>
      (∃ m, s'.msg s.nextId = some m ∧ m.sender = t ∧ m.hdr = h + t * 2 ^ 96 + T.port.job * 2 ^ 24 ∧ m.payload = pay ∧ m.status = st ∧
        (s.samePart t (h % 2 ^ 14) = false → m.answers = [.outcome 5 0 false] ∧ m.recv = .closed) ∧
        (s.samePart t (h % 2 ^ 14) = true → s.requestAhead t (h % 2 ^ 14) = false → m.send = .requested ∧ m.recv = .request) ∧
        (s.samePart t (h % 2 ^ 14) = true → s.requestAhead t (h % 2 ^ 14) = true → m.send = .unsent)) ∧
      (s'.tile t).port.queue = T.port.queue ++ [⟨T.count 4 + 1, true, s.nextId⟩] ∧
      (s'.tile t).reg rd = wrote rd (word (4 * 2 ^ 29 + (T.count 4 + 1) % 2 ^ 29)) ∧ (∀ r, r ≠ rd → (s'.tile t).reg r = T.reg r) ∧
      (s'.tile t).pc = T.pc + 4 ∧ (∀ a, readByte s'.mem a = readByte s.mem a) ∧ ∀ u, u ≠ t → s'.tile u = s.tile u))) ∧
  (∀ (s : State) (id : Nat) (m : Msg), s.msg id = some m →
    let same (s' : State) : Prop := ∀ a, readByte s'.mem a = readByte s.mem a
    (∀ r, m.send = .requested → m.answers = .grant :: r → (∀ e ∈ s.msgs, e.2.send = .unsent → e.2.sender ≠ m.sender) →
      Does (.portAnswer id true) s (fun s' => s'.msg id = some { m with send := .packet, recv := .packet, answers := r, ansResends := 0 } ∧ same s')) ∧
    (∀ r, m.send = .requested → m.answers = .retry :: r → Does (.portAnswer id true) s (fun s' =>
      s'.msg id = some { m with send := .retryWait, retries := m.retries + 1, answers := r, ansResends := 0 } ∧ same s')) ∧
    (∀ a r, m.answers = a :: r → (∀ l d, a ≠ .outcome 5 l d) → m.ansResends < 3 → Does (.portAnswer id false) s (fun s' =>
      s' = s.setMsg id { m with ansResends := m.ansResends + 1 })) ∧
    (m.send = .retryWait → Does (.retryTimer id) s (fun s' =>
      s' = s.setMsg id { m with send := .requested, recv := .request })) ∧
    (m.recv = .rewound → Does (.packetResend id) s (fun s' => s' = s.setMsg id { m with recv := .packet })) ∧
    (∀ ok r st l d, (ok = true ∨ st = 5) → (m.send = .packet ∨ m.send = .requested) → m.answers = .outcome st l d :: r → (s.tile m.sender).run = .running → st < 2 ^ 8 → l < 2 ^ 24 →
      (s.tile m.sender).port.queue.any (fun o => o.id == id) = true → Does (.portAnswer id ok) s (fun s' =>
        readNat s'.mem (devOf m.sender m.status) 8 =
          2 ^ 63 + l * 2 ^ 32 + min m.retries 0xFFFF * 2 ^ 16 + (if d then 2 ^ 8 else 0) + st ∧
        (s'.tile m.sender).port.queue = (s.tile m.sender).port.queue.filter (fun o => o.id != id))))

/-- For a message whose request has reached its receiver: another job discards it with STATUS 4, a reset port with 3 and a closed one with 2, counting ORPHAN_COUNT; an open port whose handler is DIRECT, not busy, with a buffer that can hold the message grants the buffer and marks the handler busy; for a handler that is not DIRECT, is busy or has too small a buffer it grants ring space, at the base of an empty ring or at the write position, behind a skip marker at the base where the tail is too short, admits the request where the space does not suffice or another waits, and answers RETRY when 32 wait. A granted packet with a sound check, at an open port, is written as header and payload at its space; with a bad one it is rewound; where the port has closed or been reset, or the job changed, it is discarded whole: nothing of it is written, its ring space becomes a void record, or is free at once where it is the oldest, its sender is answered CLOSED, RESET or JOB, and ORPHAN_COUNT counts. DELIVERY_COMMIT makes the record visible and answers OK, a landing as DIRECT. A request whose check fails is sent again. A withdrawal of a waiting request takes it off the wait list. That a packet's check is an operand is log 13; the re-sends of requests and withdrawals are log 95. Commands that it says complete, under conditions on state and operands alone: RESERVATION_REQUEST, MESSAGE_PACKET_ARRIVAL, DELIVERY_COMMIT, WITHDRAWAL. -/
def Obligations.MessageReceiving : Prop :=
  ∀ (s : State) (id : Nat) (m : Msg), s.msg id = some m →
    let r := m.dst
    let T := s.tile r
    let told (st : Nat) (s' : State) : Prop := (∃ m', s'.msg id = some m' ∧ m'.answers = m.answers ++ [.outcome st 0 false] ∧
      m'.recv = .closed) ∧ (s'.tile r).orphanCount = min max32 (T.orphanCount + 1) ∧ (s'.tile r).orphanSeen = true
    let answered (st : Nat) (s' : State) : Prop := told st s' ∧ ∀ a, readByte s'.mem a = readByte s.mem a
    let w := Sparse.get 0 T.port.handlers m.index
    let request (P : State → Prop) : Prop := Does (.reservationRequest id true) s P
    (m.recv = .request →
      (m.job ≠ T.port.job → request (answered 4)) ∧
      (m.job = T.port.job → T.port.state = .reset → request (answered 3)) ∧
      (m.job = T.port.job → T.port.state = .closed → request (answered 2)) ∧
      (m.job = T.port.job → T.port.state = .opened → 
        (handlerDirect w = false ∨ m.index ∈ T.port.busy ∨ landSize w < 16 + m.length) →
        (T.port.waitList = [] → T.port.ring = [] → m.footprint ≤ T.ringSize → request (fun s' =>
          (s'.tile r).port.ring = [.msg id T.ringBase m.footprint false] ∧ (s'.tile r).port.writePos = T.ringBase + m.footprint ∧
          ∃ m', s'.msg id = some m' ∧ m'.answers = m.answers ++ [.grant] ∧ m'.recv = .granted ∧ m'.landed = T.ringBase)) ∧
        (T.port.waitList ≠ [] → T.port.waitList.length < 32 → request (fun s' =>
          (s'.tile r).port.waitList = T.port.waitList ++ [id] ∧ (s'.tile r).port.ring = T.port.ring ∧
          ∃ m', s'.msg id = some m' ∧ m'.answers = m.answers ++ [.admitted] ∧ m'.recv = .waitListed)) ∧
        (32 ≤ T.port.waitList.length → request (fun s' => s'.tiles = s.tiles ∧
          ∃ m', s'.msg id = some m' ∧ m'.answers = m.answers ++ [.retry] ∧ m'.recv = .idle)) ∧
        (T.port.waitList = [] → T.port.ring ≠ [] → T.port.writePos < T.ringBase + T.ringSize →
          let tail := T.ringBase + T.ringSize - T.port.writePos
          let granted (off : Nat) (s' : State) : Prop := (s'.tile r).port.writePos = off + m.footprint ∧
            (s'.tile r).port.readPos = T.port.readPos ∧ ∃ m', s'.msg id = some m' ∧ m'.answers = m.answers ++ [.grant] ∧
              m'.recv = .granted ∧ m'.landed = off ∧ m'.direct = false
          (m.footprint ≤ tail → m.footprint ≤ T.ringFree → request (fun s' => granted T.port.writePos s' ∧
            (s'.tile r).port.ring = T.port.ring ++ [.msg id T.port.writePos m.footprint false] ∧ ∀ a, readByte s'.mem a = readByte s.mem a)) ∧
          (tail < m.footprint → m.footprint + tail ≤ T.ringFree → request (fun s' => granted T.ringBase s' ∧
            (s'.tile r).port.ring = T.port.ring ++ [.marker T.port.writePos tail, .msg id T.ringBase m.footprint false] ∧
            readNat s'.mem (devOf r T.port.writePos) 16 = 0xC000 ∧
            ∀ a, a < devOf r T.port.writePos ∨ devOf r T.port.writePos + 16 ≤ a → readByte s'.mem a = readByte s.mem a)) ∧
          ((if m.footprint ≤ tail then m.footprint else m.footprint + tail) > T.ringFree → request (fun s' =>
            (s'.tile r).port.waitList = [id] ∧ (s'.tile r).port.ring = T.port.ring ∧
            ∃ m', s'.msg id = some m' ∧ m'.answers = m.answers ++ [.admitted] ∧ m'.recv = .waitListed)))) ∧
      (m.job = T.port.job → T.port.state = .opened → handlerDirect w = true → m.index ∉ T.port.busy → 16 + m.length ≤ landSize w →
        request (fun s' => (s'.tile r).port.busy = T.port.busy ++ [m.index] ∧ (s'.tile r).port.ring = T.port.ring ∧
          ∃ m', s'.msg id = some m' ∧ m'.answers = m.answers ++ [.grant] ∧ m'.recv = .granted ∧ m'.landed = landBase w ∧
            m'.direct = true)) ∧
      (m.resends < 3 → Does (.reservationRequest id false) s (fun s' => s'.msg id = some { m with resends := m.resends + 1 } ∧
        (s'.tile r).rewindCount = min max32 (T.rewindCount + 1) ∧ ∀ a, readByte s'.mem a = readByte s.mem a))) ∧
    (m.direct = true →
      (m.recv = .packet → m.job = T.port.job → T.port.state = .opened → s.eccBad = [] → s.eccSoft = [] → m.length % 8 = 0 →
        m.hdr < 2 ^ 128 → Does (.messagePacketArrival id true) s (fun s' =>
          readNat s'.mem (devOf r m.landed) 16 = m.hdr ∧ (∀ i < m.length, readByte s'.mem (devOf r m.landed + 16 + i) =
            readByte s.mem (devOf m.sender m.payload + i)) ∧ s'.msg id = some { m with recv := .landed } ∧
          ∀ a, a < devOf r m.landed ∨ devOf r m.landed + 16 + m.length ≤ a → readByte s'.mem a = readByte s.mem a)) ∧
      (m.recv = .landed → T.tahrMode = false → Does (.deliveryCommit id) s (fun s' =>
        (∃ m', s'.msg id = some m' ∧ m'.answers = m.answers ++ [.outcome 1 m.landed true] ∧ m'.recv = .closed) ∧
        (s'.tile r).port.busy = T.port.busy ∧ ∀ a, readByte s'.mem a = readByte s.mem a))) ∧
    (m.recv = .packet → m.direct = false → m.job = T.port.job → T.port.state = .opened → T.port.ring.any (RingRec.isMsg id) = true →
      (s.eccBad = [] → s.eccSoft = [] → m.length % 8 = 0 → m.hdr < 2 ^ 128 → Does (.messagePacketArrival id true) s (fun s' =>
        readNat s'.mem (devOf r m.landed) 16 = m.hdr ∧ (∀ i < m.length, readByte s'.mem (devOf r m.landed + 16 + i) =
          readByte s.mem (devOf m.sender m.payload + i)) ∧ s'.msg id = some { m with recv := .landed } ∧
        ∀ a, a < devOf r m.landed ∨ devOf r m.landed + m.footprint ≤ a → readByte s'.mem a = readByte s.mem a)) ∧
      (m.resends < 3 → Does (.messagePacketArrival id false) s (fun s' =>
        s'.msg id = some { m with recv := .rewound, resends := m.resends + 1 } ∧
        (s'.tile r).rewindCount = min max32 (T.rewindCount + 1) ∧ ∀ a, readByte s'.mem a = readByte s.mem a))) ∧
    (m.recv = .packet → T.port.waitList = [] → ∀ ok st,
      ((m.job ≠ T.port.job ∧ st = 4) ∨ (m.job = T.port.job ∧ T.port.state = .reset ∧ st = 3) ∨
        (m.job = T.port.job ∧ T.port.state = .closed ∧ st = 2)) → Does (.messagePacketArrival id ok) s (fun s' => told st s' ∧
        (s'.tile r).port.busy = T.port.busy ∧
        (T.port.ring.any (RingRec.isMsg id) = false → (s'.tile r).port.ring = T.port.ring ∧ ∀ a, readByte s'.mem a = readByte s.mem a) ∧
        (∀ off n, T.port.ring = [.msg id off n false] → (s'.tile r).port.ring = [] ∧
          ∀ a, a < devOf r off ∨ devOf r off + 16 ≤ a → readByte s'.mem a = readByte s.mem a) ∧
        (∀ i o k c off n, i ≠ id → T.port.ring = [.msg i o k c, .msg id off n false] →
          (s'.tile r).port.ring = [.msg i o k c, .void off n] ∧
          ∀ a, a < devOf r off ∨ devOf r off + 16 ≤ a → readByte s'.mem a = readByte s.mem a))) ∧
    (m.recv = .landed → m.direct = false → T.port.ring.any (RingRec.isMsg id) = true → Does (.deliveryCommit id) s (fun s' =>
      (∃ m', s'.msg id = some m' ∧ m'.answers = m.answers ++ [.outcome 1 m.landed false] ∧ m'.recv = .closed) ∧
      (s'.tile r).port.ring = T.port.ring.map (fun e => if e.isMsg id then .msg id e.off e.size true else e) ∧
      ∀ a, readByte s'.mem a = readByte s.mem a)) ∧
    (m.withdrawal = true → m.recv = .waitListed → T.port.waitList = [id] → T.port.ring = [] → Does (.withdrawal id true) s (fun s' =>
      (s'.tile r).port.waitList = [] ∧ (∀ m', s'.msg id = some m' → m'.withdrawal = false) ∧ ∀ a, readByte s'.mem a = readByte s.mem a))

/-- On a tile that can issue. HSET with an index up to 255 and a handler word in order writes the entry and frees its busy mark, and else faults with MSG_ARG. RQHEAD writes the offset of the oldest committed message, or 0x8000_0000 where the oldest record is none. RQPOP takes the oldest committed message off the ring, with the skip markers and void records behind it; the read position follows the last record passed, at the ring's end from the base at once, which is the model's choice (log 96); a waiting request takes the empty ring from its base, and one that still does not fit goes on waiting. It faults with MSG_ARG where there is no such message. PORT opens the port for RA = 1, closes it for RA = 2, flushing waiting requests, and faults for any other RA. Commands that it says complete, under conditions on state and operands alone: HSET, RQHEAD, RQPOP, PORT. -/
def Obligations.HandlersAndRing : Prop :=
  ∀ (s : State) (t : Nat) (rd ra rb : Reg), CanIssue t [ra, rb] s →
    let T := s.tile t
    let i := (T.reg ra).toNat
    (i ≤ 255 → handlerOk T (T.reg rb) = true → Does (.hset t ra rb) s (fun s' => TileOnly t s s' ∧ (s'.tile t).regs = T.regs ∧
      Sparse.get 0 (s'.tile t).port.handlers i = T.reg rb ∧ i ∉ (s'.tile t).port.busy ∧ (s'.tile t).pc = T.pc + 4 ∧
      ∀ k, k ≠ i → Sparse.get 0 (s'.tile t).port.handlers k = Sparse.get 0 T.port.handlers k)) ∧
    (255 < i ∨ handlerOk T (T.reg rb) = false → Faults (.hset t ra rb) t 4 Code.msgArg 0 s) ∧
    (∀ id off n r, T.port.ring = .msg id off n true :: r → WritesReg (.rqhead t rd) t [] rd (word off) 1 s) ∧
    (T.ringHead = none → WritesReg (.rqhead t rd) t [] rd 0x80000000 1 s ∧ Faults (.rqpop t) t 4 Code.msgArg 0 s) ∧
    (∀ id off n skips kept, T.port.ring = .msg id off n true :: (skips ++ kept) → T.port.waitList = [] →
      (∀ k ∈ skips, ∃ o z, k = .marker o z ∨ k = .void o z) → (kept = [] ∨ ∃ i o z c r, kept = .msg i o z c :: r) →
      let last := skips.getLast?.getD (.msg id off n true)
      Does (.rqpop t) s (fun s' => TileOnly t s s' ∧ (s'.tile t).port.ring = kept ∧
        (s'.tile t).port.readPos = (if T.ringBase + T.ringSize ≤ last.off + last.size then T.ringBase else last.off + last.size) ∧
        (s'.tile t).port.writePos = T.port.writePos ∧ (s'.tile t).regs = T.regs ∧ (s'.tile t).pc = T.pc + 4)) ∧
    (∀ id off n w m, T.port.ring = [.msg id off n true] → T.port.waitList = [w] → s.msg w = some m → m.footprint ≤ T.ringSize →
      Does (.rqpop t) s (fun s' => (s'.tile t).port.ring = [.msg w T.ringBase m.footprint false] ∧ (s'.tile t).port.waitList = [] ∧
        (s'.tile t).port.readPos = T.ringBase ∧ (s'.tile t).port.writePos = T.ringBase + m.footprint ∧
        (∃ m', s'.msg w = some m' ∧ m'.answers = m.answers ++ [.grant] ∧ m'.recv = .granted ∧ m'.landed = T.ringBase) ∧
        (s'.tile t).regs = T.regs ∧ (s'.tile t).pc = T.pc + 4 ∧ (∀ a, readByte s'.mem a = readByte s.mem a) ∧
        ∀ u, u ≠ t → s'.tile u = s.tile u)) ∧
    (∀ id off n i o z c r w ws m, T.port.ring = .msg id off n true :: .msg i o z c :: r → T.port.waitList = w :: ws →
      s.msg w = some m → T.ringFree + n < m.footprint → Does (.rqpop t) s (fun s' => (s'.tile t).port.ring = .msg i o z c :: r ∧
        (s'.tile t).port.waitList = w :: ws ∧ s'.msgs = s.msgs ∧ (s'.tile t).pc = T.pc + 4)) ∧
    (i = 1 → Does (.port t ra) s (fun s' => TileOnly t s s' ∧ (s'.tile t).port = { T.port with state := .opened } ∧
      (s'.tile t).regs = T.regs ∧ (s'.tile t).pc = T.pc + 4)) ∧
    (i = 2 → Does (.port t ra) s (fun s' => (s'.tile t).port = { T.port with state := .closed, waitList := [] } ∧
      (s'.tile t).regs = T.regs ∧ (s'.tile t).pc = T.pc + 4 ∧ (∀ a, readByte s'.mem a = readByte s.mem a) ∧
      ∀ u, u ≠ t → s'.tile u = s.tile u)) ∧
    (i ≠ 1 → i ≠ 2 → Faults (.port t ra) t 4 Code.msgArg 0 s)

/-- On a tile that can issue, RA naming object o of its partition. SIG posts a signal of RB, signed. ARRIVE with no entry for the reference and a free one posts a first arrival and RD awaits the answer; with a live entry it posts an arrival of kind round for ROUND + 1; while an earlier one at the reference awaits its answer nothing happens; a ninth object faults with SYNC_TABLE. SWAIT posts a wait for a generation newer than RB and the tile issues nothing more. SREAD writes GEN, the sticky flags, MODE and VALUE, and the entries at the reference whose ROUND is older than GEN, and that await no answer, retire; the object settles behind the read, which releases it where VALUE has reached TARGET in counter mode. Where one of its two packets is lost, RD keeps its value and awaits an answer for ever, and HW_FAULT is raised for the sending unit (log 95). SCONF sets mode and target, clears VALUE and the clamp flags and keeps GEN, or faults with SYNC_CONFIG. A reference that names no object of the partition faults all five with SYNC_SCOPE. An ARRIVE that has to wait is no event yet (log 2); the beats of the way to an object are logs 7 and 93. Commands that it says complete, under conditions on state and operands alone: SIG, ARRIVE, SWAIT, SREAD, SCONF. -/
def Obligations.SyncInstructions : Prop :=
  ∀ (s : State) (t : Nat) (rd ra rb : Reg), CanIssue t [ra, rb] s →
    let T := s.tile t
    let quiet (x : SyncObj) : Prop := x.target = 0 ∨ x.value < x.target ∨ x.mode = 2
    let keeps (s' : State) : Prop := (∀ u, u ≠ t → s'.tile u = s.tile u) ∧ ∀ a, readByte s'.mem a = readByte s.mem a
    (s.refObj (s.partOf t) (T.reg ra) = none →
      Faults (.sig t ra rb) t 0 Code.syncScope 0 s ∧ Faults (.arrive t rd ra) t 0 Code.syncScope 0 s ∧
      Faults (.swait t ra rb) t 0 Code.syncScope 0 s ∧ Faults (.sread t rd ra .arrives) t 0 Code.syncScope 0 s ∧
      Faults (.sconf t ra rb) t 0 Code.syncScope 0 s) ∧
    (∀ o, s.refObj (s.partOf t) (T.reg ra) = some o →
      let x := s.sync o
      let v := (T.reg rb).toNat
      Does (.sig t ra rb) s (fun s' => keeps s' ∧ s'.syncMsg s.nextId = some (.signal o (T.reg rb).toInt 1 t (t, 0)) ∧
        s'.nextId = s.nextId + 1 ∧ s'.syncs = s.syncs ∧ (s'.tile t).regs = T.regs ∧ (s'.tile t).pc = T.pc + 4) ∧
      (∀ k, T.arrivals.find? (fun e => e.2.ref == T.reg ra) = none → T.freeArrival = some k →
        Does (.arrive t rd ra) s (fun s' => keeps s' ∧ s'.syncMsg s.nextId = some (.arrival t o (T.reg ra) rd.val T.pc true 0) ∧
          Sparse.find (s'.tile t).arrivals k = some { ref := T.reg ra, waiting := true } ∧ (rd ≠ 0 → ({ reg := rd.val, id := s.nextId } : Await) ∈ (s'.tile t).awaits) ∧
          (s'.tile t).regs = T.regs ∧ (s'.tile t).pc = T.pc + 4)) ∧
      (∀ k e, T.arrivals.find? (fun e => e.2.ref == T.reg ra) = some (k, e) → e.waiting = false →
        Does (.arrive t rd ra) s (fun s' => keeps s' ∧
          s'.syncMsg s.nextId = some (.arrival t o (T.reg ra) rd.val T.pc false ((e.round + 1) % 256)) ∧
          Sparse.find (s'.tile t).arrivals k = some { e with waiting := true } ∧
          (rd ≠ 0 → ({ reg := rd.val, id := s.nextId } : Await) ∈ (s'.tile t).awaits) ∧
          (s'.tile t).regs = T.regs ∧ (s'.tile t).pc = T.pc + 4)) ∧
      (∀ k e, T.arrivals.find? (fun e => e.2.ref == T.reg ra) = some (k, e) → e.waiting = true →
        Does (.arrive t rd ra) s (fun s' => s' = s)) ∧
      (T.arrivals.find? (fun e => e.2.ref == T.reg ra) = none → T.freeArrival = none → Faults (.arrive t rd ra) t 0 Code.syncTable 0 s) ∧
      Does (.swait t ra rb) s (fun s' => keeps s' ∧ s'.syncMsg s.nextId = some (.wait t o (v % 256)) ∧
        (s'.tile t).syncTravel = true ∧ (s'.tile t).regs = T.regs ∧ (s'.tile t).pc = T.pc) ∧
      Does (.sread t rd ra .arrives) s (fun s' => (quiet x → keeps s' ∧ s'.syncs = s.syncs) ∧ (s'.tile t).pc = T.pc + 4 ∧
        (s'.tile t).reg rd = wrote rd (word (x.gen * 2 ^ 24 + (if x.underflow then 2 ^ 19 else 0) + (if x.overflow then 2 ^ 18 else 0)
          + x.mode * 2 ^ 16 + x.value)) ∧ (∀ r, r ≠ rd → (s'.tile t).reg r = T.reg r) ∧
        (s'.tile t).arrivals = T.arrivals.filter (fun e =>
          !(e.2.live && !e.2.waiting && e.2.ref == objRef o && newer 8 x.gen e.2.round)) ∧
        (x.mode = 0 → 0 < x.target → x.target ≤ x.value → x.value < 2 * x.target →
          (s'.sync o).gen = (x.gen + 1) % 256 ∧ (s'.sync o).value = x.value - x.target)) ∧
      (∀ loss ∈ [ReadLoss.request, ReadLoss.answer], quiet x → Does (.sread t rd ra loss) s (fun s' =>
        ∃ u, s' = postHw 0x05 (if loss = .request then t / 32 else objUnit o) false 0 u ∧ keeps u ∧ u.syncs = s.syncs ∧
          (u.tile t).regs = T.regs ∧ (u.tile t).pc = T.pc + 4 ∧ (rd ≠ 0 → ({ reg := rd.val, id := s.nextId } : Await) ∈ (u.tile t).awaits))) ∧
      (v / 2 ^ 16 < 3 → x.waiters = 0 → x.early = 0 → Does (.sconf t ra rb) s (fun s' => keeps s' ∧
        s'.sync o = { x with mode := v / 2 ^ 16, target := v % 2 ^ 16, value := 0, due := 0, overflow := false, underflow := false } ∧
        (∀ q, q ≠ o → s'.sync q = s.sync q) ∧ (s'.tile t).regs = T.regs ∧ (s'.tile t).pc = T.pc + 4)) ∧
      (3 ≤ v / 2 ^ 16 ∨ x.waiters ≠ 0 ∨ x.early ≠ 0 → Faults (.sconf t ra rb) t 0 Code.syncConfig 0 s))

/-- For an operation in the network. A signal adds to VALUE, limited to 0 to 0xFFFF with the sticky flags of a clamp; in counter mode a VALUE that reaches TARGET, and stays below twice it, releases once: VALUE less TARGET, GEN and the release count up by one. a flag releases where a signal takes VALUE to TARGET, and keeps VALUE. An arrival at a barrier not yet full counts and its answer starts back with the round; the one that fills it releases the barrier, the early arrivals counting into the next round; one for the next round is held as EARLY; one for any other round sets MISUSE and is answered with a fault, as is one at an object of another mode. A release takes the parked waits that now hold off the object and readies their tiles. The answer gives RD the round, unless the register has been written since, and makes the entry live. A wait that holds starts its answer back; one that does not parks the tile at the object, and a release starts the answer; a wait at an object whose VALUE has reached TARGET in counter mode releases it. SYNC_WAIT_RESUME lets the tile go on past its SWAIT, and the entries at the reference older than GEN retire. A packet that fails its check, the SWAIT answer among them, is sent again up to three times and is then lost, with HW_FAULT class 0x05 (log 81). That a check is an operand is log 13; the unit of a device object is log 81, WAITERS log 53, the beats of an SWAIT log 93. Commands that it says complete, under conditions on state and operands alone: SYNC_SIGNAL, ARRIVE_AT_OBJECT, ARRIVE_ANSWER, SYNC_WAIT_AT_OBJECT, SYNC_WAIT_RESUME. -/
def Obligations.SyncObjects : Prop :=
  ∀ (s : State) (id : Nat),
    let released (o : Nat) (s' : State) : Prop :=
      let x := s.sync o
      let holds (w : Nat × Nat) : Bool := newer 8 ((x.gen + 1) % 256) w.2
      (s'.sync o).gen = (x.gen + 1) % 256 ∧ (s'.sync o).releases = min max32 (x.releases + 1) ∧
        (s'.sync o).parked = x.parked.filter (fun w => !holds w) ∧
        (s'.sync o).waiters = x.waiters - (x.parked.filter holds).length ∧ ∀ w ∈ x.parked, holds w = true → (s'.tile w.1).syncReady = some o
    let quiet (x : SyncObj) : Prop := x.target = 0 ∨ x.value < x.target ∨ x.mode = 2
    (∀ o (n : Int) kind src u, s.syncMsg id = some (.signal o n kind src u) →
      let x := s.sync o
      let v := (x.value : Int) + n
      ((x.target = 0 ∨ v < x.target) → x.mode ≠ 2 → x.value ≤ 0xFFFF → Does (.syncSignal id true) s (fun s' =>
        s'.sync o = { x with value := (max 0 (min 0xFFFF v)).toNat, overflow := x.overflow || decide (0xFFFF < v),
                             underflow := x.underflow || decide (v < 0), due := x.due + n, srcKind := kind, srcId := src } ∧
        (∀ q, q ≠ o → s'.sync q = s.sync q) ∧ s'.syncMsg id = none ∧ ∀ a, readByte s'.mem a = readByte s.mem a)) ∧
      (x.mode = 0 → 0 < x.target → x.target ≤ v → v < 2 * x.target → v ≤ 0xFFFF → Does (.syncSignal id true) s (fun s' =>
        (s'.sync o).value = (v - x.target).toNat ∧ released o s')) ∧
      (x.mode = 2 → 0 < x.target → x.value < x.target → x.target ≤ v → v ≤ 0xFFFF → Does (.syncSignal id true) s (fun s' =>
        (s'.sync o).value = v.toNat ∧ released o s')) ∧
      (x.mode = 2 → (x.target = 0 ∨ x.target ≤ x.value) → 0 ≤ v → v ≤ 0xFFFF → Does (.syncSignal id true) s (fun s' =>
        s'.sync o = { x with value := v.toNat, due := x.due + n, srcKind := kind, srcId := src }))) ∧
    (∀ t o ref rd pc first g, s.syncMsg id = some (.arrival t o ref rd pc first g) →
      let x := s.sync o
      let counts : Prop := first = true ∨ g = x.gen
      (x.mode = 1 → counts → x.value + 1 < x.target → x.target ≤ 0xFFFF → Does (.arriveAtObject id true) s (fun s' =>
        (s'.sync o).value = x.value + 1 ∧ (s'.sync o).gen = x.gen ∧ s'.syncMsg id = some (.answer t o ref rd pc (.round x.gen)))) ∧
      (x.mode = 1 → counts → 0 < x.target → x.value + 1 = x.target → x.target ≤ 0xFFFF → x.early < x.target →
        Does (.arriveAtObject id true) s (fun s' => (s'.sync o).value = x.early ∧ (s'.sync o).early = 0 ∧ released o s' ∧
          s'.syncMsg id = some (.answer t o ref rd pc (.round x.gen)))) ∧
      (x.mode = 1 → first = false → g = (x.gen + 1) % 256 → x.gen < 256 → x.value < x.target → Does (.arriveAtObject id true) s (fun s' =>
        s'.sync o = { x with early := x.early + 1, srcKind := 1, srcId := t } ∧ s'.syncMsg id = some (.answer t o ref rd pc (.round g)))) ∧
      (x.mode = 1 → first = false → g ≠ x.gen → g ≠ (x.gen + 1) % 256 → Does (.arriveAtObject id true) s (fun s' =>
        s'.sync o = { x with misuse := true } ∧ s'.syncMsg id = some (.answer t o ref rd pc .misuse) ∧ s'.tiles = s.tiles)) ∧
      (x.mode ≠ 1 → quiet x → Does (.arriveAtObject id true) s (fun s' => s'.sync o = x ∧ s'.syncMsg id = some (.answer t o ref rd pc .modeFault)))) ∧
    (∀ t o ref (rd : Reg) pc g, s.syncMsg id = some (.answer t o ref rd.val pc (.round g)) → (s.tile t).run ≠ .faulted → rd ≠ 0 →
      s.closes t o = false → Does (.arriveAnswer id true) s (fun s' =>
        ((∃ a ∈ (s.tile t).awaits, a.id = id ∧ a.stale = false) → (s'.tile t).reg rd = word g) ∧
        ((∀ a ∈ (s.tile t).awaits, a.id = id → a.stale = true) → (s'.tile t).reg rd = (s.tile t).reg rd) ∧
        (∀ a ∈ (s'.tile t).awaits, a.id ≠ id) ∧ (∀ r, r ≠ rd → (s'.tile t).reg r = (s.tile t).reg r) ∧
        (∀ e ∈ (s'.tile t).arrivals, e.2.ref = ref → e.2.live = true ∧ e.2.waiting = false ∧ e.2.round = g) ∧ s'.syncMsg id = none)) ∧
    (∀ t o ref rd pc, (s.tile t).run ≠ .faulted →
      let faults (code : Nat) : Prop := Does (.arriveAnswer id true) s (fun s' => (s'.tile t).run = .faulted ∧
        (s'.tile t).faultCode = code ∧ (s'.tile t).faultPc = pc ∧ (s'.tile t).faultAddr = objAddr o ∧
        (s.partOf t ≠ 0 → (s'.part (s.partOf t)).fault = true) ∧ ∀ u, u ≠ t → s'.tile u = s.tile u)
      (s.syncMsg id = some (.answer t o ref rd pc .modeFault) → faults Code.syncMode) ∧
      (s.syncMsg id = some (.answer t o ref rd pc .misuse) → faults Code.syncMisuse)) ∧
    (∀ t o g, s.syncMsg id = some (.wait t o g) → (s.tile t).run = .running → (s.tile t).syncTravel = true →
      let x := s.sync o
      (newer 8 x.gen g = true → quiet x → Does (.syncWaitAtObject id true) s (fun s' =>
        s'.tile t = { s.tile t with syncReady := some o } ∧ s'.syncs = s.syncs ∧ s'.syncMsg id = none ∧ ∀ u, u ≠ t → s'.tile u = s.tile u)) ∧
      (newer 8 x.gen g = false → quiet x → Does (.syncWaitAtObject id true) s (fun s' => (s'.tile t).run = .parked ∧
        (s'.tile t).park = .sync o g ∧ (s'.tile t).park.cause = 0x01 ∧ (s'.sync o).parked = x.parked ++ [(t, g)] ∧
        (s'.sync o).waiters = (x.waiters + 1) % 2 ^ 16 ∧ (s'.tile t).pc = (s.tile t).pc)) ∧
      (x.mode = 0 → 0 < x.target → x.target ≤ x.value → x.value < 2 * x.target → Does (.syncWaitAtObject id true) s (fun s' =>
        (s'.sync o).gen = (x.gen + 1) % 256 ∧ (s'.sync o).value = x.value - x.target))) ∧
    (∀ t o, t < s.tileCount → (s.tile t).syncReady = some o →
      ((s.tile t).run = .running ∧ (s.tile t).syncTravel = true) ∨ (∃ q g, (s.tile t).run = .parked ∧ (s.tile t).park = .sync q g) →
      ((s.tile t).hold = false → (s.tile t).tahr.waiting = [] → Does (.syncWaitResume t true) s (fun s' =>
        (s'.tile t).run = .running ∧ (s'.tile t).pc = (s.tile t).pc + 4 ∧ (s'.tile t).syncReady = none ∧ (s'.tile t).syncTravel = false ∧
        (s'.tile t).regs = (s.tile t).regs ∧ (s'.tile t).arrivals = (s.tile t).arrivals.filter (fun e =>
          !(e.2.live && !e.2.waiting && e.2.ref == objRef o && newer 8 (s.sync o).gen e.2.round)))) ∧
      ((s.tile t).syncResends < 3 → Does (.syncWaitResume t false) s (fun s' =>
        s' = s.setTile t { s.tile t with syncResends := (s.tile t).syncResends + 1 })) ∧
      (3 ≤ (s.tile t).syncResends → Does (.syncWaitResume t false) s (fun s' =>
        s' = postHw 0x05 (objUnit o) false 0 (s.setTile t { s.tile t with syncReady := none, syncResends := 0 })))) ∧
    (∀ p, Sparse.find s.syncMsgs id = some p →
      let lost (c : Instr) : Prop := (p.resends < 3 → Does c s (fun s' =>
          s' = { s with syncMsgs := Sparse.set s.syncMsgs id { p with resends := p.resends + 1 } })) ∧
        (3 ≤ p.resends → Does c s (fun s' => s' = postHw 0x05 p.op.sender false 0 { s with syncMsgs := Sparse.del s.syncMsgs id }))
      lost (.syncSignal id false) ∧ lost (.arriveAtObject id false) ∧ lost (.arriveAnswer id false) ∧ lost (.syncWaitAtObject id false))

/-- For a tile of the grade. RUN = 1 starts a stopped tile that has a region at its entry offset, and leaves any other as it is. RUN = 0 stops a tile at once without a fault: STATE STOPPED, its unit queues empty, its registers and memory as they were. LOSS_POST records the step and the posted value, and marks LOST where an earlier post was not taken. BEAT_LO_READ, SKIP_COUNT_LO_READ and VEC_COUNT_LO_READ answer bits 31:0 of the counter on the bus and latch the high half in its HI register; KU_ACCEPT_LO_READ and LK_TX_LO_READ do so for a Kudu and a link; UE_SRC_READ answers UE_SRC and clears its VALID bit. After such a read the state is the one before it with that one record and the bus replaced; the two bus fields are the model's own (log 12). A start of a tile that is not stopped or has no region changes nothing (log 2). Commands that it says complete, under conditions on state and operands alone: TILE_RUN_START, TILE_RUN_STOP, BEAT_LO_READ, SKIP_COUNT_LO_READ, VEC_COUNT_LO_READ, LOSS_POST, KU_ACCEPT_LO_READ, LK_TX_LO_READ, UE_SRC_READ. -/
def Obligations.TileRunControl : Prop :=
  ∀ (s : State) (t : Nat), t < s.tileCount →
    let T := s.tile t
    let answers (v : Nat) (u s' : State) : Prop := s' = { u with busData := leBytes 4 (v % 2 ^ 32), busNack := false }
    let high (v : Nat) : Word := word (v / 2 ^ 32)
    (T.run = .stopped → 0 < T.regionSize → Does (.tileRunStart t) s (fun s' => TileOnly t s s' ∧
      s'.tile t = { T with run := .running, runBit := true, pc := T.entry, ended := false })) ∧
    (T.run ≠ .stopped ∨ T.regionSize = 0 → Does (.tileRunStart t) s (fun s' => TileOnly t s s' ∧ s'.tile t = T)) ∧
    Does (.tileRunStop t) s (fun s' => (s'.tile t).run = .stopped ∧ (s'.tile t).runBit = false ∧ (s'.tile t).blocks = [] ∧
      (s'.tile t).mx = [] ∧ (s'.tile t).vec.queue = [] ∧ (s'.tile t).port.queue = [] ∧ (s'.tile t).mover = [] ∧
      (s'.tile t).regs = T.regs ∧ (s'.tile t).pc = T.pc ∧ (s'.tile t).faultCode = T.faultCode ∧
      (∀ a, readByte s'.mem a = readByte s.mem a) ∧ ∀ u, u ≠ t → s'.tile u = s.tile u) ∧
    (∀ step : Word, Does (.lossPost t step) s (fun s' =>
      (s'.tile t).loss = { T.loss with step := step, post := T.loss.value, posted := true, lost := T.loss.lost || T.loss.posted } ∧
      (s'.tile t).regs = T.regs ∧ (∀ a, readByte s'.mem a = readByte s.mem a) ∧ ∀ u, u ≠ t → s'.tile u = s.tile u)) ∧
    Does (.beatLoRead t) s (answers T.beats (s.setTile t { T with beatHi := high T.beats })) ∧
    (∀ k : Fin 32,
      let x := T.skip k.val
      Does (.skipCountLoRead t k 0) s (answers x.elems (s.setTile t (T.setSkip k.val { x with elemsHi := high x.elems }))) ∧
      Does (.skipCountLoRead t k 1) s (answers x.sampled (s.setTile t (T.setSkip k.val { x with sampledHi := high x.sampled }))) ∧
      Does (.skipCountLoRead t k 2) s (answers x.miss (s.setTile t (T.setSkip k.val { x with missHi := high x.miss })))) ∧
    Does (.vecCountLoRead t true) s (answers T.vec.satCnt (s.setTile t { T with vec := { T.vec with satHi := high T.vec.satCnt } })) ∧
    Does (.vecCountLoRead t false) s (answers T.vec.nonfinCnt (s.setTile t { T with vec := { T.vec with nonfinHi := high T.vec.nonfinCnt } })) ∧
    (∀ k : Stack,
      let x : Kudu := Sparse.get {} s.kudus k.val
      Does (.kuAcceptLoRead k) s (answers x.accept { s with kudus := Sparse.set s.kudus k.val { x with acceptHi := high x.accept } })) ∧
    (∀ k : LinkId, Does (.lkTxLoRead k) s (answers (s.link k.val).tx
      { s with links := Sparse.set s.links k.val { s.link k.val with txHi := high (s.link k.val).tx } })) ∧
    (∀ u : Fin 32, Does (.ueSrcRead u) s (answers ((s.mc u.val).ueSrc * 2 + if (s.mc u.val).ueValid then 1 else 0)
      { s with mcs := Sparse.set s.mcs u.val { s.mc u.val with ueValid := false } }))

/-- On a tile that can issue, outside Tahr mode, with fewer than 8 transfers outstanding, a descriptor that lies whole, aligned and clean in the region, and herd-side extents that pass their checks. A descriptor that breaks a field rule faults with MV_FIELD; one whose memory side the job may not reach with MEM_REFUSED and the address; a signal whose reference names no object of the partition with SYNC_SCOPE. Else RD receives the token, the transfer stands last in the mover queue (STATUS 5 at once for a FORWARD to a tile outside the partition), no other register and no byte changes, and the herd mover places into the crossings what their entries allow; where no LINK_WRITE has a block still to place nothing else changes. A LINK_WRITE of clean rows whose link is not miscabled and has room in its crossing for all of it, with no other block to place, behind transfers that have all started and do not conflict with it, goes onto its link at once: a header with the link step at issue, then up to 256 bytes a block. With 8 transfers outstanding the tile parks at the MOVE whatever RA is, before any check (log 15). The check for room and the descriptor's read are log 15; the address of a refused extent is log 78, which transfers conflict log 71. Commands that it says complete, under conditions on state and operands alone: MOVE. -/
def Obligations.MoveIssue : Prop :=
  ∀ (s : State) (t : Nat) (rd ra : Reg), CanIssue t [ra] s →
    let T := s.tile t
    let off := (T.reg ra).toNat
    let d := MvDesc.ofNat (readNat s.mem (devOf t off) 64)
    let n := T.count 5 + 1
    let key (o : MoverOp) : Nat × Word × MvDesc × Nat := (o.num, o.pc, o.desc, o.status)
    let down : Bool := (s.link d.link).run == .failed || (s.link d.link).run == .disabled || (s.link d.link).run == .closing
    let count := (d.blocks + 3) / 4
    (8 ≤ T.mover.length → Parks (.move t rd ra) t 0x06 s) ∧
    (T.mover.length < 8 → Accessible t off 64 s → checkExts t T d.herdExts = none →
    (d.ok s = false → Faults (.move t rd ra) t 5 Code.mvField 0 s) ∧
    (d.ok s = true → d.refused t s = true → d.kind ≠ 4 → Faults (.move t rd ra) t 5 Code.memRefused d.addr s) ∧
    (d.ok s = true → d.refused t s = false → d.sig = true → s.refObj (s.partOf t) d.syncRef = none →
      Faults (.move t rd ra) t 5 Code.syncScope 0 s) ∧
    (d.ok s = true → d.refused t s = false → (d.sig = true → s.refObj (s.partOf t) d.syncRef ≠ none) → (d.kind = 4 → down = true) →
      d.kind = 4 → Faults (.move t rd ra) t 5 Code.linkDown 0 s) ∧
    (d.ok s = true → d.refused t s = false → (d.sig = true → s.refObj (s.partOf t) d.syncRef ≠ none) → (d.kind = 4 → down = false) →
      Does (.move t rd ra) s (fun s' =>
        (s'.tile t).mover.map key = T.mover.map key ++ [(n, T.pc, d, if d.kind = 2 ∧ s.samePart t d.dstTile = false then 5 else 1)] ∧
        (s'.tile t).reg rd = wrote rd (word (5 * 2 ^ 29 + n % 2 ^ 29)) ∧ (∀ r, r ≠ rd → (s'.tile t).reg r = T.reg r) ∧
        (s'.tile t).pc = T.pc + 4 ∧ (s'.tile t).run = .running ∧ (∀ a, readByte s'.mem a = readByte s.mem a) ∧
        (∀ u, u ≠ t → Placing (s.tile u) (s'.tile u)) ∧
        (d.kind ≠ 4 → NoLinkToPlace s →
          s' = { s with tiles := s'.tiles, free := s'.free, crossings := s'.crossings, turns := s'.turns }) ∧
        (d.kind = 4 → (∀ e ∈ s.tiles, ∀ o ∈ e.2.mover, o.nextBlock = none) → startedMoves [] T.mover = T.mover →
          (∀ o ∈ T.mover, o.desc.conflicts d = false) → (∀ i, i < d.blocks → CleanRange (devOf t (d.locAt i)) 64 s) →
          (s.link d.link).miscabled = false → ((s.link d.link).waiting.filter (fun b => b.lane == 0)).length + 1 + count ≤ 32 →
          s'.outbox = s.outbox ++ .write d.link (s.link d.link).nextXfer ((s.job (s.jobOfTile t)).linkStep % 65536)
              (s.link d.link).bindTag d.addr d.addrPitch d.rows d.rowBytes ::
            (List.range count).map (fun i => .data d.link (s.link d.link).nextXfer (i + 1 == count)
              (((List.range d.blocks).drop (4 * i)).take 4 |>.flatMap (fun n => readBytes s.mem (devOf t (d.locAt n)) 64)))))))

/-- For a live tile and a block of a transfer of it, where no LINK_WRITE has a block still to place. A block that stands in its crossing before its unit: at an enabled controller with room on the way back, a read of a block not known bad answers with its 64 bytes, a corrected error counted; an uncorrectable one faults with DRAM_UNCORRECTABLE and is remembered as bad; a WRITE of clean herd memory puts the 64 bytes at the memory address and changes no other byte, and is done at once unless the address is a commit entry's request block, whose answer waits, the block in its entry meanwhile (R57); a failed check of a write is counted and tried again. At a controller that is not enabled the transfer faults with MEM_REFUSED. An answer that passes its check is delivered: for a READ into herd memory, for a FORWARD into the row's buffer, and the row that is whole leaves as a remote write. A failed check asks again, counted, up to three times; the next faults with MEM_CRC; at a controller no longer enabled it faults with MEM_REFUSED at once. The herd mover of the tile places what it can meanwhile. That a block's check and what its DRAM finds are operands is log 13; which crossings hold entries is log 77. Commands that it says complete, under conditions on state and operands alone: MEM_BLOCK_READ_ANSWER, MEM_BLOCK_REQUEST. -/
def Obligations.MoverMemoryBlocks : Prop :=
  ∀ (s : State) (t num n : Nat) (o : MoverOp), NoLinkToPlace s → t < s.tileCount → (s.tile t).moverOp num = some o → (s.tile t).alive = true →
    let d := o.desc
    let a := d.memAt n
    let h := devOf t (d.locAt n)
    let u := s.unitOf a
    let now (s' : State) (x : MoverOp) : Prop := ∃ y, (s'.tile t).moverOp num = some y ∧ y.moved = x.moved
    let same (s' : State) : Prop := ∀ x, readByte s'.mem x = readByte s.mem x
    let others (s' : State) : Prop := ∀ v, v ≠ t → Placing (s.tile v) (s'.tile v)
    let retried (s' : State) : Prop := same s' ∧ others s' ∧ s'.mc u = (s.mc u).countRetry ∧
      now s' { o with retries := Sparse.set o.retries n (Sparse.get 0 o.retries n + 1), answers := Sparse.del o.answers n }
    (s.atUnit t o n = some ⟨t, num, n, a, d.kind == 1 || d.kind == 3⟩ → s.asks ⟨t, num, n, a, d.kind == 1 || d.kind == 3⟩ = false →
      s.tierOf a 64 ≠ some .host →
      ((d.kind = 0 ∨ d.kind = 2) →
        ((s.mc u).run = .enabled → (s.crossing u).back.length < 32 → a ∉ s.badBlocks →
          Does (.memBlockRequest t num n .ok) s (fun s' =>
            now s' { o with answers := Sparse.set o.answers n (readBytes s.mem a 64) } ∧ same s' ∧ others s' ∧ s'.mcs = s.mcs) ∧
          Does (.memBlockRequest t num n .corrected) s (fun s' =>
            now s' { o with answers := Sparse.set o.answers n (readBytes s.mem a 64) } ∧ same s' ∧ others s' ∧
            s'.mc u = (s.mc u).countCe) ∧
          Does (.memBlockRequest t num n .uncorrectable) s (fun s' =>
            MoveFaulted t Code.dramUncorrectable o.pc a s s' ∧ (s'.mc u).ue = satAdd max32 (s.mc u).ue 1 ∧ a ∈ s'.badBlocks)) ∧
        ((s.mc u).run ≠ .enabled → ∀ f, Does (.memBlockRequest t num n f) s (MoveFaulted t Code.memRefused o.pc a s))) ∧
      (d.kind = 1 → (s.mc u).run = .enabled →
        (CleanRange h 64 s → ∀ f, f ≠ .crcFail → Does (.memBlockRequest t num n f) s (fun s' =>
          (∀ i, i < 64 → readByte s'.mem (a + i) = readByte s.mem (h + i)) ∧
          (∀ x, x < a ∨ a + 64 ≤ x → readByte s'.mem x = readByte s.mem x) ∧ others s' ∧
          now s' (if s.isRequest a then o else { o with done := Sparse.set o.done n true, answers := Sparse.del o.answers n }) ∧
          (s.isRequest a = true → s'.asks ⟨t, num, n, a, true⟩ = true ∧ (⟨t, num, n, a, true⟩ : XBlock) ∈ (s'.crossing (s.crossingOf a)).out))) ∧
        (Sparse.get 0 o.retries n < 3 → Does (.memBlockRequest t num n .crcFail) s retried))) ∧
    (∀ bs : List Byte, Sparse.find o.answers n = some bs → bs.length = 64 →
      (d.kind = 0 → Does (.memBlockReadAnswer t num n true) s (fun s' =>
        (∀ i, i < 64 → readByte s'.mem (h + i) = bs.getD i 0) ∧
        (∀ x, x < h ∨ h + 64 ≤ x → readByte s'.mem x = readByte s.mem x) ∧ others s' ∧
        now s' { o with done := Sparse.set o.done n true, answers := Sparse.del o.answers n })) ∧
      (d.kind = 2 → o.rowsSent < d.rows → Does (.memBlockReadAnswer t num n true) s (fun s' => same s' ∧ others s' ∧
        let row := (List.range d.rowBlocks).map (fun i => o.rowsSent * d.rowBlocks + i)
        let buf := Sparse.set o.buffered n bs
        ((∀ m ∈ row, (Sparse.find buf m).isSome = true) → ∃ p, s'.put s.nextId = some p ∧ p.sender = t ∧ p.num = num ∧
          p.row = some o.rowsSent ∧ p.dst = d.dstTile ∧ p.window = d.window ∧ p.dstOff = d.loc + o.rowsSent * d.locPitch ∧
          p.len = d.rowBytes ∧ p.data = row.flatMap (fun m => Sparse.get [] buf m)) ∧
        ((∃ m ∈ row, Sparse.find buf m = none) → s'.puts = s.puts ∧
          now s' { o with buffered := buf, answers := Sparse.del o.answers n }))) ∧
      ((s.mc u).run ≠ .enabled → Does (.memBlockReadAnswer t num n false) s (MoveFaulted t Code.memRefused o.pc a s)) ∧
      ((s.mc u).run = .enabled → Sparse.get 0 o.retries n < 3 → Does (.memBlockReadAnswer t num n false) s retried) ∧
      ((s.mc u).run = .enabled → 3 ≤ Sparse.get 0 o.retries n → Does (.memBlockReadAnswer t num n false) s (fun s' =>
        MoveFaulted t Code.memCrc o.pc a s s' ∧ s'.mc u = (s.mc u).countFail)))

/-- For a live tile, where no LINK_WRITE has a block still to place. Of a block in the host window whose request is open at the host, while the CXL port is up: the host's 64 bytes land in herd memory for a READ; a WRITE of clean herd memory puts them at the host address; an error answer, or none in time, faults with HOST_ERROR. A started transfer whose completion condition holds leaves the queue; a FORWARD writes its status word and no other byte, the rest write none; a signal of 1 to SYNC_REF enters the network where asked; every tile keeps its registers, its program counter and its run state. The herd mover of the tile places what it can meanwhile. What the host answers is an operand (log 12). Commands that it says complete, under conditions on state and operands alone: MOVER_TRANSFER_COMPLETE, HOST_WINDOW_RESPONSE, CXL_COMPLETION_TIMEOUT. -/
def Obligations.MoverHostBlocksAndCompletion : Prop :=
  ∀ (s : State) (t num : Nat) (o : MoverOp), NoLinkToPlace s → t < s.tileCount → (s.tile t).moverOp num = some o → (s.tile t).alive = true →
    let d := o.desc
    let others (s' : State) : Prop := ∀ v, v ≠ t → Placing (s.tile v) (s'.tile v)
    (∀ n, s.atUnit t o n = some ⟨t, num, n, d.memAt n, d.kind == 1 || d.kind == 3⟩ → s.tierOf (d.memAt n) 64 = some .host → d.kind ≤ 2 →
      let a := d.memAt n
      let h := devOf t (d.locAt n)
      let ended (s' : State) : Prop := ∃ y, (s'.tile t).moverOp num = some y ∧
        y.moved = ({ o with done := Sparse.set o.done n true, answers := Sparse.del o.answers n } : MoverOp).moved
      (∀ data : List Byte, s.power.reaches = true → data.length = 64 → d.kind = 0 → Does (.hostWindowResponse t num n false data) s (fun s' =>
        (∀ i, i < 64 → readByte s'.mem (h + i) = data.getD i 0) ∧
        (∀ x, x < h ∨ h + 64 ≤ x → readByte s'.mem x = readByte s.mem x) ∧ others s' ∧ ended s')) ∧
      (∀ data, s.power.reaches = true → d.kind = 1 → CleanRange h 64 s → Does (.hostWindowResponse t num n false data) s (fun s' =>
        (∀ i, i < 64 → readByte s'.mem (a + i) = readByte s.mem (h + i)) ∧
        (∀ x, x < a ∨ a + 64 ≤ x → readByte s'.mem x = readByte s.mem x) ∧ others s' ∧ ended s')) ∧
      (∀ data, s.power.reaches = true → Does (.hostWindowResponse t num n true data) s (MoveFaulted t Code.hostError o.pc a s)) ∧
      Does (.cxlCompletionTimeout t num n) s (MoveFaulted t Code.hostError o.pc a s)) ∧
    ((s.tile t).moverStarted o = true → o.finished = true → (s.tile t).run = .running →
      Does (.moverTransferComplete t num) s (fun s' =>
      (s'.tile t).mover.map (·.num) = ((s.tile t).mover.filter (fun x => x.num != num)).map (·.num) ∧
      (∀ v, (s'.tile v).regs = (s.tile v).regs ∧ (s'.tile v).pc = (s.tile v).pc ∧ (s'.tile v).run = (s.tile v).run) ∧
      (d.kind ≠ 2 → ∀ x, readByte s'.mem x = readByte s.mem x) ∧
      (d.kind = 2 → readNat s'.mem (devOf t d.status) 8 = (2 ^ 63 + o.status) % 2 ^ 64 ∧
        ∀ x, x < devOf t d.status ∨ devOf t d.status + 8 ≤ x → readByte s'.mem x = readByte s.mem x) ∧
      (∀ k, d.sig = true → s.refObj (s.partOf t) d.syncRef = some k →
        s'.syncMsg s.nextId = some (.signal k 1 2 (t / 32) (t / 32, 1))) ∧
      (d.sig = false → s'.syncMsgs = s.syncMsgs) ∧ s'.syncs = s.syncs))

/-- HBM_REFRESH completes for every stack and changes nothing; DDR_REFRESH completes for every channel and only sets whether the channel refreshes twice as often. PATROL_SCRUB completes: of an enabled unit it counts a finished pass and a corrected block, and logs, counts and remembers an uncorrectable one, a mover's read of which then faults; of a unit that is not enabled it does nothing. CXLMEM_HOST_ACCESS to an offset of the exposed range at an enabled controller, while the CXL port is up and no write of the block waits to be sent again, writes the 64-byte block, or answers with it; an uncorrectable block poisons that answer only, and is counted. The bytes outside the block stay. With the port down it does nothing. That the read data stands on the bus is the model's own (log 12). Refresh without effect and a scrub of a unit that is not enabled are logs 2 and 58; what the DRAM finds is an operand (log 13). Commands that it says complete, under conditions on state and operands alone: HBM_REFRESH, DDR_REFRESH, PATROL_SCRUB, CXLMEM_HOST_ACCESS. -/
def Obligations.MemoryControllers : Prop :=
  ∀ s : State,
    (∀ k, Does (.hbmRefresh k) s (fun s' => s' = s)) ∧
    (∀ (ch : Channel) (hot : Bool), Does (.ddrRefresh ch hot) s (fun s' => (s'.mc (16 + ch.val)).double = hot ∧
      s'.mc (16 + ch.val) = { s.mc (16 + ch.val) with double := hot } ∧ (∀ u, u ≠ 16 + ch.val → s'.mc u = s.mc u) ∧
      s' = { s with mcs := s'.mcs })) ∧
    (∀ (u : Fin 32) (found : Dram) (a : Nat),
      ((s.mc u.val).run ≠ .enabled → ∀ e, Does (.patrolScrub u e found a) s (fun s' => s' = s)) ∧
      ((s.mc u.val).run = .enabled →
        Does (.patrolScrub u true .ok a) s (fun s' => (s'.mc u.val).scrub = satAdd max32 (s.mc u.val).scrub 1 ∧ s' = { s with mcs := s'.mcs }) ∧
        Does (.patrolScrub u false .corrected a) s (fun s' => (s'.mc u.val).ce = satAdd max32 (s.mc u.val).ce 1 ∧ s' = { s with mcs := s'.mcs }) ∧
        Does (.patrolScrub u false .uncorrectable a) s (fun s' => (s'.mc u.val).ue = satAdd max32 (s.mc u.val).ue 1 ∧
          (s'.mc u.val).ueValid = true ∧ ((s.mc u.val).ueValid = false → (s'.mc u.val).ueAddr = a / 64 * 64 ∧ (s'.mc u.val).ueSrc = 2) ∧
          ((s.mc u.val).ueValid = true → (s'.mc u.val).ueAddr = (s.mc u.val).ueAddr) ∧ a / 64 * 64 ∈ s'.badBlocks ∧
          (∀ f, s'.dram (a / 64 * 64) f = .uncorrectable) ∧ s'.tiles = s.tiles))) ∧
    (∀ (off : Nat) (data : List Byte),
      let a := ddrBase + s.cxl.base + off / 64 * 64
      let u := s.unitOf a
      s.cxl.exposed = true → off < s.cxl.size → (s.mc u).run = .enabled →
      (s.power.reaches = false → ∀ w f, Does (.cxlmemHostAccess off w data f) s (fun s' => s' = s)) ∧
      (s.power.reaches = true → s.underRetry a = false →
      (data.length = 64 → ∀ f, Does (.cxlmemHostAccess off true data f) s (fun s' =>
        (∀ i, i < 64 → readByte s'.mem (a + i) = data.getD i 0) ∧
        (∀ x, x < a ∨ a + 64 ≤ x → readByte s'.mem x = readByte s.mem x) ∧ s'.tiles = s.tiles ∧ s'.mcs = s.mcs)) ∧
      (a ∉ s.badBlocks → Does (.cxlmemHostAccess off false data .ok) s (fun s' =>
        s' = { s with busData := readBytes s.mem a 64, busNack := false, chamois := s'.chamois })) ∧
      (a ∉ s.badBlocks → Does (.cxlmemHostAccess off false data .corrected) s (fun s' => s'.busData = readBytes s.mem a 64 ∧ s'.busNack = false ∧
        s'.mc u = (s.mc u).countCe ∧ s'.mem = s.mem ∧ s'.tiles = s.tiles)) ∧
      Does (.cxlmemHostAccess off false data .uncorrectable) s (fun s' => s'.busNack = true ∧
        (s'.mc u).ue = satAdd max32 (s.mc u).ue 1 ∧ s'.mem = s.mem ∧ s'.tiles = s.tiles)))

/-- For a live tile and a block of an ACCUM transfer of it that stands in its crossing before an enabled controller, with power at HBM, no WRITE being sent again anywhere and no LINK_WRITE block still to place. A failed check is counted and tried again. A block for an entry that is not OPEN or is another job's, outside its buffer, of a contributor that the entry does not have, or repeated in the round, faults the tile with RED_STATE, RED_RANGE, RED_CONTRIB or RED_DUP, in this order, and the entry is FAULTED. A good block is accepted where it combines, forms the root or finds a pool block, and no access to the stack fails: counted by entry and Kudu, its transfer's block done; what does not form the root writes no memory; the first round's root replaces the buffer block, a later one is added to it, the last expected round's too; with every block's root the round closes with a signal to the entry's object, and the last expected one begins the ring stage. Otherwise it waits in the Kudu's queue, or in the crossing where that is full, and POOL_WAIT_END of an open entry accepts the first that now has room, counting the wait. What a failing check faults is log 72; that checks and errors are operands is log 13, how many blocks a Kudu defers log 77. Commands that it says complete, under conditions on state and operands alone: CONTRIBUTION_BLOCK, POOL_WAIT_END. -/
def Obligations.Contributions : Prop :=
  ∀ (s : State) (t num n : Nat) (o : MoverOp), t < s.tileCount → (s.tile t).moverOp num = some o → (s.tile t).alive = true →
    let d := o.desc
    let a := d.memAt n
    let u := s.unitOf a
    let k := entryKey u d.redEntry
    let x := s.red k
    let job := (s.tile t).port.job
    let i := shareOff x.bufBase a / 64
    let w : RedWait := ⟨t, num, n, d.contrib, i, (chunks 4 (readBytes s.mem (devOf t (d.locAt n)) 64)).map leNat⟩
    let r := placeContribution x w
    let c : Instr := .contributionBlock t num n true []
    let good : Prop := x.state = .opened ∧ x.job = job
    let inside : Prop := x.bufBase ≤ a ∧ a + 64 ≤ x.bufBase + x.bufBytes
    let again : Prop := d.contrib ∈ (Sparse.get {} x.trees i : RedTree).accepted ∨ ∃ y ∈ x.waiting, y.contrib = d.contrib ∧ y.index = i
    let entryFault (code : Nat) (s' : State) : Prop := MoveFaulted t code o.pc a s s' ∧ (s'.red k).state = .faulted
    NoLinkToPlace s → d.kind = 3 → d.redEntry < 64 → s.atUnit t o n = some ⟨t, num, n, a, true⟩ → (s.mc u).run = .enabled → KudusServe s →
    (Sparse.get 0 o.retries n < 3 → Does (.contributionBlock t num n false []) s (fun s' => s'.mem = s.mem ∧ s'.reds = s.reds ∧
      s'.mc u = (s.mc u).countRetry ∧ ∃ y, (s'.tile t).moverOp num = some y ∧ Sparse.get 0 y.retries n = Sparse.get 0 o.retries n + 1)) ∧
    (¬ good → Does c s (entryFault Code.redState)) ∧
    (good → ¬ inside → Does c s (entryFault Code.redRange)) ∧
    (good → inside → x.contribs ≤ d.contrib → Does c s (entryFault Code.redContrib)) ∧
    (good → inside → d.contrib < x.contribs → again → Does c s (entryFault Code.redDup)) ∧
    (good → inside → d.contrib < x.contribs → ¬ again → CleanRange (devOf t (d.locAt n)) 64 s →
      (r.root = true ∨ r.combined = true ∨ x.heldBlocks < x.pool → (∀ b ∈ acceptReads k x w, b ∉ s.badBlocks) → Does c s (fun s' =>
        (s'.red k).accepted = x.accepted + 1 ∧ (Sparse.get {} s'.kudus u : Kudu).accept = ((Sparse.get {} s.kudus u : Kudu).accept + 1) % 2 ^ 64 ∧
        (∃ y, (s'.tile t).moverOp num = some y ∧
          y.moved = ({ o with done := Sparse.set o.done n true, answers := Sparse.del o.answers n } : MoverOp).moved) ∧
        (∀ v, (s'.tile v).regs = (s.tile v).regs ∧ (s'.tile v).pc = (s.tile v).pc ∧ (s'.tile v).run = (s.tile v).run) ∧
        (r.root = false → (∀ y, readByte s'.mem y = readByte s.mem y) ∧ (s'.red k).rounds = x.rounds ∧
          (Sparse.get {} (s'.red k).trees i : RedTree).held = r.held) ∧
        (r.root = true → (x.scatterIn = none ∧ x.ringHeld = [] ∧ x.nfReady = false ∧ s.badBlocks = []) →
          let e := shareAddr x.bufBase u (i * 64)
          let v := if x.rounds = 0 then r.vals else List.zipWith add32 ((chunks 4 (readBytes s.mem e 64)).map leNat) r.vals
          let tree := Sparse.get {} x.trees i
          let trees := Sparse.set x.trees i { tree with accepted := tree.accepted ++ [d.contrib], held := [], rooted := true }
          s'.mem = writeBytes s.mem e (f32Bytes v) ∧
          (if (trees.filter (fun e => e.2.rooted)).length = x.blocks then
            (s'.red k).rounds = x.rounds + 1 ∧ (s'.red k).trees = [] ∧
              (s'.red k).state = (if x.rounds + 1 = x.expectRounds then .ring else .opened) ∧
              ∀ q, s.refObj (s.job x.job).part x.syncRef = some q → s'.syncMsg s.nextId = some (.signal q 1 3 0 (33, 3))
           else (s'.red k).rounds = x.rounds ∧ (s'.red k).trees = trees ∧ (s'.red k).state = .opened)))) ∧
      (r.root = false → r.combined = false → x.pool ≤ x.heldBlocks → Does c s (fun s' =>
        (s'.red k).waiting = (if s.deferred u < Config.deferDepth u then x.waiting ++ [w] else x.waiting) ∧
        (s'.red k).accepted = x.accepted ∧ s'.mem = s.mem ∧ ∀ v, Placing (s.tile v) (s'.tile v)))) ∧
    (∀ (st : Stack) (e : Fin 64) (clocks : Nat) (y : RedWait),
      let q := entryKey st.val e.val
      KudusServe s → (s.red q).state = .opened → (s.red q).waiting.find? (fun w => !(s.red q).lacksRoom w) = some y →
      (∀ b ∈ acceptReads q (s.red q) y, b ∉ s.badBlocks) →
      Does (.poolWaitEnd st e clocks []) s (fun s' => (s'.red q).accepted = (s.red q).accepted + 1 ∧ y ∉ (s'.red q).waiting ∧
        (Sparse.get {} s'.kudus st.val : Kudu).poolWait = satAdd max32 (Sparse.get {} s.kudus st.val : Kudu).poolWait clocks))

/-- With power at HBM and no WRITE being sent again anywhere, over a link that is not miscabled: a ring packet whose tag names no entry faults the link's job. One a step ahead of its entry is held with its credit and counted in LK_HELD, and one that finds the ring room taken waits too. Of any other step, or where the entry takes none, it faults the entry with RED_RING (log 72). Of the entry's step: a scatter packet stands in the ring room while local rounds are open; in the ring stage, in its turn, no block bad, this module's hop adds its segment, and sends it on, or keeps it as the segment's final value after the last hop; a gather packet writes its segment into the buffer, is recorded with its NF bit, and goes on unless the next module owns it. NF_READY_WRITE, once the sweep has a result, gives every entry of the job LOCAL_NF and NF_READY and clears the NONFIN flag. KUDU_CLOSING_END frees a closing entry that has handled everything, and changes nothing where it has not. A packet over a miscabled link only frees its credits. Which packets wait or are dropped is log 83, the entries ahead of their step log 75; the accesses' errors are operands (log 13); an entry that has not handled everything stays as it is (log 2). Commands that it says complete, under conditions on state and operands alone: RING_PACKET, NF_READY_WRITE, KUDU_CLOSING_END. -/
def Obligations.RingStage : Prop :=
  ∀ s : State,
    (∀ (st : Stack) (link : LinkId) (p : RingPkt) (e : Nat),
      let k := entryKey st.val e
      let x := s.red k
      let c : Instr := .ringPacket st link p.tag p.step p.seg p.hop p.gather p.nf p.data []
      let sum := List.zipWith add32 p.data (segWords k x p.seg s)
      let owner := x.hopOf p.seg
      let as := segAddrs k x p.seg
      let still (s' : State) : Prop := s'.mem = s.mem ∧ s'.tiles = s.tiles
      KudusServe s → (s.link link.val).miscabled = false →
      (List.range 64).find? (fun e => (s.red (entryKey st.val e)).ringTag == p.tag && decide (1 < (s.red (entryKey st.val e)).ringLen) &&
        ((s.red (entryKey st.val e)).state == .opened || (s.red (entryKey st.val e)).inRing ||
          (s.red (entryKey st.val e)).state == .complete)) = some e →
      (p.step % 65536 = (x.step + 1) % 65536 → Does c s (fun s' => still s' ∧
        s'.red k = { x with ringHeld := x.ringHeld ++ [(link.val, p)] } ∧
        (s'.link link.val).held = ((s.link link.val).held + x.pktBlocks p) % 2 ^ 32)) ∧
      (p.step % 65536 ≠ (x.step + 1) % 65536 → p.step = x.step → x.state = .opened → p.gather = false → x.scatterIn.isSome = true →
        Does c s (fun s' => still s' ∧ s'.red k = { x with ringHeld := x.ringHeld ++ [(link.val, p)] } ∧ ∀ q, s'.link q = s.link q)) ∧
      (p.step % 65536 ≠ (x.step + 1) % 65536 → p.step ≠ x.step ∨ x.state = .complete ∨ (x.state = .opened ∧ p.gather = true) →
        Does c s (fun s' => still s' ∧ (s'.red k).state = .faulted ∧ (s'.red k).fault = Code.redRing)) ∧
      (p.step % 65536 ≠ (x.step + 1) % 65536 → p.step = x.step → p.seg < x.ringLen → p.data.length = 16 * (x.segBlocks p.seg).length →
        (p.gather = false → p.seg ∉ x.hopsDone → p.hop + 1 = owner →
          (x.state = .opened → x.scatterIn = none → Does c s (fun s' => still s' ∧ s'.red k = { x with scatterIn := some p })) ∧
          (x.inRing = true → x.scatterIn = none → x.nfReady = false → (∀ b ∈ as, b ∉ s.badBlocks) → Does c s (fun s' =>
            (s'.red k).hopsDone = x.hopsDone ++ [p.seg] ∧ s'.tiles = s.tiles ∧
            (owner = x.ringLen - 1 → (s'.red k).finals = x.finals ++ [(p.seg, ringIn s k x p.seg owner sum)] ∧ s'.outbox = s.outbox) ∧
            (owner ≠ x.ringLen - 1 → s'.mem = s.mem ∧ s'.outbox = s.outbox ++
              [.ring x.nextLink st.val ⟨x.ringTag, x.step, p.seg, owner, false, false, ringIn s k x p.seg owner sum⟩])))) ∧
        (p.gather = true → x.inRing = true → x.nfReady = false → p.seg ∉ x.gathered → p.seg ≠ x.ringPos → Does c s (fun s' =>
          s'.red k = { x with gathered := x.gathered ++ [p.seg], nfIn := x.nfIn || p.nf } ∧ s'.tiles = s.tiles ∧
          s'.mem = (writeSeg as p.data s).mem ∧
          s'.outbox = s.outbox ++ (if (x.ringPos + 1) % x.ringLen = p.seg then [] else [.ring x.nextLink st.val p]))))) ∧
    (∀ (st : Stack) (link : LinkId) (tag step seg hop : Nat) (gather nf : Bool) (data : List Nat) (hits : List StackHit),
      (s.link link.val).miscabled = false → (∀ e, e < 64 → (s.red (entryKey st.val e)).ringTag ≠ tag) → s.jobUsed (s.jobOfLink link.val) = true →
      (s.job (s.jobOfLink link.val)).ctxFault = none → Does (.ringPacket st link tag step seg hop gather nf data hits) s (fun s' =>
        (s'.job (s.jobOfLink link.val)).ctxFault = some (Code.redRing, 0) ∧ s'.reds = s.reds ∧ s'.mem = s.mem ∧ s'.tiles = s.tiles)) ∧
    (∀ (st : Stack) (link : LinkId) (tag step seg hop : Nat) (gather nf : Bool) (data : List Nat) (hits : List StackHit),
      (s.link link.val).miscabled = true → Does (.ringPacket st link tag step seg hop gather nf data hits) s (fun s' =>
        s' = { s with links := s'.links })) ∧
    (∀ (j : BitVec 8) (v : Nat), KudusServe s → (s.job j.toNat).result 0 (s.redStep j.toNat) = some v → s.lastRounds j.toNat = true →
      (s.job j.toNat).nfRelease = true → Does (.nfReadyWrite j []) s (fun s' =>
        (∀ k ∈ s.redsOf j.toNat, (s'.red k).nfReady = true ∧ (s'.red k).localNf = (v != 0)) ∧
        (s'.part (s.job j.toNat).part).nonfin = false ∧ (s'.job j.toNat).nfRelease = false ∧
        ∀ t, (s'.tile t).regs = (s.tile t).regs ∧ (s'.tile t).pc = (s.tile t).pc)) ∧
    (∀ (st : Stack) (e : Fin 64),
      let k := entryKey st.val e.val
      ((s.red k).closed = false → Does (.kuduClosingEnd st e) s (fun s' => s' = s)) ∧
      ((s.red k).closed = true → Does (.kuduClosingEnd st e) s (fun s' =>
        (s'.red k).state = .free ∧ (s'.red k).bufBase = (s.red k).bufBase ∧
        (∀ q, q ≠ k → s'.red q = s.red q) ∧ s' = { s with reds := s'.reds, links := s'.links })))

/-- With power at HBM, no WRITE being sent again, no LINK_WRITE block still to place, and neither block of the shard record bad, what the accesses meet an empty operand: of a request that stands before the Kudu of an entry that is READY or commits, none held. With the reduction entry not COMPLETE the context faults with RED_INCOMPLETE; with a reserved bit set, another step, or a step accepted before, with COMMIT_REQ; the entry is FAULTED and no byte changes. With no commit running, a sound request of a job whose health sweep is off, or has ended for the step, and that no checkpoint copy holds up, is accepted: ACC_STEP and ACC_SKIP of the status block are written and no byte outside it, the entry is COMMITTING, and the transfer blocks that brought the request are done. While the sweep of the step that this module has contributed to runs, the request is held in the Kudu's queue and its crossing entries free, or, where the queue is full, stays in them (R57). A step without a taken post is counted and contributed; one whose post was taken before the sweep was on is contributed without. COMMIT_REQUEST_RESUME accepts a held request that nothing holds any more, or faults it by the same rules where its entry has changed meanwhile. Commands that it says complete, under conditions on state and operands alone: COMMIT_REQUEST, COMMIT_REQUEST_RESUME. -/
def Obligations.CommitRequests : Prop :=
  ∀ (s : State) (st : Stack) (e : Fin 64),
    let k := entryKey st.val e.val
    let c := s.com k
    let x := s.red k
    let j := x.job
    let h := (s.job j).health
    let r := s.request k
    let at_ := c.recordAt st.val + 64
    let accepted (s' : State) : Prop :=
      Stat.accStep (s'.status k) = x.step ∧ Stat.accSkip (s'.status k) = (x.globalNf || Req.forceSkip r) ∧
      (∀ a, a < at_ ∨ at_ + 64 ≤ a → readByte s'.mem a = readByte s.mem a) ∧
      s'.com k = { c with state := .committing, busy := true, request := false, held := false, askers := [] } ∧
      (∀ q, q ≠ k → s'.com q = s.com q) ∧ s'.reds = s.reds ∧ (c.askers = [] → s'.tiles = s.tiles) ∧
      (∀ b ∈ c.askers, ∀ o, (s.tile b.1).moverOp b.2.1 = some o →
        ∃ y, (s'.tile b.1).moverOp b.2.1 = some y ∧ Sparse.find y.done b.2.2 = some true) ∧
      ∀ u, (s'.tile u).regs = (s.tile u).regs ∧ (s'.tile u).pc = (s.tile u).pc ∧ (s'.tile u).run = (s.tile u).run
    let refused (code : Nat) (s' : State) : Prop := (s'.red k).state = .faulted ∧ (s'.red k).fault = code ∧
      (s'.com k).request = false ∧ s'.mem = s.mem ∧ s'.tiles = s.tiles ∧
      (s.jobUsed j = true → (s.job j).ctxFault = none → (s'.job j).ctxFault = some (code, c.recordAt st.val))
    let sound : Prop := Req.reserved r = 0 ∧ Req.step r = x.step ∧ Stat.accStep (s.status k) ≠ x.step
    KudusServe s → NoLinkToPlace s → c.recordAt st.val ∉ s.badBlocks → at_ ∉ s.badBlocks →
    (c.request = true → c.held = false → (c.state = .ready ∨ c.busy = true) →
      (x.state ≠ .complete → Does (.commitRequest st e []) s (refused Code.redIncomplete)) ∧
      (x.state = .complete → ¬ sound → Does (.commitRequest st e []) s (refused Code.commitReq)) ∧
      (c.busy = false → x.state = .complete → sound → x.step < 2 ^ 32 →
        (h.on = false ∨ h.swept = some x.step ∧ h.sweptDone = some x.step → h.run = none → Does (.commitRequest st e []) s accepted) ∧
        (h.on = true → h.swept = some x.step → h.sweptDone ≠ some x.step → Does (.commitRequest st e []) s (fun s' =>
          (s.deferred st.val < Config.deferDepth st.val → s'.com k = { c with held := true } ∧
            ∀ q b, b ∈ (s'.crossing q).out → q = st.val → (b.tile, b.num, b.block) ∉ c.askers) ∧
          (Config.deferDepth st.val ≤ s.deferred st.val → s'.coms = s.coms ∧ s'.crossings = s.crossings) ∧
          s'.reds = s.reds ∧ s'.mem = s.mem ∧ (∀ v, Placing (s.tile v) (s'.tile v)) ∧ s'.jobs = s.jobs)) ∧
        (h.on = true → h.swept ≠ some x.step → Does (.commitRequest st e []) s (fun s' =>
          (s'.job j).health.noPosts = (if h.postStep = some x.step then h.noPosts else satAdd max32 h.noPosts 1) ∧
          (s'.job j).health.swept = some x.step ∧ ∀ u, (s'.tile u).regs = (s.tile u).regs ∧ (s'.tile u).pc = (s.tile u).pc)))) ∧
    (c.held = true → c.busy = false → c.state = .ready → s.requestWaits k x.step = false →
      (x.state = .complete → sound → x.step < 2 ^ 32 → Does (.commitRequestResume st e []) s accepted) ∧
      (x.state ≠ .complete → Does (.commitRequestResume st e []) s (refused Code.redIncomplete)) ∧
      (x.state = .complete → ¬ sound → Does (.commitRequestResume st e []) s (refused Code.commitReq)))

/-- COMMIT_END of a share that commits, none of whose blocks is known bad, with power at HBM and no WRITE being sent again anywhere. An accepted skip writes the status block only, with SKIPS one higher and LAST_STEP = ACC_STEP. A commit makes its writes in order and no byte outside them changes; afterwards both tags are one higher and LAST_STEP is ACC_STEP. Either way the entry no longer commits, READY unless it closes, and a COMPLETE reduction entry, no ring packet held for it and no digest kept, is rearmed for the next step with its counts and flags at 0; a signal of 1 to the object of COMMIT_REF comes through the control crossing. An uncorrectable block of its reads ends the context instead, counted. DIGEST_RECEIVED of the job's link step, over a link that is not miscabled: a digest of the count that the share holds changes nothing of the share where the digests agree, and faults the entry with REPLICA_DIVERGE, the share and the link kept, where they differ (log 75); one a step ahead is held and counted in LK_HELD. No tile's registers change. What a commit's reads meet is an operand (log 13). Commands that it says complete, under conditions on state and operands alone: COMMIT_END, DIGEST_RECEIVED. -/
def Obligations.CommitEffects : Prop :=
  ∀ (s : State) (st : Stack) (e : Fin 64),
    let k := entryKey st.val e.val
    let c := s.com k
    let x := s.red k
    let t := s.status k
    let at_ := c.recordAt st.val + 64
    let after (s' : State) : Prop :=
      (s'.com k).busy = false ∧ (s'.com k).state = (if c.state = .closing then .closing else .ready) ∧
      (x.state = .complete → (s'.red k).state = .opened ∧ (s'.red k).step = (x.step + 1) % 2 ^ 32 ∧ (s'.red k).rounds = 0 ∧
        (s'.red k).accepted = 0 ∧ (s'.red k).nfReady = false ∧ (s'.red k).localNf = false ∧ (s'.red k).globalNf = false ∧
        (s'.red k).kuduNf = false) ∧
      (x.state ≠ .complete → s'.red k = x) ∧
      (∀ o, s.refObj (s.job x.job).part c.commitRef = some o → s'.syncMsg s.nextId = some (.signal o 1 3 0 (33, 3))) ∧
      (s.refObj (s.job x.job).part c.commitRef = none → s'.syncMsgs = s.syncMsgs) ∧
      ∀ u, (s'.tile u).regs = (s.tile u).regs ∧ (s'.tile u).pc = (s.tile u).pc
    (c.busy = true → KudusServe s → x.ringHeld = [] → c.digestIn = [] → (∀ b ∈ commitReads s k, b ∉ s.badBlocks) →
      (Stat.accSkip t = true → Does (.commitEnd st e []) s (fun s' => after s' ∧
        Stat.skips (s'.status k) = (Stat.skips t + 1) % 2 ^ 64 ∧ Stat.lastStep (s'.status k) = Stat.accStep t ∧
        Stat.wTag (s'.status k) = Stat.wTag t ∧
        ∀ a, a < at_ ∨ at_ + 64 ≤ a → readByte s'.mem a = readByte s.mem a)) ∧
      (Stat.accSkip t = false → Does (.commitEnd st e []) s (fun s' => after s' ∧
        s'.mem = (applyWrites (commitWrites s k) s).mem ∧
        Stat.momTag (s'.status k) = (Stat.wTag t + 1) % 2 ^ 32 ∧ Stat.wTag (s'.status k) = (Stat.wTag t + 1) % 2 ^ 32 ∧
        Stat.lastStep (s'.status k) = Stat.accStep t ∧
        ∀ a, (∀ w ∈ commitWrites s k, a < w.1 ∨ w.1 + w.2.length ≤ a) → readByte s'.mem a = readByte s.mem a)) ∧
      (∀ a ∈ commitReads s k, Does (.commitEnd st e [⟨a, 0, .uncorrectable⟩]) s (fun s' =>
        (s'.red k).state = .faulted ∧ (s'.red k).fault = Code.dramUncorrectable ∧ a ∈ s'.badBlocks ∧
        (s'.mc st.val).ue = satAdd max32 (s.mc st.val).ue 1 ∧ s'.mem = s.mem ∧ s'.tiles = s.tiles))) ∧
    (c.state ≠ .off → c.digestIn = [] → ∀ (l : LinkId) (step v : Nat), (s.link l.val).miscabled = false →
      let now := (s.job x.job).linkStep
      let d : Instr := .digestReceived l st e step (Stat.digestK t) v
      (step % 65536 = now % 65536 → v = Stat.digest t → Does d s (fun s' => s'.reds = s.reds ∧ s'.com k = c ∧ s'.jobs = s.jobs ∧
        s'.mem = s.mem ∧ s'.tiles = s.tiles)) ∧
      (step % 65536 = now % 65536 → v ≠ Stat.digest t → Does d s (fun s' => (s'.red k).state = .faulted ∧
        (s'.red k).fault = Code.replicaDiverge ∧ (s'.job x.job).diverged = some (k, l.val) ∧ s'.mem = s.mem ∧ s'.tiles = s.tiles)) ∧
      (step % 65536 ≠ now % 65536 → step % 65536 = (now + 1) % 65536 → Does d s (fun s' =>
        s'.com k = { c with digestIn := [(l.val, step, Stat.digestK t, v)] } ∧ s'.reds = s.reds ∧ s'.mem = s.mem ∧ s'.tiles = s.tiles ∧
        (s'.link l.val).held = ((s.link l.val).held + 1) % 2 ^ 32)))

/-- On a link that is UP or CLOSING, no mover WRITE being sent again anywhere and no mover waiting for the link. A block that fails its parity, its check code or its sequence number is discarded: CRC_FAIL rises, NAK is set, nothing else changes. A good block's header takes effect, SEQ expected is one higher, and: of no lane, no more; on a miscabled link it is dropped; with another job's tag, on any lane, it is counted as foreign, and a transfer header answered as refused under its own tag and step (log 97); on the Kudu or control lane it keeps its receive-buffer block; on the program lane one step ahead it is held, and at any other step the job faults with STEP_SKEW; an end-to-end answer is queued, a transfer header is delivered, and a data block of a transfer that was taken lands, block by block, or is answered as refused and faults the context where a controller does not accept one. The buffer block it took is freed, unless it is held or delivered. No tile changes. The bytes under the check code are log 73; lanes whose contents come by rows of their own are log 34, idle blocks log 57. Commands that it says complete, under conditions on state and operands alone: LINK_BLOCK_ARRIVAL. -/
def Obligations.LinkBlocks : Prop :=
  ∀ (s : State) (link : LinkId) (hd : BitVec 128) (payload : List Byte) (code : DWord) (parity : Bool),
    let k := link.val
    let x := s.link k
    let h := hd.toNat
    let b := RxBlock.ofBits h payload
    let y : Link := { x.takeHeader h with rxSeq := (x.rxSeq + 1) % 65536 }
    let c : Instr := .linkBlockArrival link hd payload code parity
    let good : Prop := parity = true ∧ crc64 (leBytes 16 h ++ payload) = code.toNat ∧ bits h 112 16 = x.rxSeq
    let only (z : Link) (s' : State) : Prop := s'.link k = z ∧ (∀ q, q ≠ k → s'.link q = s.link q) ∧ s'.mem = s.mem ∧ s'.tiles = s.tiles
    let j := s.jobOfLink k
    let ours : Prop := x.miscabled = false ∧ b.foreignTo x = false
    (x.run = .up ∨ x.run = .closing) → NoneRetried s → NoMoverRuns k s →
    (¬ good → Does c s (fun s' => only { x with crcFail := (x.crcFail + 1) % 2 ^ 32, nak := true } s' ∧ s' = { s with links := s'.links, chamois := s'.chamois })) ∧
    (good →
      (2 < b.lane → Does c s (only y)) ∧
      (b.lane ≤ 2 → x.miscabled = true → Does c s (only (y.free b.lane))) ∧
      (b.lane = 1 → ours → Does c s (only { y with kuduIn := x.kuduIn + 1 })) ∧
      (b.lane = 2 → ours → Does c s (only { y with ctrlIn := x.ctrlIn + 1 })) ∧
      (b.lane ≤ 2 → x.miscabled = false → b.foreignTo x = true → ¬ (b.lane = 0 ∧ b.kind = 1) →
        Does c s (only { y.free b.lane with foreign := (x.foreign + 1) % 2 ^ 32 })) ∧
      (b.lane = 0 → x.miscabled = false → b.foreignTo x = true → b.kind = 1 → Does c s (fun s' =>
        (s'.link k).foreign = (x.foreign + 1) % 2 ^ 32 ∧ s'.outbox = s.outbox ++ [.answer k b.xfer false] ∧ s'.mem = s.mem ∧ s'.tiles = s.tiles ∧
        ∃ q ∈ (s'.link k).replay ++ (s'.link k).waiting, q.kind = 4 ∧ q.tag = b.tag ∧ q.step = b.step ∧ q.xfer = b.xfer)) ∧
      (b.lane = 0 → ours →
        (stepCompare b.step x.rxStep = .ahead → Does c s (only { y with held := (x.held + 1) % 2 ^ 32, heldBlocks := x.heldBlocks ++ [b] })) ∧
        (stepCompare b.step x.rxStep = .skew → Does c s (fun s' => only (y.free 0) s' ∧
          (s.jobUsed j = true → (s.job j).ctxFault = none → (s'.job j).ctxFault = some (Code.stepSkew, 0)))) ∧
        (stepCompare b.step x.rxStep = .same →
          (b.kind = 4 → Does c s (only { y.free 0 with answers := x.answers ++ [b.xfer] })) ∧
          (b.kind = 1 → (∀ f ∈ x.delivered.head?, f.kind = 1) → Does c s (only { y with delivered := x.delivered ++ [b] })) ∧
          (b.kind ≠ 4 → b.kind ≠ 1 → x.delivered = [] → ∀ l, x.landing.find? (fun l => l.xfer == b.xfer) = some l → l.refused = false →
            Does c s (fun s' => s'.tiles = s.tiles ∧ (s'.link k).delivered = [] ∧
              match landAll k l l.done (chunks 64 payload) s with
              | .ok u => s'.mem = u.mem ∧ (l.done + 256 < l.total → s'.outbox = s.outbox) ∧
                  (l.total ≤ l.done + 256 → s'.outbox = s.outbox ++ [.answer k l.xfer true] ∧
                    (s'.link k).landed = if x.syncEn && !l.buddy then x.landed + 1 else x.landed)
              | .error u => s'.mem = u.mem ∧ s'.outbox = s.outbox ++ [.answer k l.xfer false] ∧
                  (s'.link k).landed = x.landed)))))

/-- An UP link that has lost lock, light, or sent one block 8 times retrains, counted, as does one that drains, which then sends nothing; at its end, with four wavelengths and a laser source, it is UP again and sends every unacknowledged block once more (no mover then waiting for the link); when its time is over it is FAILED, its blocks are dropped, a live tile with a LINK_WRITE on it faults with LINK_DOWN, and the job bound to it loses concord; one that drains abandons its blocks likewise. While its engine and the laser branches have power and a laser source: a DOWN link tries its pair the other way round; a training pattern takes it to TRAINING; LINK_UP takes it to UP with the far end's identity, fresh sequence numbers and credits, and empty receive buffers (log 98). Loss of light retrains an UP link and sends one in training DOWN. An engine with a usable laser source left keeps its links; without one its UP and retraining links fail and those in training are DOWN. An inserted source is powered while the laser rail is on, and stands unpowered while it is off, when nothing detects a fault either. The end of a retraining that has no light is no event (log 2); the drain and the counts are log 34. Commands that it says complete, under conditions on state and operands alone: LINK_RETRAIN, RETRAIN_END, LINK_FAIL_TIMEOUT, ORIENTATION_STEP, LINK_UP, LIGHT_LOSS, LASER_FAULT, LASER_INSERT, TRAINING_PATTERN_RECEIVED. -/
def Obligations.LinkStates : Prop :=
  ∀ (s : State) (link : LinkId),
    let k := link.val
    let x := s.link k
    let j := s.jobOfLink k
    (∀ lost : Bool, x.run = .up → (lost = true ∨ x.light ≠ 15 ∨ ∃ b ∈ x.replay, 8 ≤ b.sends) →
      Does (.linkRetrain link lost) s (fun s' => s'.link k = { x with run := .retraining, retrain := (x.retrain + 1) % 2 ^ 32 } ∧
        s'.tiles = s.tiles ∧ ∀ q, q ≠ k → s'.link q = s.link q)) ∧
    (∀ lost : Bool, x.run = .closing → x.darkClose = false → (lost = true ∨ x.light ≠ 15 ∨ ∃ b ∈ x.replay, 8 ≤ b.sends) →
      Does (.linkRetrain link lost) s (fun s' =>
        s' = s.setLink k { x with darkClose := true, retrain := (x.retrain + 1) % 2 ^ 32 })) ∧
    (x.run = .closing → x.darkClose = true →
      (x.light = 15 → s.engineLit (k / 8) = true → NoMoverRuns k s → Does (.retrainEnd link) s (fun s' =>
        s'.links = (s.setLink k ({ x with darkClose := false } : Link).resendAll.flush).links ∧
        s' = { s with links := s'.links, chamois := s'.chamois })) ∧
      Does (.linkFailTimeout link) s (fun s' => s'.link k = { x with replay := [], waiting := [], darkClose := false } ∧
        ∀ w ∈ s.linkWrites k, (s.tile w.1).alive = true → (s'.tile w.1).run = .faulted ∧ (s'.tile w.1).faultCode = Code.linkDown)) ∧
    (x.run = .retraining → x.light = 15 → s.engineLit (k / 8) = true → Does (.retrainEnd link) s (fun s' =>
      (s'.link k).run = .up ∧ (NoMoverRuns k s → s'.tiles = s.tiles ∧
        (x.waiting = [] → (s.job j).faceWait = [] → s'.link k = { x.resendAll with run := .up })))) ∧
    (x.run = .retraining → x.light ≠ 15 ∨ s.engineLit (k / 8) = false → Does (.retrainEnd link) s (fun s' => s' = s)) ∧
    (x.run = .retraining → Does (.linkFailTimeout link) s (fun s' =>
      s'.link k = { x with run := .failed, replay := [], waiting := [], darkClose := false } ∧
      (∀ w ∈ s.linkWrites k, (s.tile w.1).alive = true → (s'.tile w.1).run = .faulted ∧ (s'.tile w.1).faultCode = Code.linkDown) ∧
      (∀ t, t ∉ (s.linkWrites k).map (·.1) → s'.tile t = s.tile t) ∧
      (j ≠ 0 → (s.job j).bound = true → (s.job j).ctxFault = none → (s'.job j).ctxFault = some (Code.concordLost, 0)))) ∧
    (x.run = .down → Does (.orientationStep link) s (fun s' => s'.link k = { x with swapped := !x.swapped } ∧ s' = { s with links := s'.links }) ∧
      (s.engineLit (k / 8) = true → Does (.trainingPatternReceived link) s (fun s' =>
        s'.link k = { x with run := .training, light := 15 } ∧ s' = { s with links := s'.links }))) ∧
    (x.run = .training → s.engineLit (k / 8) = true → ∀ (serial : DWord) (farLink : LinkId) (farFace : Fin 8), Does (.linkUp link serial farLink farFace) s (fun s' =>
      (s'.link k).run = .up ∧ (s'.link k).farSerial = serial.toNat ∧ (s'.link k).farLink = farLink.val ∧
      (s'.link k).miscabled = miscabled x.face farFace.val ∧
      (x.waiting = [] → NoMoverRuns k s → (s.job j).faceWait = [] → s'.tiles = s.tiles ∧ (s'.link k).txSeq = 0 ∧ (s'.link k).rxSeq = 0 ∧
        (s'.link k).replay = [] ∧ (s'.link k).heldBlocks = [] ∧ (s'.link k).delivered = [] ∧ (s'.link k).landing = [] ∧ (s'.link k).credit0 = 512 ∧ (s'.link k).credit1 = 256 ∧ (s'.link k).credit2 = 32))) ∧
    (∀ light : BitVec 4,
      (x.run = .up → light ≠ 15 → Does (.lightLoss link light) s (fun s' => (s'.link k).run = .retraining ∧
        (s'.link k).light = light.toNat ∧ (s'.link k).retrain = (x.retrain + 1) % 2 ^ 32 ∧ s'.tiles = s.tiles)) ∧
      (x.run = .training → light ≠ 15 → Does (.lightLoss link light) s (fun s' => (s'.link k).run = .down ∧
        (s'.link k).light = light.toNat ∧ s'.tiles = s.tiles)) ∧
      (x.run = .disabled ∨ light = 15 → Does (.lightLoss link light) s (fun s' => s' = s.setLink k { x with light := light.toNat }))) ∧
    (∀ (slot : Fin 24) (shorted : Bool),
      let twin := if slot.val % 2 = 0 then slot.val + 1 else slot.val - 1
      (s.power.lasers = true → s.power.optics = true → (s.laser twin).usable = true → Does (.laserFault slot shorted) s (fun s' => (s'.laser slot.val).usable = false ∧
        (s'.laser slot.val).powered = false ∧ s'.laser twin = s.laser twin ∧ s'.links = s.links ∧ s'.tiles = s.tiles)) ∧
      (s.power.lasers = true → (s.laser twin).usable = false → Does (.laserFault slot shorted) s (fun s' => (s'.laser slot.val).usable = false ∧
        ∀ i, i < 8 → ((s.link (8 * (slot.val / 2) + i)).run = .up ∨ (s.link (8 * (slot.val / 2) + i)).run = .retraining →
            (s'.link (8 * (slot.val / 2) + i)).run = .failed) ∧
          ((s.link (8 * (slot.val / 2) + i)).run = .training → (s'.link (8 * (slot.val / 2) + i)).run = .down))) ∧
      (s.power.lasers = false → Does (.laserFault slot shorted) s (fun s' => (s'.laser slot.val).usable = false ∧ s' = { s with lasers := s'.lasers })) ∧
      (s.power.lasers = true → Does (.laserInsert slot) s (fun s' => s'.laser slot.val = { present := true, shorted := false, powered := true } ∧
        (∀ n, n ≠ slot.val → s'.laser n = s.laser n) ∧ s'.links = s.links ∧ s'.tiles = s.tiles)) ∧
      (s.power.lasers = false → Does (.laserInsert slot) s (fun s' =>
        s'.laser slot.val = { present := true, shorted := false, powered := false } ∧ s' = { s with lasers := s'.lasers })))

/-- A transfer header at the front of the delivered blocks, with none behind it: rows inside the landing range, or a buddy slot (log 48), are recorded as landing; others are refused, counted and answered, under their own tag and step (log 97). A landed transfer sends the link's landing object a signal by one, through the control crossing (log 81). The first end-to-end answer received completes its LINK_WRITE, or faults its tile with LINK_REFUSED. When every share of a job's commit entries has finished the link step it moves on by one, a bound job's links compare with the new step, and of a job to which nothing was held nothing else changes. The registers of no tile change. How often a landing block fails its check is log 82. Commands that it says complete, under conditions on state and operands alone: LINK_WRITE_ARRIVAL, END_TO_END_ANSWER, LANDING_SIGNAL, LINK_STEP_ADVANCE. -/
def Obligations.LinkTransfers : Prop :=
  ∀ s : State,
    (∀ (link : LinkId) (addr pitch rows rowBytes : Nat) (b : RxBlock),
      let k := link.val
      let x := s.link k
      let l : Landing := {
        xfer := b.xfer, addr := addr, pitch := pitch, rows := rows, rowBytes := rowBytes, buddy := s.landsInBuddy k addr pitch rows rowBytes }
      x.delivered = [b] → b.kind = 1 →
      (rowsWithin addr pitch rows rowBytes x.landBase (x.landSize * 4096) = true → s.mayLand k addr pitch rows rowBytes = true) ∧
      (s.mayLand k addr pitch rows rowBytes = true → 0 < rows * rowBytes → Does (.linkWriteArrival link addr pitch rows rowBytes) s (fun s' =>
        s'.link k = { x.free 0 with delivered := [], landing := x.landing ++ [l] } ∧ s'.mem = s.mem ∧ s'.tiles = s.tiles ∧ s'.outbox = s.outbox)) ∧
      (s.mayLand k addr pitch rows rowBytes = false → Does (.linkWriteArrival link addr pitch rows rowBytes) s (fun s' =>
        (s'.link k).refused = (x.refused + 1) % 2 ^ 32 ∧ (s'.link k).landing = x.landing ++ [{ l with refused := true }] ∧
        (s'.link k).delivered = [] ∧ s'.outbox = s.outbox ++ [.answer k b.xfer false] ∧ s'.mem = s.mem ∧ s'.tiles = s.tiles ∧
        ∃ q ∈ (s'.link k).replay ++ (s'.link k).waiting, q.kind = 4 ∧ q.tag = b.tag ∧ q.step = b.step % 65536 ∧ q.xfer = b.xfer))) ∧
    (∀ (link : LinkId) (o : Nat), (s.link link.val).landed ≠ 0 → s.refObj (s.partOfLink link.val) (s.link link.val).landSync = some o →
      Does (.landingSignal link) s (fun s' => s'.link link.val = { s.link link.val with landed := (s.link link.val).landed - 1 } ∧
        s'.syncMsg s.nextId = some (.signal o 1 3 0 (33, 3)) ∧ s'.nextId = s.nextId + 1 ∧ s'.syncs = s.syncs ∧ s'.mem = s.mem ∧
        s'.tiles = s.tiles)) ∧
    (∀ (link : LinkId) (n t : Nat) (r : List Nat) (o : MoverOp), (s.link link.val).answers = n :: r →
      s.tiles.findSome? (fun e => (e.2.mover.find? (fun o => o.desc.kind == 4 && o.desc.link == link.val && o.sentAll && o.xfer == n)).map
        (fun o => (e.1, o))) = some (t, o) → (s.tile t).moverOp o.num = some o → (s.tile t).alive = true →
      Does (.endToEndAnswer link true) s (fun s' => (s'.tile t).moverOp o.num = some { o with answeredOk := true } ∧
        (s'.link link.val).answers = r ∧ (s'.tile t).regs = (s.tile t).regs ∧ s'.mem = s.mem) ∧
      Does (.endToEndAnswer link false) s (fun s' => Faulted t 5 Code.linkRefused o.pc 0 s s' ∧ (s'.link link.val).answers = r)) ∧
    (∀ j : BitVec 8,
      let J := s.job j.toNat
      s.jobUsed j.toNat = true → s.comsOf j.toNat ≠ [] → J.concord = none →
      (∀ k ∈ s.comsOf j.toNat, Stat.lastStep (s.status k) = J.linkStep) → Does (.linkStepAdvance j) s (fun s' =>
        (s'.job j.toNat).linkStep = (J.linkStep + 1) % 2 ^ 32 ∧ s'.tiles = s.tiles ∧
        (J.bound = true → ∀ k ∈ J.allLinks, (s'.link k).rxStep = (J.linkStep + 1) % 2 ^ 32 % 65536) ∧
        (J.bound = false → J.ctrlHeld = [] → J.sweepIn = [] → J.sweeps = [] → J.results = [] → (∀ k ∈ s.comsOf j.toNat, (s.com k).digestIn = []) →
          s'.mem = s.mem ∧ s'.links = s.links ∧ s'.reds = s.reds)))

/-- Of a link that belongs to a face of its job and is not miscabled; over a miscabled one sweeps and aborts only free their credits. A sweep contribution of the link step for a sweep that this module has not begun waits with it; one for a sweep in progress is combined, OR or minimum, and forwarded with one hop more until it has gone half round the ring (R418); when both sides of the axis are complete the sweep goes on along the next axis, both ways, or its result stands. One of the step after is held with its credit and counted; one whose step is neither faults the job with STEP_SKEW, but a checkpoint's of a step that the job has passed, which waits (R522; log 48); a verdict contribution before the concord check waits at the link. A neighbour's concord message that comes before this module's own check waits at the link; during the check the face is compared, once. When the time is over every face without a message is recorded with cause 3 and waited for no more: the check goes on, or ends and with it its JOB_START, and the job does not become ready. A job abort, of the link step where the links are bound, is forwarded once on every live link of the job, and the context faults with JOB_ABORTED naming the module that began it; one of the step after is held with its credit. Memory of the tiles and their registers stay. Which blocks are compared by step is log 48, the order of causes log 47, what the sweep carries log 46; a second message of a face changes nothing (log 2). Commands that it says complete, under conditions on state and operands alone: JOB_ABORT_RECEIVED, SWEEP_HOP, CONCORD_EXCHANGE, CONCORD_TIMEOUT. -/
def Obligations.SweepsAndConcord : Prop :=
  ∀ (s : State) (link : LinkId) (j : Nat),
    let k := link.val
    let J := s.job j
    let keeps (s' : State) : Prop := s'.tiles = s.tiles ∧ s'.reds = s.reds ∧ s'.coms = s.coms
    s.jobOfLink k = j →
    ((s.link k).miscabled = true → ∀ kind step hop value origin,
      Does (.sweepHop link kind step hop value) s (fun s' => s' = s.setLink k ((s.link k).handled 2 1)) ∧
      Does (.jobAbortReceived link origin step) s (fun s' => s' = s.setLink k ((s.link k).handled 2 1))) ∧
    (∀ (f kind hop value : Nat), (s.link k).miscabled = false → s.jobUsed j = true → J.faceOf k = some f → kind = 0 ∨ kind = 2 ∨ kind = 3 → 0 < hop → hop ≤ J.hops (f / 2) →
      (∀ step, stepCompare step J.linkStep = .same → J.results = [] → J.concord = none →
        (∀ r ∈ J.sweeps, ¬ (r.kind = kind ∧ r.step = J.linkStep)) → Does (.sweepHop link kind step hop value) s (fun s' => keeps s' ∧
          (s'.job j).sweepIn = J.sweepIn ++ [{ kind := kind, step := J.linkStep, axis := f / 2, minus := f % 2 == 0, hop := hop, value := value }] ∧
          s'.mem = s.mem)) ∧
      (∀ step, stepCompare step J.linkStep = .ahead → J.results = [] → J.concord = none →
        Does (.sweepHop link kind step hop value) s (fun s' => keeps s' ∧ s'.mem = s.mem ∧
          (s'.link k).held = ((s.link k).held + 1) % 2 ^ 32 ∧
          (s'.job j).sweepIn = J.sweepIn ++ [{
            kind := kind, step := (J.linkStep + 1) % 2 ^ 32, axis := f / 2, minus := f % 2 == 0
            hop := hop, value := value, link := some k }])) ∧
      (∀ step, stepCompare step J.linkStep = .skew → kind ≠ 3 ∨ newer 16 step J.linkStep = true → J.ctxFault = none → Does (.sweepHop link kind step hop value) s (fun s' => keeps s' ∧
        (s'.job j).ctxFault = some (Code.stepSkew, 0) ∧ s'.mem = s.mem)) ∧
      (∀ step, stepCompare step J.linkStep = .skew → kind = 3 → newer 16 step J.linkStep = false → J.results = [] → J.concord = none →
        (∀ r ∈ J.sweeps, ¬ (r.kind = 3 ∧ r.step = step)) → Does (.sweepHop link kind step hop value) s (fun s' => keeps s' ∧ s'.mem = s.mem ∧
          (s'.job j).ctxFault = J.ctxFault ∧
          (s'.job j).sweepIn = J.sweepIn ++ [{ kind := 3, step := step, axis := f / 2, minus := f % 2 == 0, hop := hop, value := value }])) ∧
      (∀ (r : SweepRun) (a : Nat) (rest : List Nat),
        let v := if kind = 0 then (if r.value = 0 ∧ value = 0 then 0 else 1) else if value < r.value then value else r.value
        let m := f % 2 == 0
        let outs (l : List (Nat × Nat)) (s' : State) : Prop := s'.outbox = s.outbox ++ l.filterMap (fun e =>
          (s.upLink J e.1).map (fun q => .sweep q kind J.linkStep e.2 v))
        J.sweeps = [r] → r.kind = kind → r.step = J.linkStep → r.axes = a :: rest → f / 2 = a → r.got.contains (m, hop) = false →
        (kind = 0 → r.value ≤ 1 ∧ value ≤ 1) → J.sweepIn = [] → J.results = [] → J.concord = none →
        ∀ step, stepCompare step J.linkStep = .same →
        let on : SweepRun := { r with value := v, got := r.got ++ [(m, hop)] }
        let fwd : List (Nat × Nat) := if hop < J.hops a then [(if f % 2 = 0 then 2 * a + 1 else 2 * a, hop + 1)] else []
        (on.axisDone J = false → Does (.sweepHop link kind step hop value) s (fun s' => keeps s' ∧ s'.mem = s.mem ∧
          (s'.job j).sweeps = [on] ∧ (s'.job j).sweepIn = [] ∧ (s'.job j).results = [] ∧ outs fwd s')) ∧
        (on.axisDone J = true → kind = 0 → rest = [] → Does (.sweepHop link kind step hop value) s (fun s' => keeps s' ∧ s'.mem = s.mem ∧
          (s'.job j).sweeps = [] ∧ (s'.job j).results = [(0, J.linkStep, v)] ∧ outs fwd s')) ∧
        (∀ b l, on.axisDone J = true → rest = b :: l → 0 < J.hops b → Does (.sweepHop link kind step hop value) s (fun s' =>
          keeps s' ∧ s'.mem = s.mem ∧ (s'.job j).sweeps = [{ on with axes := rest, got := [] }] ∧ (s'.job j).results = [] ∧
          outs (fwd ++ [(2 * b, 1), (2 * b + 1, 1)]) s')))) ∧
    (∀ hop value step, (s.link k).miscabled = false → J.concord = none → 0 < hop → (∀ f, J.faceOf k = some f → hop ≤ J.hops (f / 2)) →
      Does (.sweepHop link 1 step hop value) s (fun s' =>
        s'.link k = ({ s.link k with verdictIn := (s.link k).verdictIn ++ [(hop, value)] } : Link).handled 2 1 ∧
        s' = { s with links := s'.links })) ∧
    (∀ x y z serial digests, J.concord = none → Does (.concordExchange link x y z serial digests) s (fun s' =>
      s'.link k = { (s.link k).handled 2 1 with concordIn := some ⟨x, y, z, serial, digests⟩ } ∧ s' = { s with links := s'.links })) ∧
    (∀ (x y z serial f : Nat) (digests : List Byte) (c : ConcordRun), J.concord = some c → J.faceOf k = some f →
      ((∃ r ∈ c.faces, r.face = f) → Does (.concordExchange link x y z serial digests) s (fun s' => s' = s.setLink k ((s.link k).handled 2 1))) ∧
      ((∀ r ∈ c.faces, r.face ≠ f) → (∃ g ∈ J.faces, g ≠ f ∧ ∀ r ∈ c.faces, r.face ≠ g) →
        Does (.concordExchange link x y z serial digests) s (fun s' => keeps s' ∧
          (s'.job j).concord = some { c with faces := c.faces ++ [compareConcord s J c.digests f ⟨x, y, z, serial, digests⟩] } ∧ s'.mem = s.mem))) ∧
    (∀ (i : BitVec 8) (c : ConcordRun), (s.job i.toNat).concord = some c → (∃ g ∈ (s.job i.toNat).faces, ∀ r ∈ c.faces, r.face ≠ g) →
      (s.job i.toNat).hops 0 ≠ 0 → (s.job i.toNat).sweepIn = [] → (s.job i.toNat).results = [] →
      Does (.concordTimeout i) s (fun s' => keeps s' ∧ (s'.job i.toNat).state = (s.job i.toNat).state ∧
        ((s'.job i.toNat).concord = some { c with faces := c.faces ++
          ((s.job i.toNat).faces.filter (fun f => !c.faces.any (fun r => r.face == f))).map (fun f => { face := f, cause := 3 }) } ∨
         (s'.job i.toNat).concord = none ∧ s'.cmd c.mailbox c.seq = none))) ∧
    (∀ (origin : Fin 4096) (step : Nat), (s.link k).miscabled = false → J.bound = true → stepCompare step J.linkStep = .ahead →
      Does (.jobAbortReceived link origin step) s (fun s' => keeps s' ∧ s'.mem = s.mem ∧ s'.outbox = s.outbox ∧
        s'.job j = { J with ctrlHeld := J.ctrlHeld ++ [(k, step, some origin.val)] } ∧
        (s'.link k).held = ((s.link k).held + 1) % 2 ^ 32)) ∧
    (∀ (origin : Fin 4096) (step : Nat), (s.link k).miscabled = false → s.jobUsed j = true → J.bound = true →
      stepCompare step J.linkStep = .same → J.abortSent = false → J.ctxFault = none →
      Does (.jobAbortReceived link origin step) s (fun s' => keeps s' ∧ (s'.job j).abortSent = true ∧
        (s'.job j).ctxFault = some (Code.jobAborted, origin.val) ∧ s'.mem = s.mem ∧
        s'.outbox = s.outbox ++ (J.allLinks.filter (fun l => (s.link l).run == .up || (s.link l).run == .retraining)).map
          (fun l => .abort l origin.val)))

/-- A quad domain's rail settles: the domain is settled, and no other; the spine goes down to the highest step once every domain has settled below it, and only then. A droop changes nothing. While the core rail is on and firmware has been loaded and booted, an undervoltage stops every partition: FW is STOPPED, none of their tiles runs, parks or halts on, with its registers as they were, and no job is being switched in any more; a handshake stall faults the job that holds, or is being switched into, the stalled herd's own live partition and each one named, or where none does, each of its ready jobs (log 13). In boot either is a hardware fault of boot: FW is STOPPED and the load is over (R535). The oldest release report is taken once no flag raised before it is still on its way, and waits else; it commands every quad of the holding job's partition to one step no higher than the ceiling, and arms the quiesce where the slice is over and another job is ready. A droop, a fault of rails that are off and a report that is not there change nothing (log 2); a lost packet of the firmware comes by HANDSHAKE_STALL (log 84). Commands that it says complete, under conditions on state and operands alone: RELEASE_REPORT, RAIL_SETTLED, DROOP, UNDERVOLTAGE, HANDSHAKE_STALL. -/
def Obligations.RailsAndHardwareFaults : Prop :=
  ∀ s : State,
    let top := ((List.range s.quadCount).map (fun q => (s.quad q).step)).foldl max 0
    (∀ q, q < s.quadCount → q ≠ 128 → Does (.railSettled q) s (fun s' => s'.quad q = { s.quad q with settled := true } ∧
      (∀ r, r ≠ q → s'.quad r = s.quad r) ∧ s'.tiles = s.tiles ∧ s'.mem = s.mem ∧
      (((∀ r, r < s.quadCount → r ≠ q → (s.quad r).settled = true) ∧ top < s.spineStep → s'.spineStep = top ∧ s'.spineSettled = false)) ∧
      (s.spineStep ≤ top ∨ (∃ r, r < s.quadCount ∧ r ≠ q ∧ (s.quad r).settled = false) →
        s'.spineStep = s.spineStep ∧ s'.spineSettled = s.spineSettled))) ∧
    (s.spineStep ≤ top → Does (.railSettled 128) s (fun s' => s' = { s with spineSettled := true })) ∧
    (∀ d, Does (.droop d) s (fun s' => s' = s)) ∧
    (∀ domain mv, (s.power.core = true → s.fw ≠ .rom → s.fw ≠ .loading → Does (.undervoltage domain mv) s (fun s' => s'.fw = .stopped ∧ s'.hwFaulted = true ∧
        (∀ p ∈ s.liveParts, (s'.part p).incoming = 0 ∧
          ∀ t ∈ s.partTiles p, (s'.tile t).run = .stopped ∨ (s'.tile t).run = .faulted) ∧
        ∀ t, (s'.tile t).regs = (s.tile t).regs ∧ (s'.tile t).pc = (s.tile t).pc)) ∧
      (s.power.core = false ∨ s.fw = .rom → s.fw ≠ .loading → Does (.undervoltage domain mv) s (fun s' => s' = s))) ∧
    (s.fw = .loading → s.boot.loading ≠ none →
      let ends (s' : State) : Prop := s'.fw = .stopped ∧ s'.boot.loading = none ∧ s'.hwFaulted = true
      (∀ domain mv, Does (.undervoltage domain mv) s ends) ∧ ∀ unit us ps, Does (.handshakeStall unit us ps) s ends) ∧
    (∀ unit us ps, s.fw ≠ .rom → s.fw ≠ .loading → Does (.handshakeStall unit us ps) s (fun s' => s'.hwFaulted = true ∧ s'.tiles = s.tiles ∧
      (∀ p, (p ∈ ps.map (·.val) ∨ unit < 0x8000 ∧ p = s.partOfHerd unit) → p ≠ 0 → (s.part p).live = true →
        let j := if (s.part p).holding = 0 then (s.part p).incoming else (s.part p).holding
        s.jobUsed j = true → (s.job j).ctxFault = none →
          (s'.job j).ctxFault = some (0, 0) ∧ ((s.job j).part = p → (s'.part p).fault = true)) ∧
      ∀ p, (p ∈ ps.map (·.val) ∨ unit < 0x8000 ∧ p = s.partOfHerd unit) → p ≠ 0 → (s.part p).live = true →
        (s.part p).holding = 0 → (s.part p).incoming = 0 → ∀ j ∈ s.jobsOf p, s.jobUsed j = true → (s.job j).state = .ready →
          (s.job j).ctxFault = none → (s'.job j).ctxFault = some (0, 0))) ∧
    (∀ jb : BitVec 8,
      let j := jb.toNat
      let J := s.job j
      let P := s.part J.part
      (J.reports = [] → Does (.releaseReport jb) s (fun s' => s' = s)) ∧
      (∀ r l, J.reports = r :: l →
        (r.fault = true ∨ r.halt = true ∨ r.nonfin = true → Does (.releaseReport jb) s (fun s' => s' = s)) ∧
        (r.fault = false → r.halt = false → r.nonfin = false → Does (.releaseReport jb) s (fun s' =>
          (s'.job j).reports = l ∧ (s'.job j).reported = some r ∧ s'.tiles = s.tiles ∧
          (P.holding = j → ∃ k, k ≤ s'.ceiling J.part ∧ ∀ q ∈ P.quads, (s'.quad q).step = k) ∧
          (P.holding = j → P.armed = false → P.leaving = false → J.td = .none → J.weight * 1000000 ≤ J.sliceNs →
            (∃ k ∈ s.jobsOf J.part, k ≠ j ∧ (s.job k).state = .ready) → (s'.part J.part).armed = true)))))

/-- A raised FAULT flag is taken, and every job of the partition that has faulted is reported: the teardown of the one that holds its herds begins, one whose context is saved is torn down there at once, and a job without a fault goes on. A raised HALT flag is taken and no tile of the partition is left to be posted. A raised NONFIN flag is recorded, and release reports behind it wait for it no more. A herd of the grade that the barrier reaches is marked asked. Once its tiles are quiet a herd asked answers: it is recorded; with the last herd a switch-out begins, unless a used tile has faulted, or the torn-down job's tiles are stopped. A flag that is not up, and a herd of no partition, change nothing. The registers of no tile change. A flag that is not up and a herd of no partition are no events (log 2). Commands that it says complete, under conditions on state and operands alone: FAULT_FLAG, HALT_FLAG, NONFIN_FLAG, QUIESCE_REQUEST, QUIESCE_ANSWER. -/
def Obligations.FlagsAndQuiesce : Prop :=
  ∀ s : State,
    (∀ p : Fin 17,
      let P := s.part p.val
      (P.fault = true → ∀ j, s.jobsOf p.val = [j] → (s.job j).part = p.val → P.holding = j → P.incoming ≠ j →
        (s.job j).td = .none → (s.job j).state ≠ .tornDown →
        ((∃ t ∈ s.usedTiles j, (s.tile t).run = .faulted) ∨ (s.job j).ctxFault ≠ none) → Does (.faultFlag p) s (fun s' =>
          (s'.part p.val).fault = false ∧ (s'.job j).td = .quiesce ∧ s'.tiles = s.tiles)) ∧
      (P.fault = true → P.incoming = 0 → P.holding ≠ 0 → Does (.faultFlag p) s (fun s' => (s'.part p.val).fault = false ∧
        ∀ k ∈ s.jobsOf p.val, (s.job k).part = p.val → (s.job k).td = .none → (s.job k).state ≠ .tornDown →
          (k = P.holding → ((∃ t ∈ s.usedTiles k, (s.tile t).run = .faulted) ∨ (s.job k).ctxFault ≠ none) → (s'.job k).td = .quiesce) ∧
          (k ≠ P.holding → (s.job k).ctxFault ≠ none → (s.job k).ctx.isSome = true →
            (s'.job k).state = .tornDown ∧ (s'.job k).td = .none) ∧
          ((k = P.holding → ∀ t ∈ s.usedTiles k, (s.tile t).run ≠ .faulted) → (s.job k).ctxFault = none →
            (s'.job k).state = (s.job k).state ∧ (s'.job k).td = .none))) ∧
      (P.fault = false → Does (.faultFlag p) s (fun s' => s' = s)) ∧
      (P.halt = true → Does (.haltFlag p) s (fun s' => (s'.part p.val).halt = false ∧
        (∀ t ∈ s.partTiles p.val, s'.tile t = { s.tile t with haltNew := [] }) ∧ ∀ t, t ∉ s.partTiles p.val → s'.tile t = s.tile t)) ∧
      (P.halt = false → Does (.haltFlag p) s (fun s' => s' = s)) ∧
      (P.nonfin = true → Does (.nonfinFlag p) s (fun s' =>
        s' = flagReached p.val (fun r => { r with nonfin := false }) (s.setPart p.val { P with nonfinSeen := true }))) ∧
      (P.nonfin = false → Does (.nonfinFlag p) s (fun s' => s' = s))) ∧
    (∀ h, h < s.herdCount →
      let p := s.partOfHerd h
      let P := s.part p
      let j := P.holding
      let J := s.job j
      (p = 0 → Does (.quiesceRequest h) s (fun s' => s' = s) ∧ Does (.quiesceAnswer h) s (fun s' => s' = s)) ∧
      (p ≠ 0 → s.barrierOut p = true → h ∉ P.asked → Does (.quiesceRequest h) s (fun s' =>
        s' = s.setPart p { P with asked := P.asked ++ [h] })) ∧
      (p ≠ 0 → j ≠ 0 → P.leaving = false → s.barrierOut p = true → h ∈ P.asked → h ∉ J.answered →
        (∀ t ∈ J.tilesIn h, (s.tile t).quiet (J.td == .none) = true) →
        ((∃ g ∈ P.herds, g ≠ h ∧ g ∉ J.answered) → Does (.quiesceAnswer h) s (fun s' =>
          s' = s.setJob j { J with answered := J.answered ++ [h] })) ∧
        ((∀ g ∈ P.herds, g = h ∨ g ∈ J.answered) → J.td = .none →
          (∀ t ∈ s.usedTiles j, (s.tile t).run ≠ .faulted) → Does (.quiesceAnswer h) s (fun s' =>
          (s'.part p).leaving = true ∧ (s'.job j).answered = [] ∧ s'.tiles = s.tiles ∧ s'.mem = s.mem)) ∧
        ((∀ g ∈ P.herds, g = h ∨ g ∈ J.answered) → J.td ≠ .none → Does (.quiesceAnswer h) s (fun s' =>
          (s'.job j).td = .clean ∧ (∀ t ∈ s.usedTiles j, (s'.tile t).run ≠ .running ∧ (s'.tile t).run ≠ .parked) ∧
          (∀ t, (s'.tile t).regs = (s.tile t).regs) ∧ s'.mem = s.mem))))

/-- When a teardown's quiesce takes too long the job's tiles that have neither faulted nor halted are STOPPED. TEARDOWN_END of a job whose tiles are stopped leaves it torn down, and it holds the herds no more. A switch-out whose drain is complete, of a job without a fault or an uncorrectable word, saves the context as the read of the herds finds it, resets its ports and makes the job ready; of a job that has faulted meanwhile it is the save of its teardown, which is complete; one that is abandoned lets every tile that had parked for it run on and is counted. SWITCH_IN_END, unless Ibex firmware has stopped or sync operations of the job whose tiles stand there are still in the network (log 105), gives the incoming job the herds, counted; a job that has run before has its tiles' registers, program counters and run states as they were saved; a job that has never run starts its tiles at their entries. The clauses without effect are log 2; which context stands in the herds is log 18, which counters a context leaves out log 41, the read of a save log 84, a torn-down job log 64. Commands that it says complete, under conditions on state and operands alone: TEARDOWN_QUIESCE_TIMEOUT, TEARDOWN_END, SWITCH_OUT_DRAIN_END, SWITCH_ABANDON, SWITCH_IN_END. -/
def Obligations.TeardownAndSwitches : Prop :=
  ∀ s : State,
    (∀ jb : BitVec 8,
      let j := jb.toNat
      let J := s.job j
      (J.td = .quiesce → (s.part J.part).holding = j → (s.part J.part).leaving = false → Does (.teardownQuiesceTimeout jb) s (fun s' =>
        (s'.job j).td = .clean ∧ s'.mem = s.mem ∧ (∀ t, (s'.tile t).regs = (s.tile t).regs ∧ (s'.tile t).pc = (s.tile t).pc) ∧
        ∀ t ∈ s.usedTiles j, (s'.tile t).run = if (s.tile t).run = .faulted ∨ (s.tile t).run = .halted then (s.tile t).run else .stopped)) ∧
      (J.td ≠ .quiesce → Does (.teardownQuiesceTimeout jb) s (fun s' => s' = s)) ∧
      (J.td = .clean → (s.part J.part).holding = j → j ≠ 0 → Does (.teardownEnd jb) s (fun s' => (s'.job j).state = .tornDown ∧ (s'.job j).td = .none ∧
        (s'.part J.part).holding ≠ j ∧ (s'.job j).aborts = [] ∧ ∀ t, (s'.tile t).pc = (s.tile t).pc ∨ (s'.tile t).run = .running)) ∧
      (J.td ≠ .clean → Does (.teardownEnd jb) s (fun s' => s' = s))) ∧
    (∀ p : Fin 17,
      let P := s.part p.val
      let j := P.holding
      let J := s.job j
      (P.leaving = true → s.drained j = true → J.td = .none → J.everHeld = true → J.part = p.val → P.resident = j → s.jobUsed j = true →
        (∀ t ∈ s.usedTiles j, (s.tile t).run ≠ .faulted) → J.ctxFault = none → s.eccBad = [] →
        Does (.switchOutDrainEnd p) s (fun s' => (s'.job j).state = .ready ∧ (s'.job j).ctx = some ((readForSave j s).contextOf j) ∧
          (s'.part p.val).holding = 0 ∧ s'.mem = s.mem ∧ (∀ t ∈ s.usedTiles j, (s'.tile t).port.state = .reset) ∧
          ∀ t, (s'.tile t).regs = (s.tile t).regs ∧ (s'.tile t).pc = (s.tile t).pc ∧ (s'.tile t).run = (s.tile t).run)) ∧
      (P.leaving = true → s.drained j = true → J.td = .none → J.state ≠ .tornDown → J.part = p.val → P.incoming ≠ j → j ≠ 0 →
        s.jobUsed j = true → J.ctxFault ≠ none → Does (.switchOutDrainEnd p) s (fun s' => (s'.job j).state = .tornDown ∧
          (s'.job j).td = .none ∧ (s'.job j).ctxFault = none ∧ (s'.job j).ctx.isSome = true ∧ (s'.part p.val).holding ≠ j)) ∧
      (P.leaving = true → s.drained j = false → J.td = .none → Does (.switchAbandon p) s (fun s' =>
        (s'.part p.val).leaving = false ∧ (s'.part p.val).armed = false ∧ (s'.part p.val).holding = j ∧
        (s'.job j).acct.now.abandons = J.acct.now.abandons + 1 ∧ s'.mem = s.mem ∧
        ∀ t ∈ s.usedTiles j, (s'.tile t).hold = false ∧ (s'.tile t).park ≠ .quiesce ∨ (s.tile t).run ≠ .parked)) ∧
      (P.leaving = false → Does (.switchOutDrainEnd p) s (fun s' => s' = s) ∧ Does (.switchAbandon p) s (fun s' => s' = s)) ∧
      (P.incoming = 0 → Does (.switchInEnd p) s (fun s' => s' = s)) ∧
      (s.fw = .stopped ∨ s.syncBehind P.resident P.incoming = true → Does (.switchInEnd p) s (fun s' => s' = s)) ∧
      (∀ i, P.incoming = i → i ≠ 0 → (s.job i).part = p.val → s.fw ≠ .stopped →
        ((s.job i).everHeld = false → (s.job i).ctx = none → P.resident = i → Does (.switchInEnd p) s (fun s' =>
          (s'.part p.val).holding = i ∧ (s'.part p.val).incoming = 0 ∧ (s'.job i).state = .holding ∧ (s'.job i).everHeld = true ∧ s'.mem = s.mem ∧
          ∀ t ∈ s.usedTiles i, (s.tile t).run = .stopped → 0 < (s.tile t).regionSize →
            (s'.tile t).run = .running ∧ (s'.tile t).pc = (s.tile t).entry)) ∧
        (∀ c, (s.job i).everHeld = true → (s.job i).ctx = some c → P.resident = 0 ∨ P.resident = i →
          Does (.switchInEnd p) s (fun s' => (s'.part p.val).holding = i ∧ (s'.part p.val).incoming = 0 ∧ (s'.part p.val).resident = i ∧
            (s'.job i).state = .holding ∧ (s'.job i).ctx = none ∧ (s'.job i).acct.now.switches = (s.job i).acct.now.switches + 1 ∧
            ∀ t ∈ s.partTiles p.val, (s'.tile t).regs = (Sparse.get Tile.reset c.tiles t).regs ∧
              ((Sparse.get Tile.reset c.tiles t).park ≠ .quiesce → (s'.tile t).pc = (Sparse.get Tile.reset c.tiles t).pc ∧
                (s'.tile t).run = (Sparse.get Tile.reset c.tiles t).run)))))

/-- A sample while Ibex firmware runs takes one calibrated estimate of the counted energy into the last five (R492, R493), restarts the herd counters and counts a tick for every live partition. A window that ends carries what was over the budget on, at least 0 (R494), calibrates between 0.9 and 1.1, restarts from 0 and takes a waiting budget. A domain whose lowest slack of 24 hours is ample, with a code above 0, is to fall by one, at once where no partition holds it (R502). A wear record adds 24 powered hours and is the newest of at most 4,096; an interrupted one is invalid. A reading at its limit trips: counted; latch, rails, memory channels, links and laser sources off, FW STOPPED, an FW_LOAD outstanding FAULTED; one below it changes nothing. At a boundary after boot the period counters are latched and restart; a ledger break tears every job down and stops firmware, unless a hardware fault has suspended the ledger. That nothing changes where a condition fails is the model's choice (logs 2, 12), as are the free terms of the estimate (log 99), the settling of an idle domain at once (log 36) and the ledger's operand (log 68). Commands that it says complete, under conditions on state and operands alone: CHAMOIS_SAMPLE, ENERGY_WINDOW, WEAR_RECORD, HARD_THERMAL_TRIP, PERIOD_BOUNDARY, MARGIN_DAILY_LOWER. -/
def Obligations.ChamoisAndPeriods : Prop :=
  ∀ s : State,
    (∀ other temps hbmTemps slacks,
      (s.fw ≠ .ready → s.fw ≠ .stopped → Does (.chamoisSample other temps hbmTemps slacks) s (fun s' => s' = s)) ∧
      (s.fw = .ready ∨ s.fw = .stopped → Does (.chamoisSample other temps hbmTemps slacks) s (fun s' =>
        let core : Rat := (s.actEnergy (s.allHerds.flatMap s.actKeys) + s.quadLeak temps (List.range s.quadCount) + s.spineLeak temps) / 1000000
        let outer : Rat := ((s.chamois.uses.map (fun e => e.2.energy)).sum + (other : Rat)) / 1000000
        let raw : Rat := (core + outer) * (1073 / 1000)
        let est : Rat := raw * s.chamois.factor
        s'.chamois.samples = (est :: s.chamois.samples).take 5 ∧ s'.chamois.window = s.chamois.window + est ∧
        s'.chamois.raw = s.chamois.raw + raw ∧ s'.chamois.total = s.chamois.total + est ∧ s'.chamois.acts = [] ∧
        s'.chamois.carry = s.chamois.carry ∧ s'.chamois.factor = s.chamois.factor ∧ s'.chamois.budget = s.chamois.budget ∧
        (∀ p ∈ s.liveParts, (s'.ppower p).ticks = (s.ppower p).ticks + 1) ∧
        ∀ t, (s'.tile t).regs = (s.tile t).regs ∧ (s'.tile t).pc = (s.tile t).pc ∧ (s'.tile t).run = (s.tile t).run))) ∧
    (∀ measured, (s.fw ≠ .ready → s.fw ≠ .stopped → Does (.energyWindow measured) s (fun s' => s' = s)) ∧
      (s.fw = .ready ∨ s.fw = .stopped → Does (.energyWindow measured) s (fun s' =>
        let debt : Rat := s.chamois.carry + s.chamois.window - ((s.chamois.budget * 1000 : Nat) : Rat)
        let ratio : Rat := (measured : Rat) / s.chamois.raw
        s' = { s with chamois := s'.chamois } ∧
        (debt < 0 → s'.chamois.carry = 0) ∧ (0 ≤ debt → s'.chamois.carry = debt) ∧
        (s.chamois.raw ≠ 0 → (ratio < 9 / 10 → s'.chamois.factor = 9 / 10) ∧ (11 / 10 < ratio → s'.chamois.factor = 11 / 10) ∧
          (9 / 10 ≤ ratio → ratio ≤ 11 / 10 → s'.chamois.factor = ratio)) ∧
        (9 / 10 : Rat) ≤ s'.chamois.factor ∧ s'.chamois.factor ≤ (11 / 10 : Rat) ∧ s'.chamois.window = 0 ∧ s'.chamois.raw = 0 ∧
        s'.chamois.budget = s.chamois.nextBudget.getD s.chamois.budget ∧ s'.chamois.nextBudget = none ∧
        s'.chamois.samples = s.chamois.samples ∧ s'.chamois.bmcWatts = measured / 1000 % 65536))) ∧
    Does .marginDailyLower s (fun s' => HostOnly s s' ∧ ∀ q, q < s.quadCount →
      let x := s.quad q
      let ample : Prop := 0 < x.margin ∧ ∃ v, x.dayLow = some v ∧ 1200 ≤ v
      (¬ ample → s.partOfQuad q ≠ 0 → s'.quad q = { x with dayLow := none }) ∧
      (ample → s.partOfQuad q ≠ 0 → s'.quad q = { x with dayLow := none, fall := true }) ∧
      (s.partOfQuad q = 0 → (s'.quad q).dayLow = none ∧ (s'.quad q).rise = false ∧ (s'.quad q).fall = false ∧
        (x.rise = true → (s'.quad q).margin = min 7 (x.margin + 1)) ∧
        (x.rise = false → ample ∨ x.fall = true → (s'.quad q).margin = x.margin - 1) ∧
        (x.rise = false → x.fall = false → ¬ ample → (s'.quad q).margin = x.margin))) ∧
    Does (.wearRecord true) s (fun s' => s' = { s with flash := s'.flash } ∧ (∃ r, s'.flash = s.flash.writeWear r false) ∧
      s'.flash.wear = ((s.flash.ring.take 4095).filter WearCopy.ok).map (·.body)) ∧
    Does (.wearRecord false) s (fun s' =>
      (∃ r : WearRec, r.hours = s.flash.hours + 24 ∧ r.trips = s.flash.trips ∧ (r.s7, r.s7Quad) = s.lowestSlack7 ∧ r.ce = s.unitCe ∧
        r.resends = s.engineResends ∧ r.codes = (List.range s.quadCount).map (fun q => (q, (s.quad q).margin)) ∧
        s'.flash = s.flash.writeWear r true ∧ s'.flash.hours = s.flash.hours + 24 ∧
        s'.flash.wear = r :: ((s.flash.ring.take 4095).filter WearCopy.ok).map (·.body)) ∧
      (∀ q, q < s.quadCount → s'.quad q = { s.quad q with slack := [], low7 := none }) ∧
      s' = { s with flash := s'.flash, quads := s'.quads }) ∧
    (∀ sensor reading,
      (reading < (if sensor < 64 then 896 else 840) ∨ s.power.tripped = true ∨ s.power.control = false →
        Does (.hardThermalTrip sensor reading) s (fun s' => s' = s)) ∧
      ((if sensor < 64 then 896 else 840) ≤ reading → s.power.tripped = false → s.power.control = true →
        Does (.hardThermalTrip sensor reading) s (fun s' =>
          s'.power = { s.power with tripped := true, core := false, hbm := false, optics := false, dimms := false, lasers := false } ∧
          s'.flash = s.flash.noteTrip ∧ s'.flash.trips = (s.flash.trips + 1) % 2 ^ 32 ∧ (∀ k, (s'.link k).run = .disabled) ∧
          (∀ n, (s'.laser n).powered = false) ∧ (s.fw ≠ .rom → s'.fw = .stopped ∧ s'.hwFaulted = true) ∧ (s.fw = .rom → s'.fw = .rom) ∧
          (∀ u, (s.mc u).run = .enabled → (s'.mc u).run = .disabled) ∧
          (∀ q c, s.fw ≠ .rom → s.boot.loading = some q → s.cmd 0 q = some c → s'.boot.loading = none ∧ Ends 0 q c .faulted [] s') ∧
          ∀ t, (s'.tile t).regs = (s.tile t).regs ∧ (s'.tile t).pc = (s.tile t).pc))) ∧
    (s.boot.booted = false → ∀ f, Does (.periodBoundary f) s (fun s' => s' = s)) ∧
    (s.boot.booted = true →
      let counted : State := passTime (s.period.start + s.period.length - s.time) s
      (s.hwFaulted = true ∨ counted.ledgerTerms = [] → Does (.periodBoundary none) s (fun s' =>
        s'.period.index = s.period.index + 1 ∧ s'.period.latchedIndex = s.period.index ∧ s'.period.latchedLength = s.period.length ∧
        s'.period.start = s.period.start + s.period.length ∧ s'.period.length = s.period.setting ∧ s'.fw = s.fw ∧
        s'.period.shadow = counted.counts ∧ (∀ j, (s'.job j).state = (s.job j).state) ∧
        (∀ u, (s'.mc u).ce = 0 ∧ (s'.mc u).crcRetry = 0 ∧ (s'.mc u).crcFail = 0 ∧ (s'.mc u).ue = 0) ∧
        (∀ k, (s'.link k).tx = 0 ∧ (s'.link k).resend = 0) ∧ (∀ o, (s'.sync o).releases = 0 ∧ (s'.sync o).value = (s.sync o).value) ∧
        (∀ t, (s'.tile t).vec.satCnt = 0 ∧ (s'.tile t).remoteReject = 0 ∧ (s'.tile t).regs = (s.tile t).regs ∧ (s'.tile t).pc = (s.tile t).pc ∧
          (s'.tile t).run = (s.tile t).run) ∧ s'.mem = s.mem)) ∧
      (∀ f : LedgerFinding, f.program = none → s.hwFaulted = true →
        exec (.periodBoundary (some f)) s = exec (.periodBoundary none) s) ∧
      (∀ f : LedgerFinding, f.program = none → s.hwFaulted = false → counted.ledgerTerms = [] →
        Does (.periodBoundary (some f)) s (fun s' => s'.period.index = s.period.index + 1 ∧
          ((∀ e ∈ s.jobs, e.2.tahr = false) → s'.fw = .stopped ∧ ∀ e ∈ s.jobs, (s'.job e.1).state = .tornDown) ∧
          ((∃ e ∈ s.jobs, e.2.tahr = true) → s'.fw = s.fw ∧ s'.tiles = Sparse.mapVals (fun _ T => T.restart) s.tiles ∧
            ∀ j, (s'.job j).state = (s.job j).state))) ∧
      (∀ (f : LedgerFinding) j, f.program = some j → s.jobUsed j = true → counted.ledgerTerms = [] →
        Does (.periodBoundary (some f)) s (fun s' => (s'.job j).acct.programErr = true ∧ s'.fw = s.fw ∧
          s'.tiles = Sparse.mapVals (fun _ T => T.restart) s.tiles ∧ ∀ i, (s'.job i).state = (s.job i).state)))

/-- The copy of an entry into the slot that a checkpoint writes: its four shares' arrays stand behind their status blocks and the entry is no longer to be copied; with the last entry of a job of one module the checkpoint is complete; it waits for a mover write that is sent again (R330); a channel that is not enabled refuses it and faults the job with MEM_REFUSED, a block known to be uncorrectable with DRAM_UNCORRECTABLE, and nothing is written; of an entry that is not being copied nothing changes (log 2). A neighbour that asks for a buddy slot under the link step is sent the pinned one, or else the newest complete one; a request one step ahead is held, any other faults the job, and a miscabled link carries none. CHECKPOINT with ACTION 1 waits for the next checkpoint of a job with areas that has neither ended nor been torn down, and is REJECTED_STATE otherwise. With ACTION 2 a torn-down job with a complete slot is rolled back: every array byte of the slot is written back to slot c of its own address (c of the status block that the slot holds), nothing else below the host window changes, no slot is complete any more, and DETAIL names F, K, the source and the pin; a job that is not torn down, or of one module without a slot, is REJECTED_STATE, and accesses that fail end it FAULTED. Each is stated where the accesses meet nothing else (log 100). The places of a share in its slot are the model's choice (log 40). Commands that it says complete, under conditions on state and operands alone: CHECKPOINT_COPY_END, CHECKPOINT_TAKE, CHECKPOINT_ROLLBACK, BUDDY_SLOT_REQUEST. -/
def Obligations.Checkpoints : Prop :=
  ∀ s : State,
    let enabled (l : List (Nat × Nat)) : Prop := ∀ x ∈ l, s.refusedIn x.1 x.2 = none
    let clean (l : List (Nat × Nat)) : Prop := ∀ a ∈ s.badBlocks, ∀ x ∈ l, overlaps a 64 x.1 x.2 = false
    (∀ (jb : BitVec 8) (die : Fin 4) (e : Fin 64),
      let j := jb.toNat
      let J := s.job j
      let n := die.val * 64 + e.val
      let c : Instr := .checkpointCopyEnd jb die e []
      ((∀ r, J.health.run = some r → n ∉ r.entries) → Does c s (fun s' => s' = s)) ∧
      (∀ r, J.health.run = some r → n ∈ r.entries →
        let a := (J.health.area r.slot).base
        let all := (J.health.slot r.slot).entries
        let reads := s.copyReads j r.slot n
        let both := reads ++ s.copyWrites a all n
        (s.rangesWait both = true → Does c s (fun s' => s' = s)) ∧
        (s.rangesWait both = false → enabled both → ¬ clean reads → s.jobUsed j = true → J.ctxFault = none → Does c s (fun s' =>
          (∃ b ∈ s.badBlocks, (s'.job j).ctxFault = some (Code.dramUncorrectable, b)) ∧ (s'.job j).health = J.health ∧ s'.mem = s.mem)) ∧
        (s.rangesWait both = false → ¬ enabled both → s.jobUsed j = true → J.ctxFault = none → Does c s (fun s' =>
          (∃ b, (s'.job j).ctxFault = some (Code.memRefused, b)) ∧ (s'.job j).health = J.health ∧ s'.mem = s.mem ∧ s'.tiles = s.tiles)) ∧
        (s.rangesWait both = false → enabled both → clean reads → (∃ m ∈ r.entries, m ≠ n) → Does c s (fun s' =>
          (s'.job j).health = { J.health with run := some { r with entries := r.entries.filter (· != n) } } ∧ s'.tiles = s.tiles ∧
          s'.mem = ((sharesOf n).foldl (fun s k =>
            s.writeMem (a + s.shareAt all k + 512) (ckptBytes s k (Stat.wTag (s.slotStatus j r.slot k) % 2))) s).mem)) ∧
        (s.rangesWait both = false → enabled both → clean reads → (∀ m ∈ r.entries, m = n) → J.lx ≤ 1 → J.ly ≤ 1 → J.lz ≤ 1 → J.results = [] →
          Does c s (fun s' =>
            (s'.job j).health.run = none ∧ ((s'.job j).health.slot r.slot).complete = true ∧
            ((s'.job j).health.slot r.slot).pinned = (r.code == 0) ∧ s'.tiles = s.tiles)))) ∧
    (∀ (link : LinkId) (step : Nat),
      let k := link.val
      let j := s.jobOfLink k
      let J := s.job j
      let h := J.health
      let freed : State := s.setLink k ((s.link k).handled 2 1)
      let due : Prop := (s.link k).miscabled = false ∧ (J.bound = false ∨ stepCompare step J.linkStep = .same)
      ((s.link k).miscabled = true ∨ due ∧ (h.areas = [] ∨ selectSlot h.buddy0 h.buddy1 = none) →
        Does (.buddySlotRequest link step []) s (fun s' => s' = freed)) ∧
      (∀ n, due → h.areas ≠ [] → selectSlot h.buddy0 h.buddy1 = some n →
        s.refusedIn (h.area (2 + n)).base (h.area (2 + n)).size = none →
        clean [((h.area (2 + n)).base, (h.area (2 + n)).size)] → Does (.buddySlotRequest link step []) s (fun s' =>
          let x := if n = 0 then h.buddy0 else h.buddy1
          s'.mem = s.mem ∧ s'.tiles = s.tiles ∧ (s'.link k).nextXfer = ((s.link k).nextXfer + 1) % 2 ^ 24 ∧
          s'.outbox = s.outbox ++ [.buddy k (s.link k).nextXfer n x.step (slotBytes s (h.area (2 + n)) x.pinned)])) ∧
      ((s.link k).miscabled = false → J.bound = true → stepCompare step J.linkStep = .ahead →
        Does (.buddySlotRequest link step []) s (fun s' => s'.mem = s.mem ∧ s'.tiles = s.tiles ∧ s'.outbox = s.outbox ∧
          s'.job j = { J with ctrlHeld := J.ctrlHeld ++ [(k, step, none)] } ∧ (s'.link k).held = ((s.link k).held + 1) % 2 ^ 32)) ∧
      ((s.link k).miscabled = false → J.bound = true → stepCompare step J.linkStep = .skew → s.jobUsed j = true → J.ctxFault = none →
        Does (.buddySlotRequest link step []) s (fun s' => s'.mem = s.mem ∧ s'.tiles = s.tiles ∧ s'.outbox = s.outbox ∧
          (s'.job j).ctxFault = some (Code.stepSkew, 0)))) ∧
    (∀ (m : MailboxId) (q : BitVec 16) (c : Cmd), Acts m.val q.toNat c Op.checkpoint s →
      let j := c.index
      let J := s.job j
      let fit : Prop := J.state ≠ .tornDown ∧ J.state ≠ .ended ∧ J.health.areas ≠ []
      (c.items = [(1, 1)] → fit → Does (.checkpointTake m q) s (fun s' => HostOnly s s' ∧
        (s'.job j).health = { J.health with asked := J.health.asked ++ [(m.val, q.toNat)] } ∧
        ∃ d, s'.cmd m.val q.toNat = some d ∧ d.phase = .waiting)) ∧
      (c.items = [(1, 1)] → ¬ fit → Does (.checkpointTake m q) s (fun s' => HostOnly s s' ∧ Ends m.val q.toNat c .rejectedState [] s')) ∧
      (∀ v, c.items = [(1, v)] → v ≠ 1 → v ≠ 2 → Does (.checkpointTake m q) s (fun s' => HostOnly s s' ∧ Ends m.val q.toNat c .rejectedArg [] s')) ∧
      (c.items = [(1, 2)] → J.state ≠ .tornDown → Does (.checkpointRollback m q none []) s (fun s' => HostOnly s s' ∧
        Ends m.val q.toNat c .rejectedState [] s')) ∧
      (c.items = [(1, 2)] → J.state = .tornDown → selectSlot J.health.local0 J.health.local1 = none → J.lz ≤ 1 →
        Does (.checkpointRollback m q none []) s (fun s' => HostOnly s s' ∧ Ends m.val q.toNat c .rejectedState [] s')) ∧
      (∀ n, c.items = [(1, 2)] → J.state = .tornDown → selectSlot J.health.local0 J.health.local1 = some n →
        let area := J.health.area n
        let x := J.health.slot n
        let b := readBytes s.mem area.base area.size
        let ks := x.entries.flatMap sharesOf
        let writesOf (k : Nat) : List (Nat × List Byte) :=
          let u := (s.com k).used
          let d := b.drop (s.shareAt x.entries k)
          let w := Stat.wTag (leNat (d.take 64)) % 2
          shareWrites k ((s.com k).master w) ((d.drop 512).take (6 * u)) ++
            shareWrites k ((s.com k).m1 w) ((d.drop (512 + 6 * u)).take (4 * u)) ++
            (if (s.com k).rule = 0 then [] else shareWrites k ((s.com k).m2 w) ((d.drop (512 + 10 * u)).take (4 * u)))
        (enabled ((area.base, area.size) :: s.rollWrites x.entries b) → clean [(area.base, area.size)] → Does (.checkpointRollback m q none []) s (fun s' =>
          Ends m.val q.toNat c .ok (b.take 8 ++ [0] ++ [if x.pinned then 1 else 0]) s' ∧ s'.tiles = s.tiles ∧
          (∀ i, i < hostBase → readByte s'.mem i = readByte (applyWrites (ks.flatMap writesOf) s).mem i) ∧
          (s'.job j).health = { J.health with local0 := {}, local1 := {}, buddy0 := {}, buddy1 := {} })) ∧
        (¬ enabled ((area.base, area.size) :: s.rollWrites x.entries b) ∨ ¬ clean [(area.base, area.size)] → Does (.checkpointRollback m q none []) s (fun s' =>
          HostOnly s s' ∧ Ends m.val q.toNat c .faulted [] s'))))

/-- While the host reaches the module (R550); else nothing it writes comes in. The doorbell of the next SEQ is pending where none is and the mailbox is open; any other sets DB_ERR. A pending doorbell is taken when the rotation over the mailboxes comes to it, which passes over one with 8 commands outstanding or a record held, and in ROM over one whose ring is not enabled (Table 21-1): the command of the buffer's bytes is outstanding unless its checks end it with their status; while FW is LOADING every command ends REJECTED_STATE, and while it is STOPPED all but the six reads end FAULTED. ENABLE takes effect on a well-placed ring of a valid size and clears TAIL, and 0 always does; CR_HEAD is written. The oldest held record goes into the next slot once there is room, with its PHASE, TAIL one higher; a failing write sets RING_ERR and clears ENABLE. No tile changes, and no byte but the record's. What a command does that is not due is the model's choice (log 2), as is when a ring write fails (log 85) and when the checks are made (log 69). Commands that it says complete, under conditions on state and operands alone: MB_DOORBELL, COMMAND_TAKE, CR_ENABLE_WRITE, CR_HEAD_WRITE, HELD_RECORD_WRITE. -/
def Obligations.Mailboxes : Prop :=
  ∀ (s : State) (m : MailboxId),
    let x := s.mb m.val
    let only (y : Mailbox) (s' : State) : Prop := s' = s.setMb m.val y
    (s.power.reaches = false → (∀ seq, Does (.mbDoorbell m seq) s (fun s' => s' = s)) ∧ (∀ b, Does (.crEnableWrite m b) s (only x)) ∧
      (∀ h, Does (.crHeadWrite m h) s (only x)) ∧
      (∀ f, x.held ≠ [] → x.enable = true → x.room = true →
        Does (.heldRecordWrite m f) s (only { x with ringErr := true, enable := false }))) ∧
    (s.power.reaches = true →
    (∀ seq : BitVec 16,
      let good : Prop := seq.toNat = (x.taken + 1) % 65536 ∧ x.doorbell = none ∧ (m.val = 0 ∨ s.fw ≠ .rom)
      (good → Does (.mbDoorbell m seq) s (only { x with doorbell := some seq.toNat })) ∧
      (¬ good → Does (.mbDoorbell m seq) s (only { x with dbErr := true }))) ∧
    (x.doorbell = none ∨ s.turnOf ≠ some m.val → Does (.commandTake m) s (fun s' => s' = s)) ∧
    (8 ≤ x.outstanding ∨ x.held ≠ [] ∨ s.fw = .rom ∧ x.enable = false → s.turnOf ≠ some m.val) ∧
    (∀ q, x.doorbell = some q → s.turnOf = some m.val → s.cmd m.val q = none →
      let c := Cmd.ofBytes q s.nextId (fun o => Sparse.get 0 x.buffer o)
      let u : State := { s.setMb m.val { x with doorbell := none, taken := q, cmds := x.cmds ++ [c] } with nextId := s.nextId + 1, boxTurn := m.val }
      (u.blocked m.val c = true ∨ checkCmd u m.val c = none → Does (.commandTake m) s (fun s' => s' = u)) ∧
      (∀ st, u.blocked m.val c = false → checkCmd u m.val c = some st → Does (.commandTake m) s (fun s' =>
        HostOnly s s' ∧ Ends m.val q c st [] s' ∧ (s'.mb m.val).taken = q ∧ (s'.mb m.val).doorbell = none ∧
        s'.boxTurn = m.val)) ∧
      (s.fw = .loading → checkCmd u m.val c = some .rejectedState) ∧
      (s.fw = .stopped → stoppedOp c.opcode = false → checkCmd u m.val c = some .faulted) ∧
      (s.fw = .rom → romOp c.opcode = false → checkCmd u m.val c = some .rejectedState) ∧
      (s.fw = .ready → opInfo c.opcode = none → checkCmd u m.val c = some .rejectedArg)) ∧
    (x.enable = false → x.crBase % 4096 = 0 → 6 ≤ x.crSize → x.crSize ≤ 15 →
      Does (.crEnableWrite m true) s (only { x with enable := true, tail := 0 })) ∧
    (x.crBase % 4096 ≠ 0 ∨ x.crSize < 6 ∨ 15 < x.crSize ∨ x.enable = true → Does (.crEnableWrite m true) s (only x)) ∧
    Does (.crEnableWrite m false) s (only { x with enable := false }) ∧
    (∀ head : BitVec 16, Does (.crHeadWrite m head) s (only { x with head := head.toNat })) ∧
    (∀ r rest, x.held = r :: rest → x.enable = true → x.room = true →
      let a := hostBase + x.crBase + x.tail % x.ringLen * 64
      Does (.heldRecordWrite m false) s (fun s' =>
        s'.mb m.val = { x with held := rest, tail := (x.tail + 1) % 65536, last := some r } ∧ s'.tiles = s.tiles ∧
        (∀ i, i < 64 → readByte s'.mem (a + i) = (r.bytes (1 - x.tail / x.ringLen % 2)).getD i 0) ∧
        ∀ b, b < a ∨ a + 64 ≤ b → readByte s'.mem b = readByte s.mem b) ∧
      Does (.heldRecordWrite m true) s (only { x with ringErr := true, enable := false })) ∧
    (x.held = [] ∨ x.enable = false ∨ x.room = false → ∀ f, Does (.heldRecordWrite m f) s (fun s' => s' = s)))

/-- Each for a command that acts, its result range clear of the ring, its result data while the host is reached (R550; nothing comes out of a port that is down). IDENTITY and ROM_STATUS end OK with their fields in DETAIL; SYNC_READ with the object's 32 bytes; READ_BLOCK, COUNTERS_READ, ACCOUNT_READ and LINK_STATUS end OK with the registers, values or record in the result data; a value outside its encoding ends REJECTED_ARG. MODULE_CONFIG records the period setting or the next budget, in their ranges. TILE_DEBUG ACTION 1 halts a running or parked tile and raises HALT, and ACTION 2 lets a halted tile that was not parked run on; registers and program counters stay. Reading changes no tile and nothing below the host window. That a value is refused before anything else and the moment of the checks are logs 69 and 86; what a parked tile waits for is log 74, an object of another partition log 92. Commands that it says complete, under conditions on state and operands alone: IDENTITY, MODULE_CONFIG, READ_BLOCK, SYNC_READ, COUNTERS_READ, ACCOUNT_READ, TILE_DEBUG_HALT, TILE_DEBUG_RESUME, LINK_STATUS, ROM_STATUS. -/
def Obligations.ReadingCommands : Prop :=
  ∀ (s : State) (m : MailboxId) (q : BitVec 16) (c : Cmd),
    let m' := m.val
    let q' := q.toNat
    let detail (bs : List Byte) (s' : State) : Prop := HostOnly s s' ∧ Ends m' q' c .ok bs s'
    let result (bs : List Byte) (s' : State) : Prop := HostOnly s s' ∧ Ends m' q' c .ok [] s' ∧
      (s.power.reaches = true → RingApart m' c.resultAddr bs.length s → ResultIs c bs s')
    (Acts m' q' c Op.identity s → c.items = [] → Does (.identity m q) s
      (detail (s.idBytes ++ leBytes 1 0 ++ leBytes 4 s.boot.version ++ s.grade.partNumber))) ∧
    (Acts m' q' c Op.romStatus s → c.items = [] → Does (.romStatus m q) s (detail (s.idBytes ++
      leBytes 1 ((if s.power.tripped then 1 else 0) + (if s.flash.debugLock then 2 else 0) + (if s.boot.badIdentity then 4 else 0)) ++
      leBytes 4 s.flash.svnFloor ++ leBytes 4 s.boot.failCode ++ leBytes 4 Config.romVersion))) ∧
    (∀ v o, Acts m' q' c Op.syncRead s → c.items = [(1, v)] → s.anyObj v = some o → (m' = 0 ∨ s.refObj m' (word v) ≠ none) →
      Does (.syncRead m q) s (detail (s.sync o).bytes)) ∧
    (∀ v, Acts m' q' c Op.syncRead s → c.items = [(1, v)] → s.anyObj v = none →
      Does (.syncRead m q) s (fun s' => HostOnly s s' ∧ Ends m' q' c .rejectedArg [] s')) ∧
    (∀ sp off n, Acts m' q' c Op.readBlock s → c.items = [(1, sp), (2, off), (3, n)] → spaceOk sp c = true → off % 4 = 0 → n % 4 = 0 →
      off < spaceSize sp → off + n ≤ spaceSize sp → n ≤ c.resultLen →
      Does (.readBlock m q) s (result (blockBytes (spaceReg s m' sp c.index) off n))) ∧
    (∀ cls idx, Acts m' q' c Op.countersRead s → c.items = [(1, cls + idx * 2 ^ 16)] → cls < 256 → idx < 65536 → classCount cls ≠ 0 →
      scopeIndexOk s cls idx = true → (m' = 0 ∨ scopeIn s m' cls idx = true) → 32 + classCount cls * 8 ≤ c.resultLen →
      Does (.countersRead m q) s (result (leBytes 8 s.period.latchedIndex ++ leBytes 8 s.period.latchedLength ++ leBytes 4 (cls + idx * 2 ^ 16)
        ++ leBytes 4 (classCount cls) ++ leBytes 8 0 ++ (scopeValues s m' cls idx false).flatMap (leBytes 8)))) ∧
    (Acts m' q' c Op.accountRead s → c.items = [] → s.jobUsed c.index = true → Does (.accountRead m q) s
      (result (accountBytes s.period.latchedIndex c.index (s.job c.index)))) ∧
    (Acts m' q' c Op.linkStatus s → c.items = [] → Does (.linkStatus m q) s (result (blockBytes (linkReg (s.link c.index)) 0 128))) ∧
    (∀ v, Acts m' q' c Op.moduleConfig s →
      (c.items = [(1, v)] → 1000 ≤ v → v ≤ 10000000 → Does (.moduleConfig m q) s (fun s' => detail [] s' ∧ s'.period.setting = v * 1000 ∧
        s'.chamois = s.chamois)) ∧
      (c.items = [(2, v)] → 2000 ≤ v → v ≤ 7200 → Does (.moduleConfig m q) s (fun s' => detail [] s' ∧ s'.chamois.nextBudget = some v ∧
        s'.period = s.period)) ∧
      (c.items = [(1, v)] → v < 1000 ∨ 10000000 < v → Does (.moduleConfig m q) s (fun s' => HostOnly s s' ∧ s'.period = s.period ∧
        Ends m' q' c .rejectedArg [] s'))) ∧
    (Acts m' q' c Op.tileDebug s →
      let t := c.index
      let T := s.tile t
      (c.items = [(1, 1)] → T.run = .running ∨ T.run = .parked → Does (.tileDebugHalt m q) s (fun s' => Ends m' q' c .ok [] s' ∧
        s'.tile t = { T with run := .halted } ∧ (∀ u, u ≠ t → s'.tile u = s.tile u) ∧ (s.partOf t ≠ 0 → (s'.part (s.partOf t)).halt = true))) ∧
      (c.items = [(1, 1)] → T.run = .stopped ∨ T.run = .faulted → Does (.tileDebugHalt m q) s (fun s' => HostOnly s s' ∧
        Ends m' q' c .rejectedState [] s')) ∧
      (c.items = [(1, 2)] → T.run = .halted → T.park = .none → T.tahr.waiting = [] → Does (.tileDebugResume m q) s (fun s' =>
        Ends m' q' c .ok [] s' ∧ (s'.tile t).run = .running ∧ (s'.tile t).regs = T.regs ∧ (s'.tile t).pc = T.pc ∧
        (s'.tile t).tahr.valid = false ∧ ∀ u, u ≠ t → s'.tile u = s.tile u)) ∧
      (c.items = [(1, 2)] → T.run ≠ .halted → Does (.tileDebugResume m q) s (fun s' => HostOnly s s' ∧ Ends m' q' c .rejectedState [] s')))

/-- Each for a command that acts, without items. ENABLE of an object that is OFF and whose dependencies hold begins its start-up and waits for it, and one whose dependencies do not hold is REJECTED_STATE; in STARTING it joins; of an object that is ON it ends OK, and with items is REJECTED_STATE; in STOPPING it is deferred and pending, and BUSY where one is pending already. An item in its encoding is recorded. DISABLE of an object that is OFF ends OK; in STARTING it is deferred; of one that is ON it begins the shutdown, a link being CLOSING; in STOPPING it joins, and a pending enable ends REJECTED_STATE. No tile changes, nor anything below the host window, but for a partition or entry that shuts down. When a command's checks are made is the model's reading (logs 69, 86). Commands that it says complete, under conditions on state and operands alone: ENABLE, DISABLE. -/
def Obligations.LifecycleCommands : Prop :=
  ∀ (s : State) (m : MailboxId) (q : BitVec 16) (c : Cmd),
    let m' := m.val
    let q' := q.toNat
    let L := s.life c.kind c.index
    let waits (p : CmdPhase) (s' : State) : Prop := ∃ d, s'.cmd m' q' = some d ∧ d.phase = p
    let now (s' : State) : Life := s'.life c.kind c.index
    (Acts m' q' c Op.enable s →
      (c.items = [] →
        (L.run = .off → dependsOk s c.kind c.index true = true → Does (.enable m q) s (fun s' => HostOnly s s' ∧ waits .waiting s' ∧
          now s' = { L with run := .starting, enables := [(m', q')], pend := none, disables := [] } ∧
          (c.kind = 4 → (s'.mc (16 + c.index)).run = .training))) ∧
        (L.run = .off → dependsOk s c.kind c.index true = false → Does (.enable m q) s (fun s' => HostOnly s s' ∧
          Ends m' q' c .rejectedState [] s' ∧ s'.lives = s.lives)) ∧
        (L.run = .starting → Does (.enable m q) s (fun s' => HostOnly s s' ∧ waits .waiting s' ∧ now s' = { L with enables := L.enables ++ [(m', q')] })) ∧
        (L.run = .on → Does (.enable m q) s (fun s' => HostOnly s s' ∧ Ends m' q' c .ok [] s' ∧ s'.lives = s.lives)) ∧
        (L.run = .stopping → L.pend = none → Does (.enable m q) s (fun s' => HostOnly s s' ∧ waits .deferred s' ∧
          now s' = { L with pend := some (m', q') })) ∧
        (L.run = .stopping → L.pend ≠ none → Does (.enable m q) s (fun s' => HostOnly s s' ∧ Ends m' q' c .busy [] s' ∧ s'.lives = s.lives))) ∧
      (c.items ≠ [] → L.run = .on ∨ L.run = .starting → Does (.enable m q) s (fun s' => HostOnly s s' ∧
        Ends m' q' c .rejectedState [] s' ∧ s'.lives = s.lives)) ∧
      (∀ id v, c.items = [(id, v)] → L.run = .off → dependsOk s c.kind c.index true = true → 1 ≤ id → id ≤ enableItems c.kind →
        (enableItemOk c.kind id v L = true → Does (.enable m q) s (fun s' => HostOnly s s' ∧ (now s').run = .starting ∧
          (now s').config = Sparse.set L.config id v)) ∧
        (enableItemOk c.kind id v L = false → Does (.enable m q) s (fun s' => HostOnly s s' ∧ Ends m' q' c .rejectedArg [] s' ∧
          s'.lives = s.lives)))) ∧
    (Acts m' q' c Op.disable s → c.items = [] →
      (dependsOk s c.kind c.index false = false → Does (.disable m q) s (fun s' => HostOnly s s' ∧ Ends m' q' c .rejectedState [] s' ∧
        s'.lives = s.lives)) ∧
      (dependsOk s c.kind c.index false = true →
        (L.run = .off → Does (.disable m q) s (fun s' => HostOnly s s' ∧ Ends m' q' c .ok [] s' ∧ s'.lives = s.lives)) ∧
        (L.run = .starting → Does (.disable m q) s (fun s' => HostOnly s s' ∧ waits .deferred s' ∧
          now s' = { L with disables := L.disables ++ [(m', q')] })) ∧
        (L.run = .on → c.kind ≠ 1 → Does (.disable m q) s (fun s' =>
          now s' = { L with run := .stopping, disables := L.disables ++ [(m', q')] } ∧
          (c.kind = 2 → (s'.link c.index).run = .closing ∧ HostOnly s s') ∧ (c.kind = 3 → HostOnly s s' ∧ s'.links = s.links) ∧
          (c.kind = 4 → HostOnly s s' ∧ (s'.mc (16 + c.index)).run = .disabled) ∧
          (c.kind = 5 → ∀ k ∈ sharesOf c.index, (s.red k).state ≠ .free → (s'.red k).state = .closing) ∧
          (c.kind = 6 → HostOnly s s' ∧ ∀ k ∈ sharesOf c.index, (s'.com k).state = .closing))) ∧
        (L.run = .on → c.kind = 1 → s.jobsOf c.index = [] → m' = 0 → Does (.disable m q) s (fun s' => HostOnly s s' ∧
          (now s').run = .stopping ∧ (0, q') ∈ (now s').disables)) ∧
        (L.run = .stopping → L.pend = none → Does (.disable m q) s (fun s' => HostOnly s s' ∧ waits .waiting s' ∧
          now s' = { L with disables := L.disables ++ [(m', q')] })) ∧
        (∀ pm pq d, L.run = .stopping → L.pend = some (pm, pq) → s.cmd pm pq = some d → (pm, pq) ≠ (m', q') →
          Does (.disable m q) s (fun s' => HostOnly s s' ∧ waits .waiting s' ∧ Ends pm pq d .rejectedState [] s' ∧
            now s' = { L with pend := none, disables := L.disables ++ [(m', q')] }))))

/-- Of an object that starts up: where its hardware comes up it is ON with no enable left waiting, and what its start-up set up stands: an enabled link is DOWN with the face it was given, a reduction entry's four shares are OPEN, a commit entry's READY with equal tags, once no mover write to its arrays is sent again (R330); where it does not, it is OFF again, and a channel that did not train has FAILED. Of an object that stops: a drained link is disabled and OFF, or its pending enable starts up; one with blocks left stays; a partition whose jobs are all torn down is released, and its stopped tiles hold no job any more. An object in another state is left as it is. Memory of the module changes only as the start-up says. An object in another state is no event (log 2); a branch that opened is log 39, an item never given log 44, the clearing of memories log 33. Commands that it says complete, under conditions on state and operands alone: LIFECYCLE_STARTUP_END, LIFECYCLE_SHUTDOWN_END. -/
def Obligations.LifecycleEnds : Prop :=
  ∀ (s : State) (kind : Fin 7) (idx : BitVec 16),
    let k := kind.val
    let i := idx.toNat
    let L := s.life k i
    let sender := ((L.enables.head?).map (·.1)).getD 0
    (L.run ≠ .starting ∨ k = 6 ∧ s.comStartWaits i = true → ∀ ok hits, Does (.lifecycleStartupEnd kind idx ok hits) s (fun s' => s' = s)) ∧
    (L.run ≠ .stopping → Does (.lifecycleShutdownEnd kind idx) s (fun s' => s' = s)) ∧
    (L.run = .starting → L.disables = [] → (k = 6 → s.comStartWaits i = false) → ∀ ok hits t, startEnd k i sender ok hits s = .ok t →
      Does (.lifecycleStartupEnd kind idx ok hits) s (fun s' =>
      (s'.life k i).run = .on ∧ (s'.life k i).enables = [] ∧ (s'.life k i).config = L.config ∧ s'.parts = t.parts ∧ s'.links = t.links ∧
      s'.reds = t.reds ∧ s'.coms = t.coms ∧ s'.mcs = t.mcs ∧ s'.tiles = t.tiles ∧ ∀ a, a < hostBase → readByte s'.mem a = readByte t.mem a)) ∧
    (L.run = .starting → L.pend = none → (k = 6 → s.comStartWaits i = false) → ∀ ok hits st t, startEnd k i sender ok hits s = .error (st, t) →
      (k ≠ 6 → t = s) ∧ Does (.lifecycleStartupEnd kind idx ok hits) s (fun s' =>
        (s'.life k i).run = .off ∧ (k = 4 → (s'.mc (16 + i)).run = .failed) ∧ HostOnly t s')) ∧
    (k = 2 → ∀ ok hits, ∃ t, startEnd k i sender ok hits s = .ok t ∧ (t.link i).run = .down ∧ (t.link i).face = (Sparse.find L.config 1).getD 7 ∧
      t.mem = s.mem ∧ t.tiles = s.tiles) ∧
    (k = 4 → ∀ hits, startEnd k i sender false hits s = .error (.faulted, s)) ∧
    (k = 5 → ∀ ok hits, let x := redOfConfig L
      (s.jobOpenTo sender x.job = false → startEnd k i sender ok hits s = .error (.rejectedState, s)) ∧
      (s.jobOpenTo sender x.job = true → redOk s (i / 64) x = false → startEnd k i sender ok hits s = .error (.rejectedArg, s)) ∧
      (s.jobOpenTo sender x.job = true → redOk s (i / 64) x = true → ∃ t, startEnd k i sender ok hits s = .ok t ∧ t.mem = s.mem ∧
        ∀ e ∈ sharesOf i, t.red e = { x with state := .opened })) ∧
    (k = 6 → ∀ ok hits,
      let c := comOfConfig L
      ((s.life 5 i).run ≠ .on ∨ s.jobOpenTo sender (s.red ((sharesOf i).headD 0)).job = false →
        startEnd k i sender ok hits s = .error (.rejectedState, s)) ∧
      ((s.life 5 i).run = .on → s.jobOpenTo sender (s.red ((sharesOf i).headD 0)).job = true →
        comOk s (i / 64) (s.red ((sharesOf i).headD 0)) c = false → startEnd k i sender ok hits s = .error (.rejectedArg, s)) ∧
      (∀ t, startEnd k i sender ok hits s = .ok t → ∀ e ∈ sharesOf i, (t.com e).state = .ready ∧
        Stat.momTag (t.status e) = Stat.wTag (t.status e))) ∧
    (L.run = .stopping → k = 2 → (s.link i).drained = true →
      (L.pend = none → Does (.lifecycleShutdownEnd kind idx) s (fun s' => (s'.life k i).run = .off ∧ (s'.link i).run = .disabled ∧ HostOnly s s')) ∧
      (∀ w, L.pend = some w → Does (.lifecycleShutdownEnd kind idx) s (fun s' => (s'.life k i).run = .starting ∧
        (s'.life k i).enables = [w] ∧ (s'.link i).run = .disabled ∧ HostOnly s s'))) ∧
    (L.run = .stopping → k = 2 → (s.link i).drained = false → Does (.lifecycleShutdownEnd kind idx) s (fun s' => s' = s)) ∧
    (L.run = .stopping → k = 1 → L.pend = none → (∀ j ∈ s.jobsOf i, (s.job j).state = .tornDown) → Does (.lifecycleShutdownEnd kind idx) s (fun s' =>
      (s'.life k i).run = .off ∧ s'.part i = {} ∧ (∀ g ∈ (s.part i).quads, (s'.quad g).step = 0) ∧
      (∀ a, a < hostBase → readByte s'.mem a = readByte s.mem a) ∧ (∀ t ∈ s.partTiles i, (s.tile t).run = .stopped → (s'.tile t).port.job = 0) ∧
      (∀ t, (s.tile t).run ≠ .stopped → s'.tile t = s.tile t) ∧
      ∀ t, s'.tile t = { s.tile t with port := { (s.tile t).port with job := (s'.tile t).port.job } }))

/-- Each for a command that acts. JOB_LOAD ends with the first check that fails, its number in DETAIL, or with the new id: a loaded job of the partition with weight 1; no other job changes. JOB_START of a job that is not loaded, has started or is in its check is REJECTED_STATE, without its items REJECTED_ARG, and where the job spans modules beside another job of its partition REJECTED_STATE; a job of one module without entries is ready or takes the herds, at its seed and step. JOB_ABORT of a torn-down job ends OK; of one that holds the herds it begins the quiesce and waits; of another without entries it tears down at once, a job being switched in among them, which then is no longer the incoming one. JOB_UNLOAD of a job that runs is REJECTED_STATE; else its id is free again, and no other job changes. The image comes as an operand (log 12); the order of an image's checks is a reading (log 31). A load whose host answer has another length is no event (log 2); JOB_START's record is log 32, a job's abort log 61, the entries of an unloaded job log 49. Commands that it says complete, under conditions on state and operands alone: JOB_LOAD, JOB_START, JOB_ABORT, JOB_UNLOAD. -/
def Obligations.JobCommands : Prop :=
  ∀ (s : State) (m : MailboxId) (q : BitVec 16) (c : Cmd),
    let m' := m.val
    let q' := q.toNat
    let j := c.index
    let J := s.job j
    let stays (st : Status) (bs : List Byte) (s' : State) : Prop := HostOnly s s' ∧ Ends m' q' c st bs s' ∧ s'.jobs = s.jobs
    let others (k : Nat) (s' : State) : Prop := ∀ i, i ≠ k → s'.job i = s.job i
    (∀ a n (image : Option (List Byte)), Acts m' q' c Op.jobLoad s → c.items = [(1, a), (2, n)] → a < 2 ^ 51 → n < 2 ^ 32 →
      let failed (st : Status) (check off : Nat) : Prop :=
        Does (.jobLoad m q image) s (stays st (leBytes 4 0 ++ leBytes 4 check ++ leBytes 8 off))
      ((∃ b, image = some b ∧ b.length ≠ n) → Does (.jobLoad m q image) s (fun s' => s' = s)) ∧
      ((∀ b, image = some b → b.length = n) →
        ((s.life 1 j).run ≠ .on ∨ s.spansLoaded j = true → failed .rejectedState 1 0) ∧
        ((s.life 1 j).run = .on → s.spansLoaded j = false →
          (s.freeJob = none → failed .noResource 2 0) ∧
          (∀ i, s.freeJob = some i →
            (image = none → Does (.jobLoad m q image) s (stays .faulted [])) ∧
            (∀ b, image = some b →
              (Img.ofBytes b = none → failed .rejectedArg 3 (cutAt b)) ∧
              (∀ g, Img.ofBytes b = some g →
                (∀ k st o, imageFault s j g = some (k, st, o) → failed st k o) ∧
                (imageFault s j g = none → s.grants j g = none → failed .noResource 9 (s.shortAt j g)) ∧
                (∀ r, imageFault s j g = none → s.grants j g = some r →
                  (∀ o, check10 g (loadEnv s j g r) = some o → failed .rejectedArg 10 o) ∧
                  (check10 g (loadEnv s j g r) = none → Does (.jobLoad m q image) s (fun s' =>
                    Ends m' q' c .ok (leBytes 1 i) s' ∧ s'.jobUsed i = true ∧ others i s' ∧ (s'.job i).state = .loaded ∧
                    (s'.job i).part = j ∧ (s'.job i).weight = 1 ∧ (s'.job i).roles = g.roleList ∧ (s'.job i).hbm = r.hbm))))))))) ∧
    (Acts m' q' c Op.jobStart s →
      (J.state ≠ .loaded ∨ J.started = true ∨ J.td ≠ .none ∨ J.concord ≠ none → Does (.jobStart m q) s (stays .rejectedState [])) ∧
      (J.state = .loaded → J.started = false → J.td = .none → J.concord = none →
        (c.items = [] → Does (.jobStart m q) s (stays .rejectedArg [])) ∧
        (∀ seed inst f, f < 2 ^ 32 →
          (c.items = [(1, seed), (2, 0x010102), (3, 12), (4, 0), (5, inst), (6, f)] → (∃ i ∈ s.jobsOf J.part, i ≠ j) →
            Does (.jobStart m q) s (fun s' => HostOnly s s' ∧ Ends m' q' c .rejectedState [] s' ∧ others j s' ∧ (s'.job j).state = .loaded)) ∧
          (c.items = [(1, seed), (2, 0x010101), (3, 0), (4, 0), (5, inst), (6, f)] → s.redsOf j = [] → s.comsOf j = [] →
            Does (.jobStart m q) s (fun s' => Ends m' q' c .ok [] s' ∧ ((s'.job j).state = .ready ∨ (s'.job j).state = .holding) ∧
              (s'.job j).seed = seed ∧ (s'.job j).resume = f ∧ (s'.job j).linkStep = f ∧ (s'.job j).spans = false))))) ∧
    (Acts m' q' c Op.jobAbort s → c.items = [] →
      (J.state = .tornDown → Does (.jobAbort m q) s (stays .ok [])) ∧
      (J.state ≠ .tornDown → J.td = .none → (s.part J.part).holding = j → Does (.jobAbort m q) s (fun s' =>
        HostOnly s s' ∧ others j s' ∧ s'.cmd m' q' = some { c with phase := .waiting } ∧
        s'.job j = { J with aborts := J.aborts ++ [(m', q')], td := .quiesce, answered := [] })) ∧
      (J.state ≠ .tornDown → J.td = .none → (s.part J.part).holding ≠ j → J.aborts = [] →
        J.health.asked = [] → J.health.taking = [] → J.health.run = none → J.concord = none → s.redsOf j = [] →
        ((s.part J.part).incoming ≠ j → Does (.jobAbort m q) s (fun s' => HostOnly s s' ∧ Ends m' q' c .ok [] s' ∧
          (s'.job j).state = .tornDown ∧ others j s')) ∧
        ((s.part J.part).incoming = j → Does (.jobAbort m q) s (fun s' => s'.cmd m' q' = none ∧ (s'.job j).state = .tornDown ∧
          ∀ p, (s'.part p).incoming ≠ j)))) ∧
    (Acts m' q' c Op.jobUnload s → c.items = [] →
      (s.jobRuns j = true → Does (.jobUnload m q) s (stays .rejectedState [])) ∧
      (s.jobRuns j = false → J.state = .tornDown ∨ (J.health.asked = [] ∧ J.health.taking = [] ∧ s.redsOf j = []) →
        Does (.jobUnload m q) s (fun s' => Ends m' q' c .ok [] s' ∧ s'.jobUsed j = false ∧ others j s' ∧
          ∀ a, a < hostBase → readByte s'.mem a = readByte s.mem a)))

/-- Each for a command that acts. RED_REARM of four COMPLETE shares ends OK and, where no ring packet is held for them, leaves each OPEN for the next step; it is REJECTED_STATE otherwise. COMMIT_CONFIG sets one field of the four shares of an entry that is ON between commits, or of the recorded configuration of one that is OFF; it waits while the entry starts up or a share commits. COMMIT_RECOVER without room for its result data is REJECTED_ARG; else it ends OK with its result data, or FAULTED where an access fails (log 100), and where no commit was interrupted and every share stands at the same step nothing changes and no entry is reported. CXLMEM_SET sets the range that no partition holds; CXLMEM_HANDOVER moves its owner once the giver's transfers, checkpoint copies among them, and the transfers that land there are done. HEALTH_CONFIG sets one number of the job. A value outside its encoding is REJECTED_ARG. No tile changes. That a waiting command leaves the state as it is, and the steps of CXLMEM_SET, are the model's readings (logs 2, 42, 44, 86). Commands that it says complete, under conditions on state and operands alone: RED_REARM, COMMIT_CONFIG, COMMIT_RECOVER, CXLMEM_SET, CXLMEM_HANDOVER, HEALTH_CONFIG. -/
def Obligations.ConfigCommands : Prop :=
  ∀ (s : State) (m : MailboxId) (q : BitVec 16) (c : Cmd),
    let m' := m.val
    let q' := q.toNat
    let x := c.index
    let ends (st : Status) (s' : State) : Prop := HostOnly s s' ∧ Ends m' q' c st [] s'
    (∀ hits : List StackHit, Acts m' q' c Op.redRearm s → c.items = [] →
      ((∀ k ∈ sharesOf x, (s.red k).state = .complete) → Does (.redRearm m q hits) s (Ends m' q' c .ok [])) ∧
      ((∀ k ∈ sharesOf x, (s.red k).state = .complete ∧ (s.red k).ringHeld = []) → Does (.redRearm m q hits) s (fun s' => ends .ok s' ∧
        (∀ k ∈ sharesOf x, (s'.red k).state = .opened ∧ (s'.red k).step = ((s.red k).step + 1) % 2 ^ 32 ∧ (s'.red k).rounds = 0 ∧
          (s'.red k).accepted = 0 ∧ (s'.red k).globalNf = false ∧ (s'.red k).localNf = false ∧ (s'.red k).job = (s.red k).job ∧
          (s'.red k).bufBase = (s.red k).bufBase) ∧
        ∀ k, k ∉ sharesOf x → s'.red k = s.red k)) ∧
      ((∃ k ∈ sharesOf x, (s.red k).state ≠ .complete) → Does (.redRearm m q hits) s (fun s' => ends .rejectedState s' ∧ s'.reds = s.reds))) ∧
    (∀ id v, Acts m' q' c Op.commitConfig s → c.items = [(id, v)] → 1 ≤ id → id ≤ 8 →
      let idle : Prop := ∀ k ∈ sharesOf x, (s.com k).busy = false
      ((s.life 6 x).run = .starting ∨ ((s.life 6 x).run = .on ∧ ¬ idle) → Does (.commitConfig m q) s (fun s' => s' = s)) ∧
      ((s.life 6 x).run = .on → idle → configOk id v = true → Does (.commitConfig m q) s (fun s' => ends .ok s' ∧
        (∀ k ∈ sharesOf x, s'.com k = (s.com k).setConfig id v) ∧ (∀ k, k ∉ sharesOf x → s'.com k = s.com k) ∧ s'.lives = s.lives)) ∧
      ((s.life 6 x).run = .off ∨ (s.life 6 x).run = .stopping → configOk id v = true → Does (.commitConfig m q) s (fun s' => ends .ok s' ∧
        s'.life 6 x = { s.life 6 x with config := Sparse.set (s.life 6 x).config (configItem id) v } ∧ s'.coms = s.coms)) ∧
      ((s.life 6 x).run ≠ .starting → idle → configOk id v = false → Does (.commitConfig m q) s (fun s' => ends .rejectedArg s' ∧
        s'.coms = s.coms ∧ s'.lives = s.lives))) ∧
    (∀ hits, Acts m' q' c Op.commitRecover s → c.items = [] →
      (c.resultLen < 8 + 8 * (s.comEntriesKept x).length → Does (.commitRecover m q hits) s (ends .rejectedArg)) ∧
      (8 + 8 * (s.comEntriesKept x).length ≤ c.resultLen →
        (∀ r, recoverJob x hits s = .ok r → Does (.commitRecover m q hits) s (fun s' => Ends m' q' c .ok [] s' ∧ s'.tiles = s.tiles ∧
          (s.power.reaches = true → RingApart m' c.resultAddr r.2.length s → ResultIs c r.2 s'))) ∧
        (∀ e, recoverJob x hits s = .error e → Does (.commitRecover m q hits) s (fun s' => Ends m' q' c .faulted [] s' ∧ s'.tiles = s.tiles)) ∧
        (∀ f, (∀ k, k ∈ s.comsKept x ∨ (∃ e ∈ s.comEntriesKept x, k ∈ sharesOf e) →
            Stat.momTag (s.status k) = Stat.wTag (s.status k) ∧ Stat.accStep (s.status k) = f ∧ Stat.lastStep (s.status k) = f) →
          (∀ k ∈ s.comsKept x, ∀ a ∈ [(s.com k).recordAt (k / 64), (s.com k).recordAt (k / 64) + 64], a ∉ s.badBlocks) → hits = [] →
          Does (.commitRecover m q hits) s (fun s' => ends .ok s' ∧ s'.lives = s.lives ∧
            (s.power.reaches = true → RingApart m' c.resultAddr 8 s → ResultIs c (leBytes 8 0) s'))))) ∧
    (∀ b n, Acts m' q' c Op.cxlmemSet s → c.items = [(1, b), (2, n)] →
      (s.cxl.owner ≠ 0 → Does (.cxlmemSet m q) s (fun s' => ends .rejectedState s' ∧ s'.cxl = s.cxl)) ∧
      (s.cxl.owner = 0 → s.ddrSize < b * gib → Does (.cxlmemSet m q) s (fun s' => ends .rejectedArg s' ∧ s'.cxl = s.cxl)) ∧
      (s.cxl.owner = 0 → b * gib ≤ s.ddrSize →
        let shut : CxlMem := { s.cxl with base := b * gib, exposed := false }
        (s.ddrSize < b * gib + n * gib → Does (.cxlmemSet m q) s (fun s' => ends .rejectedArg s' ∧ s'.cxl = shut)) ∧
        (b * gib + n * gib ≤ s.ddrSize → s.ddrTaken (b * gib) (n * gib) = true →
          Does (.cxlmemSet m q) s (fun s' => ends .rejectedState s' ∧ s'.cxl = shut)) ∧
        (b * gib + n * gib ≤ s.ddrSize → s.ddrTaken (b * gib) (n * gib) = false → Does (.cxlmemSet m q) s (fun s' => ends .ok s' ∧
          s'.cxl = { s.cxl with base := b * gib, size := n * gib, exposed := decide (0 < n) })))) ∧
    (∀ v, Acts m' q' c Op.cxlmemHandover s → c.items = [(1, v)] →
      let give := s.cxl.owner
      let busy : Prop := give ≠ 0 ∧ ((∃ t ∈ s.partTiles give, (s.tile t).movesIn (ddrBase + s.cxl.base) s.cxl.size = true) ∨
        s.landsIn give (ddrBase + s.cxl.base) s.cxl.size = true ∨
        ∃ j ∈ s.jobsOf give, (s.job j).copiesIn (ddrBase + s.cxl.base) s.cxl.size = true)
      (v ≠ give → busy → Does (.cxlmemHandover m q) s (fun s' => s' = s)) ∧
      (v = give ∨ ¬ busy →
        (16 < v → Does (.cxlmemHandover m q) s (fun s' => ends .rejectedArg s' ∧ s'.cxl = s.cxl)) ∧
        (v ≤ 16 → s.cxl.size = 0 ∨ (v ≠ 0 ∧ (s.part v).live = false) → Does (.cxlmemHandover m q) s (fun s' => ends .rejectedState s' ∧ s'.cxl = s.cxl)) ∧
        (v ≤ 16 → s.cxl.size ≠ 0 → v = 0 ∨ (s.part v).live = true → Does (.cxlmemHandover m q) s (fun s' => ends .ok s' ∧
          s'.cxl = { s.cxl with owner := v, exposed := v == 0 })))) ∧
    (∀ id v, Acts m' q' c Op.healthConfig s → c.items = [(id, v)] →
      let h := (s.job x).health
      let now (s' : State) : Health := (s'.job x).health
      (id = 1 → 0 < v → v ≤ 0x3F800000 → Does (.healthConfig m q) s (fun s' => ends .ok s' ∧ now s' = { h with alpha := v })) ∧
      (id = 1 → v = 0 ∨ 0x3F800000 < v → Does (.healthConfig m q) s (fun s' => ends .rejectedArg s' ∧ s'.jobs = s.jobs)) ∧
      (id = 2 → 0x3F800000 < v → v ≤ 0x7F800000 → Does (.healthConfig m q) s (fun s' => ends .ok s' ∧
        now s' = { h with thresh := v, warm := if h.thresh = 0 then 0 else h.warm })) ∧
      (id = 2 → v = 0 → Does (.healthConfig m q) s (fun s' => ends .ok s' ∧ now s' = { h with thresh := 0 })) ∧
      (id = 3 → v ≤ 65535 → h.ckptEvery ≠ 0 ∨ v = 0 → Does (.healthConfig m q) s (fun s' => ends .ok s' ∧ now s' = { h with ckptEvery := v })) ∧
      (id = 3 → v ≤ 65535 → h.ckptEvery = 0 → v ≠ 0 →
        (reserveAreas x s = none → Does (.healthConfig m q) s (fun s' => ends .noResource s' ∧ s'.jobs = s.jobs)) ∧
        (∀ u, reserveAreas x s = some u → Does (.healthConfig m q) s (fun s' => ends .ok s' ∧
          now s' = { (u.job x).health with ckptEvery := v } ∧ (now s').areas.length = 4))))

/-- FW_LOAD, for a command that acts and the image that the host answers: the first of the checks 0x01 to 0x07 that fails ends it with its status and the check's number, FW staying in ROM with that failure code; an image that passes all of them is measured, the SVN floor rises to the image's, FW is LOADING and the command waits; where power fails in the raise, as many bits as were blown stand and the module is off. At the end of boot time starts from 0, FW is READY, the rails are on, the HBM controllers are enabled, a fitted DIMM that trains is ON, and FW_LOAD ends OK with the firmware version; a hardware fault of boot, or an identity or certificate record without a valid copy, ends it FAULTED with FW STOPPED. ATTEST without the debug lock is AUTH_FAIL; else it takes the next leaf of the block in use, or the first of a newly reserved block, never one twice, and ends OK with report, signature and certificate; without a block it is NO_RESOURCE, with a failing write FAULTED, the block not taken. The signature check is that of RFC 8554 (logs 13, 51); what is read of the host and of the flash comes as operands (log 12); signature values are free but for the stated codes (log 11). A host answer of another length, an end of boot that nothing waits for and an ATTEST out of turn are no events (log 2); where DETAIL has no address is log 37. Commands that it says complete, under conditions on state and operands alone: ATTEST, FW_LOAD, BOOT_END. -/
def Obligations.BootAndAttestation : Prop :=
  (∀ (s : State) (m : MailboxId) (q : BitVec 16) (c : Cmd) (a n : Nat) (image : Option (List Byte)) (cut : Option Nat),
    Acts m.val q.toNat c Op.fwLoad s → c.items = [(1, a), (2, n)] → a < 2 ^ 51 → n < 2 ^ 32 →
    ((∃ b, image = some b ∧ b.length ≠ n) → Does (.fwLoad m q image cut) s (fun s' => s' = s)) ∧
    ((∀ b, image = some b → b.length = n) →
      let failed (code : Nat) (st : Status) : Prop := Does (.fwLoad m q image cut) s (fun s' => HostOnly s s' ∧
        Ends m.val q.toNat c st (leBytes 4 code) s' ∧ s'.boot = { s.boot with failCode := code } ∧ s'.fw = s.fw ∧ s'.flash = s.flash)
      (s.power.tripped = true → failed 1 .rejectedState) ∧
      (s.power.tripped = false → image = none → failed 2 .faulted) ∧
      (∀ b, s.power.tripped = false → image = some b →
        let h := fwHeader b
        let sig := fwSignature b
        let signed := hssVerify lmsFirmware lmsFirmware (fwKey b) (b.take (b.length - 3604)) sig
        (fwFormOk b = false → failed 3 .rejectedArg) ∧
        (fwFormOk b = true → if sha256 (fwKey b) ≠ Config.vendorKeyHash then failed 4 .authFail
          else if fwParamsOk sig = false then failed 5 .authFail
          else if signed = false then failed 6 .authFail
          else if FwHdr.svn h < s.flash.svnFloor then failed 7 .authFail
          else if (∃ n, cut = some n ∧ s.flash.svnFloor + n < FwHdr.floor h) then
            Does (.fwLoad m q image cut) s (fun s' => s'.fw = .rom ∧ s'.power.input = .under ∧ s'.power.control = false ∧ s'.tiles = [] ∧
              ∀ n, cut = some n → s'.flash = { s.flash with svnFloor := s.flash.svnFloor + n })
          else Does (.fwLoad m q image cut) s (fun s' => HostOnly s s' ∧ s'.fw = .loading ∧ s'.boot.loading = some q.toNat ∧
            s'.boot.version = FwHdr.version h ∧ s'.boot.digest = sha256 b ∧ s'.boot.failCode = 0 ∧
            s'.flash = { s.flash with svnFloor := max s.flash.svnFloor (FwHdr.floor h) } ∧
            s'.cmd m.val q.toNat = some { c with phase := .waiting, applied := 2 }))))) ∧
  (∀ (s : State) (ds : List DimmReport),
    (s.boot.loading = none → ∀ f, Does (.bootEnd ds f) s (fun s' => s' = s)) ∧
    (∀ q c, s.boot.loading = some q → s.cmd 0 q = some c →
      (s.flash.invalid = none → s.power.tripped = true → Does (.bootEnd ds none) s (fun s' => s' = s)) ∧
      (s.flash.invalid = none → s.power.tripped = false → Does (.bootEnd ds none) s (fun s' => HostOnly s s' ∧ s'.time = 0 ∧ s'.fw = .ready ∧
        Ends 0 q c .ok (leBytes 4 s.boot.version) s' ∧ s'.boot.loading = none ∧ s'.period.index = 0 ∧
        s'.power = { s.power with core := true, hbm := true, optics := true, dimms := true, lasers := true } ∧
        (∀ u, u < 16 → (s'.mc u).run = .enabled) ∧
        ∀ ch, ch < 16 → ch ∉ s.power.openDimms → ∀ d, ds.find? (fun d => d.channel == ch && d.fitted) = some d →
          dimmOk d = true → d.trained = true → (s'.mc (16 + ch)).run = .enabled ∧ (s'.life 4 ch).run = .on)) ∧
      (∀ f : Option BootFault, f ≠ none ∨ s.flash.invalid ≠ none → Does (.bootEnd ds f) s (fun s' => s'.fw = .stopped ∧ s'.boot.loading = none ∧ s'.hwFaulted = true ∧
        Ends 0 q c .faulted [] s')))) ∧
  (∀ (s : State) (m : MailboxId) (q : BitVec 16) (c : Cmd) (w x y z : Nat) (flashOk : Bool),
    Acts m.val q.toNat c Op.attest s → c.items = [(1, w), (2, x), (3, y), (4, z)] →
    let ends (st : Status) : Prop := Does (.attest m q flashOk) s (fun s' => HostOnly s s' ∧ Ends m.val q.toNat c st [] s' ∧
      s'.boot = s.boot ∧ s'.flash = s.flash)
    let signs (b n : Nat) (s' : State) : Prop := HostOnly s s' ∧ Ends m.val q.toNat c .ok [] s' ∧
      s'.boot = { s.boot with block := some b, leaf := n + 1 } ∧
      let r := attestReport s m.val [w, x, y, z]
      let bs := r ++ attestSignature b n r ++ padTo 3732 (s.flash.certificate.read.getD []) ++ List.replicate 56 0
      (s.power.reaches = true → RingApart m.val c.resultAddr bs.length s → ResultIs c bs s')
    (s.attestWaits c = true → Does (.attest m q flashOk) s (fun s' => s' = s)) ∧
    (s.attestWaits c = false →
      (s.flash.debugLock = false → ends .authFail) ∧
      (s.flash.debugLock = true →
        (∀ b, s.boot.block = some b → s.boot.leaf < 1024 → Does (.attest m q flashOk) s (fun s' => signs b s.boot.leaf s' ∧ s'.flash = s.flash)) ∧
        (s.boot.block = none ∨ 1024 ≤ s.boot.leaf →
          (s.flash.nextBlock = none → ends .faulted) ∧
          (∀ b, s.flash.nextBlock = some b →
            (32768 ≤ b → ends .noResource) ∧
            (b < 32768 → flashOk = false → Does (.attest m q flashOk) s (fun s' => HostOnly s s' ∧
              Ends m.val q.toNat c .faulted [] s' ∧ s'.boot = s.boot ∧ s'.flash = { s.flash with leaves := s'.flash.leaves } ∧
              s'.flash.nextBlock = some b)) ∧
            (b < 32768 → flashOk = true → Does (.attest m q flashOk) s (fun s' => signs b 0 s' ∧
              s'.flash = { s.flash with leaves := s'.flash.leaves } ∧ s'.flash.nextBlock = some (b + 1))))))))

/-- Power-on resets the module, the trip latch staying set only after an overvoltage; the input's faults reset it with every rail off; MOD_RESET resets it with the input on. A reset leaves no tile running, no job and no object, FW in ROM, time 0, flash as it was and, of a sound memory, the host's part. Hot reset only takes the port down; it trains at the widest width and highest rate of both ends or stays down. A shorted DIMM branch opens and its channel fails; a shorted management rail and an open sense line are noted once. The sideband reads one register, or 4 to 12 bytes from 0, and answers a write with NACK. A host write needs a trained port and reaches the mailbox blocks alone, the ring's place and size only while it is disabled; a firmware write to a stopped tile's region base, to a link that carries no job or to a quiet partition's sync object sets the field, and is ignored otherwise, as is one to a herd that the module has not. Input below 37 V counts as removal after any other fault of it (log 52); which rail has remote sense, and the channel's object (log 39), are readings, the device address of a link register is the model's own (log 109), and an event that is not due changes nothing (log 2). The values after a reset that the spec leaves open are logs 3, 5 and 36. Commands that it says complete, under conditions on state and operands alone: REGISTER_WRITE, MOD_RESET, CXL_TRAIN, DIMM_BRANCH_SHORT, REMOTE_SENSE_OPEN, SMBUS_READ, SMBUS_WRITE, POWER_ON, INPUT_UNDERVOLTAGE_OFF, INPUT_OVERVOLTAGE_OFF, INPUT_REVERSED, CXL_HOT_RESET, MGMT_RAIL_SHORT. -/
def Obligations.PowerResetAndPorts : Prop :=
  ∀ (s : State),
    let fresh (p : Power) (s' : State) : Prop := s'.power = p ∧ s'.fw = .rom ∧ s'.time = 0 ∧ s'.tiles = [] ∧ s'.jobs = [] ∧ s'.lives = [] ∧
      s'.parts = [] ∧ s'.mailboxes = [] ∧ s'.links = [] ∧ s'.reds = [] ∧ s'.coms = [] ∧ s'.syncs = [] ∧ s'.flash = s.flash ∧
      s'.grade = s.grade ∧ s'.pending = s.pending ∧ (s.MemSound → ∀ a, hostBase ≤ a → readByte s'.mem a = readByte s.mem a)
    let none' (i : Instr) : Prop := Does i s (fun s' => s' = s)
    let off (p : PowerIn) (t : Bool) : Power :=
      { input := p, mgmt := false, control := false, tripped := t, sideband := false, straps := s.power.straps, smbAddr := s.power.smbAddr }
    let trip : List Byte := leBytes 4 (if s.power.tripped then 1 else 0)
    (s.power.input = .inRange → none' .powerOn ∧ Does .inputUndervoltageOff s (fresh (off .under false)) ∧
      Does .inputOvervoltageOff s (fresh (off .over s.power.tripped))) ∧
    (s.power.input = .absent ∨ s.power.input = .under → none' .inputUndervoltageOff) ∧
    (s.power.input = .over ∨ s.power.input = .reversed → Does .inputUndervoltageOff s (fun s' => s' = { s with power := off .under false })) ∧
    (s.power.input ≠ .inRange → none' .inputOvervoltageOff ∧
      Does .powerOn s (fresh { tripped := s.power.tripped && s.power.input == .over, straps := s.power.straps, smbAddr := 0x4C + s.power.straps })) ∧
    Does .inputReversed s (fresh (off .reversed false)) ∧
    (∀ refclk, (s.power.control = false → none' (.modReset refclk)) ∧
      (s.power.control = true → Does (.modReset refclk) s (fresh
        { s.power with core := false, hbm := false, optics := false, dimms := false, lasers := false, openDimms := [], cxlWidth := 0
                       cxlRate := 0, cxlUpper := false, cxlDown := false, commonClock := refclk }))) ∧
    Does .cxlHotReset s (fun s' => s' = { s with power := { s.power with cxlWidth := 0, cxlRate := 0, cxlUpper := false } }) ∧
    (∀ w r u, s.power.control = true → s.power.cxlWidth = 0 → s.power.cxlDown = false →
      (8 ≤ w → 32 ≤ r → Does (.cxlTrain w r u) s (fun s' => s' = { s with power := { s.power with
        cxlWidth := if 16 ≤ w then 16 else 8, cxlRate := if 64 ≤ r then 64 else 32, cxlUpper := decide (w < 16) && u } })) ∧
      (w < 8 ∨ r < 32 → Does (.cxlTrain w r u) s (fun s' => s' = { s with power := { s.power with cxlDown := true } }))) ∧
    (s.power.cxlWidth ≠ 0 ∨ s.power.cxlDown = true → ∀ w r u, none' (.cxlTrain w r u)) ∧
    (∀ ch : Channel, (s.power.dimms = true ∨ s.fw = .loading) → ch.val ∉ s.power.openDimms → Does (.dimmBranchShort ch) s (fun s' =>
      HostOnly s s' ∧ s'.power = { s.power with openDimms := s.power.openDimms ++ [ch.val] } ∧ (s'.mc (16 + ch.val)).run = .failed ∧
      (s'.life 4 ch.val).run ≠ .on)) ∧
    (∀ ch : Channel, ch.val ∈ s.power.openDimms → none' (.dimmBranchShort ch)) ∧
    (s.power.mgmt = true → s.power.mgmtShort = false → s.fw ≠ .loading → Does .mgmtRailShort s (fun s' =>
      HostOnly s s' ∧ s'.power = { s.power with mgmtShort := true, sideband := false } ∧ s'.power.answers = false ∧ s'.fw = s.fw ∧
      (s.fw ≠ .rom → s'.hwFaulted = true))) ∧
    (s.power.mgmtShort = true → none' .mgmtRailShort) ∧
    (∀ r : Fin 172, s.hasRail r.val = true → r.val ∉ s.power.localSense → s.fw ≠ .loading → Does (.remoteSenseOpen r) s (fun s' =>
      HostOnly s s' ∧ s'.power = { s.power with localSense := s.power.localSense ++ [r.val] } ∧ s'.fw = s.fw ∧
      (s.fw ≠ .rom → s'.hwFaulted = true))) ∧
    (∀ r : Fin 172, r.val ∈ s.power.localSense → none' (.remoteSenseOpen r)) ∧
    (s.power.answers = true →
      Does (.smbusRead 0 12) s (fun s' => s' = { s with busNack := false, busData :=
        (leBytes 4 (s.chamois.bmcHbm * 2 ^ 16 + s.chamois.bmcJunction) ++ leBytes 4 s.chamois.bmcWatts ++ trip) }) ∧
      Does (.smbusRead 8 4) s (fun s' => s' = { s with busNack := false, busData := leBytes 4 (if s.power.tripped then 1 else 0) })) ∧
    (∀ o n, s.power.answers = false ∨ o % 4 ≠ 0 ∨ 256 ≤ o ∨ n < 4 ∨ 12 < n ∨ (o ≠ 0 ∧ 4 < n) →
      Does (.smbusRead o n) s (fun s' => s' = { s with busData := [], busNack := true })) ∧
    (∀ o d, Does (.smbusWrite o d) s (fun s' => s' = { s with busData := [], busNack := true })) ∧
    (∀ ibex addr v hits, addr % 4 ≠ 0 ∨ s.power.control = false → none' (.registerWrite ibex addr v hits)) ∧
    (s.power.reaches = false → ∀ addr v hits, none' (.registerWrite false addr v hits)) ∧
    (s.power.reaches = true → ∀ (v : Word) (hits : List StackHit),
      (∀ addr, addr < ctrlBase + 0x80000000 → none' (.registerWrite false addr v hits)) ∧
      (∀ k, k < 17 →
        let cr := ctrlBase + 0x80000000 + k * 0x10000 + 0x28
        ((s.mb k).enable = false → Does (.registerWrite false cr v hits) s (fun s' => s' = s.setMb k { s.mb k with crSize := v.toNat % 16 })) ∧
        ((s.mb k).enable = true → Does (.registerWrite false cr v hits) s (fun s' => s' = s.setMb k (s.mb k))))) ∧
    (s.power.control = true → ∀ (v : Word) (hits : List StackHit),
      (∀ t, t < s.tileCount →
        let base := ctrlBase + t * 0x1000 + 0x20
        ((s.tile t).run = .stopped → Does (.registerWrite true base v hits) s (fun s' =>
          s' = s.setTile t { s.tile t with regionBase := bits v.toNat 14 10 * 2 ^ 14 })) ∧
        ((s.tile t).run ≠ .stopped → none' (.registerWrite true base v hits))) ∧
      (∀ k, k < 96 →
        let size := 2 ^ 56 + k * 0x100 + 0x18
        (s.carriesJob k = false → Does (.registerWrite true size v hits) s (fun s' => s' = s.setLink k { s.link k with landSize := v.toNat })) ∧
        (s.carriesJob k = true → none' (.registerWrite true size v hits))) ∧
      (∀ h k, h < 2048 → k < 256 →
        let obj := ctrlBase + 0x10000000 + h * 0x2000 + k * 0x20 + 8
        (s.herdCount ≤ h → none' (.registerWrite true obj v hits)) ∧
        (h < s.herdCount → s.partQuiet (s.partOfObj (herdObj h k)) = true → Does (.registerWrite true obj v hits) s (fun s' =>
          s' = s.setSync (herdObj h k) { s.sync (herdObj h k) with waiters := v.toNat % 65536 }))) ∧
      (∀ o, o < 1024 →
        let obj := ctrlBase + 0x20000000 + o * 0x20
        (s.partQuiet (s.partOfObj (devObj o)) = true → Does (.registerWrite true obj v hits) s (fun s' =>
          s' = s.setSync (devObj o) { s.sync (devObj o) with target := bits v.toNat 16 16, value := bits v.toNat 0 16, due := bits v.toNat 0 16 })) ∧
        (s.partQuiet (s.partOfObj (devObj o)) = false → none' (.registerWrite true obj v hits))))

/-- After reset no queue of the module holds more than its entries (QueuesFit), the command queue is empty, FW is in ROM, time is 0, no job exists, every lifecycle object is OFF, every tile is STOPPED with no operation, every reduction entry FREE and every commit entry OFF, every link disabled, every mailbox's ring disabled with no command, and no partition is live. Memory has its canonical form and lists nothing. That every register of a tile reads 0 and the pc is 0 is the model's choice (log 3), and that unlisted memory reads 0 (log 4). -/
def Obligations.ResetState : Prop :=
  State.reset.MemSound ∧ State.reset.QueuesFit ∧ State.reset.pending = [] ∧ State.reset.fw = .rom ∧ State.reset.time = 0 ∧ State.reset.mem = [] ∧
    (∀ t, (State.reset.tile t).run = .stopped ∧ (State.reset.tile t).pc = 0 ∧ (∀ r, (State.reset.tile t).reg r = 0) ∧
      (State.reset.tile t).mover = [] ∧ (State.reset.tile t).blocks = [] ∧ (State.reset.tile t).mx = []) ∧
    (∀ j, State.reset.jobUsed j = false) ∧ (∀ k i, (State.reset.life k i).run = .off) ∧
    (∀ e, (State.reset.red e).state = .free ∧ (State.reset.com e).state = .off) ∧ (∀ k, (State.reset.link k).run = .disabled) ∧
    (∀ m, (State.reset.mb m).enable = false ∧ (State.reset.mb m).cmds = [] ∧ (State.reset.mb m).doorbell = none) ∧
    (∀ p, (State.reset.part p).live = false) ∧ (∀ a, readByte State.reset.mem a = unlistedByte)

/-- For every state whose memory has strictly rising addresses and lists no byte equal to what an unlisted address reads as, a step that answers a next state, whatever command stands in front of the queue and also on an empty queue, leaves the memory in that form; so equal memories are equal data after every step. Reset has the form (ResetState). -/
def Obligations.StepKeepsMemSound : Prop :=
  ∀ s s' : State, s.MemSound → step s = .next s' → s'.MemSound

/-- For every state in which each tile, in a herd or in a job's saved context, has at most the entries of Table 4-5 in its five unit queues and at most 8 in its finished-tile queue, each crossing at most 32 blocks in each direction, and each mailbox at most 8 commands outstanding: a step that answers a next state, whatever command stands in front of the queue and also on an empty queue, leaves it so. Reset is such a state (ResetState). -/
def Obligations.StepKeepsQueues : Prop :=
  ∀ s s' : State, s.QueuesFit → step s = .next s' → s'.QueuesFit
end

