-- ==== Sys2Proof/Laws/Memory.lean ====
section
/-! SUPPORT. Memory: a byte read after a write, the canonical form, and that every memory operation keeps it. -/

namespace Sys2Proof.Machine

/-! ## Reading after writing -/

theorem readByte_eraseByte (m : Memory) (a x : Nat) : readByte (eraseByte m a) x = if x = a then unlistedByte else readByte m x := by
  induction m with
  | nil => simp [eraseByte, readByte]
  | cons e r ih =>
    obtain ⟨k, v⟩ := e
    by_cases hk : k = a
    · subst hk
      have : eraseByte ((k, v) :: r) k = eraseByte r k := by simp [eraseByte]
      rw [this, ih]
      by_cases hx : x = k
      · simp [hx]
      · simp [hx, readByte, Ne.symm hx]
    · have : eraseByte ((k, v) :: r) a = (k, v) :: eraseByte r a := by simp [eraseByte, hk]
      rw [this]
      by_cases hx : k = x
      · subst hx; simp [readByte, hk]
      · simp [readByte, hx, ih]

theorem readByte_insertByte (m : Memory) (a x : Nat) (b : Byte) (h : ∀ e ∈ m, e.1 ≠ a) :
    readByte (insertByte m a b) x = if x = a then b else readByte m x := by
  induction m with
  | nil => simp [insertByte, readByte, eq_comm]
  | cons e r ih =>
    obtain ⟨k, v⟩ := e
    have hk : k ≠ a := h (k, v) (by simp)
    have ih := ih (fun e he => h e (by simp [he]))
    by_cases hak : a < k
    · simp [insertByte, hak, readByte, eq_comm]
    · by_cases hx : k = x
      · subst hx; simp [insertByte, hak, readByte, hk]
      · simp [insertByte, hak, readByte, hx, ih]

theorem eraseByte_ne {m : Memory} {a : Nat} {e : Host.Cell} (h : e ∈ eraseByte m a) : e.1 ≠ a := by
  simp [eraseByte] at h; exact h.2

/-- A byte read after a write of one byte. -/
theorem readByte_writeByte (m : Memory) (a x : Nat) (b : Byte) :
    readByte (writeByte m a b) x = if x = a then b else readByte m x := by
  unfold writeByte
  split
  · rename_i hb; rw [readByte_eraseByte, hb]
  · rw [readByte_insertByte _ _ _ _ (fun e he => eraseByte_ne he), readByte_eraseByte]
    split <;> rfl

/-- A byte outside a written range is as it was. -/
theorem readByte_writeBytes_outside (bs : List Byte) (m : Memory) (a x : Nat) (h : x < a ∨ a + bs.length ≤ x) :
    readByte (writeBytes m a bs) x = readByte m x := by
  induction bs generalizing m a with
  | nil => rfl
  | cons b r ih =>
    simp only [List.length_cons] at h
    rw [writeBytes, ih _ _ (by omega), readByte_writeByte, if_neg (by omega)]

/-- A byte inside a written range is the one written. -/
theorem readByte_writeBytes_inside (bs : List Byte) (m : Memory) (a i : Nat) (h : i < bs.length) :
    readByte (writeBytes m a bs) (a + i) = bs.getD i 0 := by
  induction bs generalizing m a i with
  | nil => simp at h
  | cons b r ih =>
    rw [writeBytes]
    cases i with
    | zero => rw [readByte_writeBytes_outside _ _ _ _ (by omega), readByte_writeByte]; simp
    | succ i =>
      simp only [List.length_cons] at h
      rw [show a + (i + 1) = a + 1 + i by omega, ih _ _ _ (by omega)]
      simp

theorem readByte_clearBytes (m : Memory) (a n x : Nat) :
    readByte (clearBytes m a n) x = if a ≤ x ∧ x < a + n then unlistedByte else readByte m x := by
  induction m with
  | nil => simp [clearBytes, readByte]
  | cons e r ih =>
    obtain ⟨k, v⟩ := e
    by_cases hk : a ≤ k ∧ k < a + n
    · have : clearBytes ((k, v) :: r) a n = clearBytes r a n := by simp [clearBytes, hk]
      rw [this, ih]
      by_cases hx : a ≤ x ∧ x < a + n
      · simp [hx]
      · rw [if_neg hx, if_neg hx, readByte, if_neg (by rintro rfl; exact hx hk)]
    · have : clearBytes ((k, v) :: r) a n = (k, v) :: clearBytes r a n := by
        unfold clearBytes; rw [List.filter_cons_of_pos]; simp; omega
      rw [this]
      by_cases hx : k = x
      · subst hx; simp [readByte, hk]
      · simp [readByte, hx, ih]

@[simp] theorem readBytes_length (m : Memory) (a n : Nat) : (readBytes m a n).length = n := by
  induction n generalizing a with
  | zero => rfl
  | succ n ih => simp [readBytes, ih]

/-- Bytes read are the bytes at their addresses. -/
theorem readBytes_getD (m : Memory) (a n i : Nat) (h : i < n) : (readBytes m a n).getD i 0 = readByte m (a + i) := by
  induction n generalizing a i with
  | zero => omega
  | succ n ih =>
    cases i with
    | zero => simp [readBytes]
    | succ i =>
      rw [readBytes, List.getD_cons_succ, ih _ _ (by omega)]
      congr 1; omega

/-- Two memories that agree on a range give the same bytes there. -/
theorem readBytes_congr {m m' : Memory} {a n : Nat} (h : ∀ x, a ≤ x → x < a + n → readByte m x = readByte m' x) :
    readBytes m a n = readBytes m' a n := by
  induction n generalizing a with
  | zero => rfl
  | succ n ih =>
    rw [readBytes, readBytes, h a (by omega) (by omega), ih (fun x h1 h2 => h x (by omega) (by omega))]

/-! ## The canonical form -/

/-- The canonical form, as pairwise order and listed values. -/
theorem memOrdered_iff (m : Memory) :
    memOrdered m = true ↔ m.Pairwise (fun e f => e.1 < f.1) ∧ ∀ e ∈ m, e.2 ≠ unlistedByte := by
  induction m with
  | nil => simp [memOrdered]
  | cons e r ih =>
    cases r with
    | nil => simp [memOrdered]
    | cons f r =>
      simp only [memOrdered, Bool.and_eq_true, bne_iff_ne, ne_eq, decide_eq_true_eq, ih, List.pairwise_cons, List.forall_mem_cons]
      constructor
      · rintro ⟨⟨h1, h2⟩, ⟨h3, h4⟩, h5⟩
        exact ⟨⟨⟨h2, fun x hx => Nat.lt_trans h2 (h3 x hx)⟩, h3, h4⟩, h1, h5⟩
      · rintro ⟨⟨⟨h2, -⟩, h3, h4⟩, h1, h5⟩
        exact ⟨⟨h1, h2⟩, ⟨h3, h4⟩, h5⟩

theorem wf_nil : Memory.wf [] := rfl

/-- Leaving entries out keeps the form. -/
theorem wf_filter {m : Memory} (h : m.wf) (p : Host.Cell → Bool) : Memory.wf (m.filter p) := by
  have h := (memOrdered_iff m).mp h
  exact (memOrdered_iff _).mpr ⟨h.1.filter p, fun e he => h.2 e (List.mem_filter.mp he).1⟩

theorem wf_eraseByte {m : Memory} (h : m.wf) (a : Nat) : Memory.wf (eraseByte m a) := wf_filter h _
theorem wf_clearBytes {m : Memory} (h : m.wf) (a n : Nat) : Memory.wf (clearBytes m a n) := wf_filter h _

theorem mem_insertByte {m : Memory} {a : Nat} {b : Byte} {e : Host.Cell} (h : e ∈ insertByte m a b) : e = (a, b) ∨ e ∈ m := by
  induction m with
  | nil => simpa [insertByte] using h
  | cons f r ih =>
    obtain ⟨k, v⟩ := f
    by_cases hak : a < k
    · simpa [insertByte, hak] using h
    · simp only [insertByte, hak, if_false, List.mem_cons] at h
      rcases h with h | h
      · exact .inr (by simp [h])
      · rcases ih h with h | h
        · exact .inl h
        · exact .inr (by simp [h])

theorem wf_insertByte {m : Memory} (h : m.wf) {a : Nat} {b : Byte} (hb : b ≠ unlistedByte) (ha : ∀ e ∈ m, e.1 ≠ a) :
    Memory.wf (insertByte m a b) := by
  rw [Memory.wf, memOrdered_iff] at h ⊢
  induction m with
  | nil => simpa [insertByte] using hb
  | cons f r ih =>
    obtain ⟨k, v⟩ := f
    obtain ⟨hp, hv⟩ := h
    rw [List.pairwise_cons] at hp
    have hk : k ≠ a := ha (k, v) (by simp)
    by_cases hak : a < k
    · simp only [insertByte, hak, if_true]
      refine ⟨List.pairwise_cons.mpr ⟨?_, List.pairwise_cons.mpr hp⟩, ?_⟩
      · intro e he
        rcases List.mem_cons.mp he with rfl | he
        · exact hak
        · exact Nat.lt_trans hak (hp.1 e he)
      · intro e he
        rcases List.mem_cons.mp he with rfl | he
        · exact hb
        · exact hv e he
    · simp only [insertByte, hak, if_false]
      have ih := ih ⟨hp.2, fun e he => hv e (by simp [he])⟩ (fun e he => ha e (by simp [he]))
      refine ⟨List.pairwise_cons.mpr ⟨?_, ih.1⟩, ?_⟩
      · intro e he
        rcases mem_insertByte he with rfl | he
        · show k < a; omega
        · exact hp.1 e he
      · intro e he
        rcases List.mem_cons.mp he with rfl | he
        · exact hv _ (by simp)
        · exact ih.2 e he

theorem wf_writeByte {m : Memory} (h : m.wf) (a : Nat) (b : Byte) : Memory.wf (writeByte m a b) := by
  unfold writeByte
  split
  · exact wf_eraseByte h a
  · rename_i hb; exact wf_insertByte (wf_eraseByte h a) hb (fun e he => eraseByte_ne he)

theorem wf_writeBytes {m : Memory} (h : m.wf) (a : Nat) (bs : List Byte) : Memory.wf (writeBytes m a bs) := by
  induction bs generalizing m a with
  | nil => exact h
  | cons b r ih => exact ih (wf_writeByte h a b) _

theorem wf_writeNat {m : Memory} (h : m.wf) (a n v : Nat) : Memory.wf (writeNat m a n v) := wf_writeBytes h _ _

/-- A fold over any list keeps what each of its steps keeps. -/
theorem foldl_keeps {α β : Type} {P : β → Prop} {f : β → α → β} (hf : ∀ b a, P b → P (f b a)) (l : List α) {b : β} (h : P b) :
    P (l.foldl f b) := by
  induction l generalizing b with
  | nil => exact h
  | cons a r ih => exact ih (hf b a h)

/-- As `foldl_keeps`, where each step keeps it for the list's own entries. -/
theorem foldl_keeps_mem {α β : Type} {P : β → Prop} {f : β → α → β} (l : List α) (hf : ∀ b, ∀ a ∈ l, P b → P (f b a)) {b : β}
    (h : P b) : P (l.foldl f b) := by
  induction l generalizing b with
  | nil => exact h
  | cons a r ih => exact ih (fun b c hc => hf b c (by simp [hc])) (hf b a (by simp) h)

/-- Any list of cells is brought into the form. -/
theorem wf_memOfCells (l : List Host.Cell) : Memory.wf (memOfCells l) :=
  foldl_keeps (P := Memory.wf) (fun _ _ h => wf_writeByte h _ _) l wf_nil

/-- An image's sections are written byte by byte. -/
theorem wf_load (g : Img) (e : LoadEnv) {m : Memory} (h : m.wf) : Memory.wf (g.load e m) := by
  unfold Img.load
  exact foldl_keeps (P := Memory.wf) (fun m _ h => foldl_keeps (P := Memory.wf) (fun m _ h =>
    foldl_keeps (P := Memory.wf) (fun m _ h => wf_writeBytes h _ _) _ h) _ h) _ h

/-- A sound memory is known by its bytes: two that read alike everywhere are equal. -/
theorem memory_ext {m m' : Memory} (h : m.wf) (h' : m'.wf) (e : ∀ a, readByte m a = readByte m' a) : m = m' := by
  rw [Memory.wf, memOrdered_iff] at h h'
  induction m generalizing m' with
  | nil =>
    cases m' with
    | nil => rfl
    | cons f r =>
      have := e f.1
      simp [readByte] at this
      exact absurd this.symm (h'.2 f (by simp))
  | cons f r ih =>
    have off (l : Memory) (k : Nat) (hl : ∀ x ∈ l, k < x.1) : readByte l k = unlistedByte := by
      induction l with
      | nil => rfl
      | cons x l ih =>
        have := hl x (by simp)
        rw [readByte, if_neg (by omega), ih (fun y hy => hl y (by simp [hy]))]
    obtain ⟨hp, hv⟩ := h
    rw [List.pairwise_cons] at hp
    cases m' with
    | nil =>
      have := e f.1
      simp [readByte] at this
      exact absurd this (hv f (by simp))
    | cons g r' =>
      obtain ⟨hp', hv'⟩ := h'
      rw [List.pairwise_cons] at hp'
      have hfg : f.1 = g.1 := by
        rcases Nat.lt_trichotomy f.1 g.1 with hlt | heq | hgt
        · have h1 := e f.1
          rw [off (g :: r') f.1 (by
            intro x hx
            rcases List.mem_cons.mp hx with rfl | hx
            · exact hlt
            · exact Nat.lt_trans hlt (hp'.1 x hx))] at h1
          simp [readByte] at h1
          exact absurd h1 (hv f (by simp))
        · exact heq
        · have h1 := e g.1
          rw [off (f :: r) g.1 (by
            intro x hx
            rcases List.mem_cons.mp hx with rfl | hx
            · exact hgt
            · exact Nat.lt_trans hgt (hp.1 x hx))] at h1
          simp [readByte] at h1
          exact absurd h1.symm (hv' g (by simp))
      have hfg2 : f.2 = g.2 := by have := e f.1; simpa [readByte, hfg] using this
      have : f = g := Prod.ext hfg hfg2
      subst this
      congr 1
      refine ih (m' := r') ⟨hp.2, fun x hx => hv x (by simp [hx])⟩ ⟨hp'.2, fun x hx => hv' x (by simp [hx])⟩ (fun a => ?_)
      by_cases ha : f.1 = a
      · subst ha; rw [off r f.1 hp.1, off r' f.1 hp'.1]
      · have := e a
        simpa [readByte, ha] using this

end Sys2Proof.Machine
end

