-- ==== Sys2Proof/Laws/State.lean ====
section
/-! SUPPORT. Every field, and every table read, of the state after each of its updates: by `rfl`, so that no proof unfolds a
record update. An update by a function is the replacement of the value it finds. -/

namespace Sys2Proof.Machine

@[simp] theorem updTile_eq (s : State) (k : Nat) (f : Tile → Tile) : s.updTile k f = s.setTile k (f (s.tile k)) := rfl
@[simp] theorem updPart_eq (s : State) (k : Nat) (f : Partition → Partition) : s.updPart k f = s.setPart k (f (s.part k)) := rfl
@[simp] theorem updJob_eq (s : State) (k : Nat) (f : Job → Job) : s.updJob k f = s.setJob k (f (s.job k)) := rfl
@[simp] theorem updRed_eq (s : State) (k : Nat) (f : RedEntry → RedEntry) : s.updRed k f = s.setRed k (f (s.red k)) := rfl
@[simp] theorem updCom_eq (s : State) (k : Nat) (f : ComEntry → ComEntry) : s.updCom k f = s.setCom k (f (s.com k)) := rfl
@[simp] theorem updLink_eq (s : State) (k : Nat) (f : Link → Link) : s.updLink k f = s.setLink k (f (s.link k)) := rfl
@[simp] theorem updMc_eq (s : State) (k : Nat) (f : Mc → Mc) : s.updMc k f = s.setMc k (f (s.mc k)) := rfl
@[simp] theorem updMb_eq (s : State) (k : Nat) (f : Mailbox → Mailbox) : s.updMb k f = s.setMb k (f (s.mb k)) := rfl

/-! `setTile` -/

@[simp] theorem setTile_pending (s : State) (t : Nat) (x : Tile) : (s.setTile t x).pending = s.pending := rfl
@[simp] theorem setTile_free (s : State) (t : Nat) (x : Tile) : (s.setTile t x).free = s.free := rfl
@[simp] theorem setTile_grade (s : State) (t : Nat) (x : Tile) : (s.setTile t x).grade = s.grade := rfl
@[simp] theorem setTile_stepMajor (s : State) (t : Nat) (x : Tile) : (s.setTile t x).stepMajor = s.stepMajor := rfl
@[simp] theorem setTile_stepMinor (s : State) (t : Nat) (x : Tile) : (s.setTile t x).stepMinor = s.stepMinor := rfl
@[simp] theorem setTile_busData (s : State) (t : Nat) (x : Tile) : (s.setTile t x).busData = s.busData := rfl
@[simp] theorem setTile_busNack (s : State) (t : Nat) (x : Tile) : (s.setTile t x).busNack = s.busNack := rfl
@[simp] theorem setTile_time (s : State) (t : Nat) (x : Tile) : (s.setTile t x).time = s.time := rfl
@[simp] theorem setTile_mem (s : State) (t : Nat) (x : Tile) : (s.setTile t x).mem = s.mem := rfl
@[simp] theorem setTile_eccBad (s : State) (t : Nat) (x : Tile) : (s.setTile t x).eccBad = s.eccBad := rfl
@[simp] theorem setTile_eccSoft (s : State) (t : Nat) (x : Tile) : (s.setTile t x).eccSoft = s.eccSoft := rfl
@[simp] theorem setTile_herdCe (s : State) (t : Nat) (x : Tile) : (s.setTile t x).herdCe = s.herdCe := rfl
@[simp] theorem setTile_syncs (s : State) (t : Nat) (x : Tile) : (s.setTile t x).syncs = s.syncs := rfl
@[simp] theorem setTile_nextId (s : State) (t : Nat) (x : Tile) : (s.setTile t x).nextId = s.nextId := rfl
@[simp] theorem setTile_syncMsgs (s : State) (t : Nat) (x : Tile) : (s.setTile t x).syncMsgs = s.syncMsgs := rfl
@[simp] theorem setTile_msgs (s : State) (t : Nat) (x : Tile) : (s.setTile t x).msgs = s.msgs := rfl
@[simp] theorem setTile_puts (s : State) (t : Nat) (x : Tile) : (s.setTile t x).puts = s.puts := rfl
@[simp] theorem setTile_sums (s : State) (t : Nat) (x : Tile) : (s.setTile t x).sums = s.sums := rfl
@[simp] theorem setTile_crossings (s : State) (t : Nat) (x : Tile) : (s.setTile t x).crossings = s.crossings := rfl
@[simp] theorem setTile_turns (s : State) (t : Nat) (x : Tile) : (s.setTile t x).turns = s.turns := rfl
@[simp] theorem setTile_parts (s : State) (t : Nat) (x : Tile) : (s.setTile t x).parts = s.parts := rfl
@[simp] theorem setTile_fw (s : State) (t : Nat) (x : Tile) : (s.setTile t x).fw = s.fw := rfl
@[simp] theorem setTile_mailboxes (s : State) (t : Nat) (x : Tile) : (s.setTile t x).mailboxes = s.mailboxes := rfl
@[simp] theorem setTile_boxTurn (s : State) (t : Nat) (x : Tile) : (s.setTile t x).boxTurn = s.boxTurn := rfl
@[simp] theorem setTile_lives (s : State) (t : Nat) (x : Tile) : (s.setTile t x).lives = s.lives := rfl
@[simp] theorem setTile_jobs (s : State) (t : Nat) (x : Tile) : (s.setTile t x).jobs = s.jobs := rfl
@[simp] theorem setTile_mcs (s : State) (t : Nat) (x : Tile) : (s.setTile t x).mcs = s.mcs := rfl
@[simp] theorem setTile_badBlocks (s : State) (t : Nat) (x : Tile) : (s.setTile t x).badBlocks = s.badBlocks := rfl
@[simp] theorem setTile_ddrGib (s : State) (t : Nat) (x : Tile) : (s.setTile t x).ddrGib = s.ddrGib := rfl
@[simp] theorem setTile_cxl (s : State) (t : Nat) (x : Tile) : (s.setTile t x).cxl = s.cxl := rfl
@[simp] theorem setTile_kudus (s : State) (t : Nat) (x : Tile) : (s.setTile t x).kudus = s.kudus := rfl
@[simp] theorem setTile_reds (s : State) (t : Nat) (x : Tile) : (s.setTile t x).reds = s.reds := rfl
@[simp] theorem setTile_coms (s : State) (t : Nat) (x : Tile) : (s.setTile t x).coms = s.coms := rfl
@[simp] theorem setTile_links (s : State) (t : Nat) (x : Tile) : (s.setTile t x).links = s.links := rfl
@[simp] theorem setTile_lasers (s : State) (t : Nat) (x : Tile) : (s.setTile t x).lasers = s.lasers := rfl
@[simp] theorem setTile_outbox (s : State) (t : Nat) (x : Tile) : (s.setTile t x).outbox = s.outbox := rfl
@[simp] theorem setTile_quads (s : State) (t : Nat) (x : Tile) : (s.setTile t x).quads = s.quads := rfl
@[simp] theorem setTile_spineStep (s : State) (t : Nat) (x : Tile) : (s.setTile t x).spineStep = s.spineStep := rfl
@[simp] theorem setTile_spineSettled (s : State) (t : Nat) (x : Tile) : (s.setTile t x).spineSettled = s.spineSettled := rfl
@[simp] theorem setTile_chamois (s : State) (t : Nat) (x : Tile) : (s.setTile t x).chamois = s.chamois := rfl
@[simp] theorem setTile_period (s : State) (t : Nat) (x : Tile) : (s.setTile t x).period = s.period := rfl
@[simp] theorem setTile_boot (s : State) (t : Nat) (x : Tile) : (s.setTile t x).boot = s.boot := rfl
@[simp] theorem setTile_flash (s : State) (t : Nat) (x : Tile) : (s.setTile t x).flash = s.flash := rfl
@[simp] theorem setTile_power (s : State) (t : Nat) (x : Tile) : (s.setTile t x).power = s.power := rfl
@[simp] theorem setTile_hwFaulted (s : State) (t : Nat) (x : Tile) : (s.setTile t x).hwFaulted = s.hwFaulted := rfl
@[simp] theorem setTile_part (s : State) (t : Nat) (x : Tile) (p' : Nat) : (s.setTile t x).part p' = s.part p' := rfl
@[simp] theorem setTile_job (s : State) (t : Nat) (x : Tile) (j' : Nat) : (s.setTile t x).job j' = s.job j' := rfl
@[simp] theorem setTile_red (s : State) (t : Nat) (x : Tile) (e' : Nat) : (s.setTile t x).red e' = s.red e' := rfl
@[simp] theorem setTile_com (s : State) (t : Nat) (x : Tile) (e' : Nat) : (s.setTile t x).com e' = s.com e' := rfl
@[simp] theorem setTile_link (s : State) (t : Nat) (x : Tile) (l' : Nat) : (s.setTile t x).link l' = s.link l' := rfl
@[simp] theorem setTile_mc (s : State) (t : Nat) (x : Tile) (n' : Nat) : (s.setTile t x).mc n' = s.mc n' := rfl
@[simp] theorem setTile_sync (s : State) (t : Nat) (x : Tile) (b' : Nat) : (s.setTile t x).sync b' = s.sync b' := rfl
@[simp] theorem setTile_msg (s : State) (t : Nat) (x : Tile) (n' : Nat) : (s.setTile t x).msg n' = s.msg n' := rfl
@[simp] theorem setTile_put (s : State) (t : Nat) (x : Tile) (n' : Nat) : (s.setTile t x).put n' = s.put n' := rfl
@[simp] theorem setTile_mb (s : State) (t : Nat) (x : Tile) (n' : Nat) : (s.setTile t x).mb n' = s.mb n' := rfl
@[simp] theorem setTile_quad (s : State) (t : Nat) (x : Tile) (n' : Nat) : (s.setTile t x).quad n' = s.quad n' := rfl
@[simp] theorem setTile_life (s : State) (t : Nat) (x : Tile) (kind' idx' : Nat) : (s.setTile t x).life kind' idx' = s.life kind' idx' := rfl
@[simp] theorem setTile_ppower (s : State) (t : Nat) (x : Tile) (n' : Nat) : (s.setTile t x).ppower n' = s.ppower n' := rfl

/-! `setPart` -/

@[simp] theorem setPart_pending (s : State) (p : Nat) (x : Partition) : (s.setPart p x).pending = s.pending := rfl
@[simp] theorem setPart_free (s : State) (p : Nat) (x : Partition) : (s.setPart p x).free = s.free := rfl
@[simp] theorem setPart_grade (s : State) (p : Nat) (x : Partition) : (s.setPart p x).grade = s.grade := rfl
@[simp] theorem setPart_stepMajor (s : State) (p : Nat) (x : Partition) : (s.setPart p x).stepMajor = s.stepMajor := rfl
@[simp] theorem setPart_stepMinor (s : State) (p : Nat) (x : Partition) : (s.setPart p x).stepMinor = s.stepMinor := rfl
@[simp] theorem setPart_busData (s : State) (p : Nat) (x : Partition) : (s.setPart p x).busData = s.busData := rfl
@[simp] theorem setPart_busNack (s : State) (p : Nat) (x : Partition) : (s.setPart p x).busNack = s.busNack := rfl
@[simp] theorem setPart_time (s : State) (p : Nat) (x : Partition) : (s.setPart p x).time = s.time := rfl
@[simp] theorem setPart_tiles (s : State) (p : Nat) (x : Partition) : (s.setPart p x).tiles = s.tiles := rfl
@[simp] theorem setPart_mem (s : State) (p : Nat) (x : Partition) : (s.setPart p x).mem = s.mem := rfl
@[simp] theorem setPart_eccBad (s : State) (p : Nat) (x : Partition) : (s.setPart p x).eccBad = s.eccBad := rfl
@[simp] theorem setPart_eccSoft (s : State) (p : Nat) (x : Partition) : (s.setPart p x).eccSoft = s.eccSoft := rfl
@[simp] theorem setPart_herdCe (s : State) (p : Nat) (x : Partition) : (s.setPart p x).herdCe = s.herdCe := rfl
@[simp] theorem setPart_syncs (s : State) (p : Nat) (x : Partition) : (s.setPart p x).syncs = s.syncs := rfl
@[simp] theorem setPart_nextId (s : State) (p : Nat) (x : Partition) : (s.setPart p x).nextId = s.nextId := rfl
@[simp] theorem setPart_syncMsgs (s : State) (p : Nat) (x : Partition) : (s.setPart p x).syncMsgs = s.syncMsgs := rfl
@[simp] theorem setPart_msgs (s : State) (p : Nat) (x : Partition) : (s.setPart p x).msgs = s.msgs := rfl
@[simp] theorem setPart_puts (s : State) (p : Nat) (x : Partition) : (s.setPart p x).puts = s.puts := rfl
@[simp] theorem setPart_sums (s : State) (p : Nat) (x : Partition) : (s.setPart p x).sums = s.sums := rfl
@[simp] theorem setPart_crossings (s : State) (p : Nat) (x : Partition) : (s.setPart p x).crossings = s.crossings := rfl
@[simp] theorem setPart_turns (s : State) (p : Nat) (x : Partition) : (s.setPart p x).turns = s.turns := rfl
@[simp] theorem setPart_fw (s : State) (p : Nat) (x : Partition) : (s.setPart p x).fw = s.fw := rfl
@[simp] theorem setPart_mailboxes (s : State) (p : Nat) (x : Partition) : (s.setPart p x).mailboxes = s.mailboxes := rfl
@[simp] theorem setPart_boxTurn (s : State) (p : Nat) (x : Partition) : (s.setPart p x).boxTurn = s.boxTurn := rfl
@[simp] theorem setPart_lives (s : State) (p : Nat) (x : Partition) : (s.setPart p x).lives = s.lives := rfl
@[simp] theorem setPart_jobs (s : State) (p : Nat) (x : Partition) : (s.setPart p x).jobs = s.jobs := rfl
@[simp] theorem setPart_mcs (s : State) (p : Nat) (x : Partition) : (s.setPart p x).mcs = s.mcs := rfl
@[simp] theorem setPart_badBlocks (s : State) (p : Nat) (x : Partition) : (s.setPart p x).badBlocks = s.badBlocks := rfl
@[simp] theorem setPart_ddrGib (s : State) (p : Nat) (x : Partition) : (s.setPart p x).ddrGib = s.ddrGib := rfl
@[simp] theorem setPart_cxl (s : State) (p : Nat) (x : Partition) : (s.setPart p x).cxl = s.cxl := rfl
@[simp] theorem setPart_kudus (s : State) (p : Nat) (x : Partition) : (s.setPart p x).kudus = s.kudus := rfl
@[simp] theorem setPart_reds (s : State) (p : Nat) (x : Partition) : (s.setPart p x).reds = s.reds := rfl
@[simp] theorem setPart_coms (s : State) (p : Nat) (x : Partition) : (s.setPart p x).coms = s.coms := rfl
@[simp] theorem setPart_links (s : State) (p : Nat) (x : Partition) : (s.setPart p x).links = s.links := rfl
@[simp] theorem setPart_lasers (s : State) (p : Nat) (x : Partition) : (s.setPart p x).lasers = s.lasers := rfl
@[simp] theorem setPart_outbox (s : State) (p : Nat) (x : Partition) : (s.setPart p x).outbox = s.outbox := rfl
@[simp] theorem setPart_quads (s : State) (p : Nat) (x : Partition) : (s.setPart p x).quads = s.quads := rfl
@[simp] theorem setPart_spineStep (s : State) (p : Nat) (x : Partition) : (s.setPart p x).spineStep = s.spineStep := rfl
@[simp] theorem setPart_spineSettled (s : State) (p : Nat) (x : Partition) : (s.setPart p x).spineSettled = s.spineSettled := rfl
@[simp] theorem setPart_chamois (s : State) (p : Nat) (x : Partition) : (s.setPart p x).chamois = s.chamois := rfl
@[simp] theorem setPart_period (s : State) (p : Nat) (x : Partition) : (s.setPart p x).period = s.period := rfl
@[simp] theorem setPart_boot (s : State) (p : Nat) (x : Partition) : (s.setPart p x).boot = s.boot := rfl
@[simp] theorem setPart_flash (s : State) (p : Nat) (x : Partition) : (s.setPart p x).flash = s.flash := rfl
@[simp] theorem setPart_power (s : State) (p : Nat) (x : Partition) : (s.setPart p x).power = s.power := rfl
@[simp] theorem setPart_hwFaulted (s : State) (p : Nat) (x : Partition) : (s.setPart p x).hwFaulted = s.hwFaulted := rfl
@[simp] theorem setPart_tile (s : State) (p : Nat) (x : Partition) (t' : Nat) : (s.setPart p x).tile t' = s.tile t' := rfl
@[simp] theorem setPart_job (s : State) (p : Nat) (x : Partition) (j' : Nat) : (s.setPart p x).job j' = s.job j' := rfl
@[simp] theorem setPart_red (s : State) (p : Nat) (x : Partition) (e' : Nat) : (s.setPart p x).red e' = s.red e' := rfl
@[simp] theorem setPart_com (s : State) (p : Nat) (x : Partition) (e' : Nat) : (s.setPart p x).com e' = s.com e' := rfl
@[simp] theorem setPart_link (s : State) (p : Nat) (x : Partition) (l' : Nat) : (s.setPart p x).link l' = s.link l' := rfl
@[simp] theorem setPart_mc (s : State) (p : Nat) (x : Partition) (n' : Nat) : (s.setPart p x).mc n' = s.mc n' := rfl
@[simp] theorem setPart_sync (s : State) (p : Nat) (x : Partition) (b' : Nat) : (s.setPart p x).sync b' = s.sync b' := rfl
@[simp] theorem setPart_msg (s : State) (p : Nat) (x : Partition) (n' : Nat) : (s.setPart p x).msg n' = s.msg n' := rfl
@[simp] theorem setPart_put (s : State) (p : Nat) (x : Partition) (n' : Nat) : (s.setPart p x).put n' = s.put n' := rfl
@[simp] theorem setPart_mb (s : State) (p : Nat) (x : Partition) (n' : Nat) : (s.setPart p x).mb n' = s.mb n' := rfl
@[simp] theorem setPart_quad (s : State) (p : Nat) (x : Partition) (n' : Nat) : (s.setPart p x).quad n' = s.quad n' := rfl
@[simp] theorem setPart_life (s : State) (p : Nat) (x : Partition) (kind' idx' : Nat) : (s.setPart p x).life kind' idx' = s.life kind' idx' := rfl
@[simp] theorem setPart_ppower (s : State) (p : Nat) (x : Partition) (n' : Nat) : (s.setPart p x).ppower n' = s.ppower n' := rfl

/-! `setJob` -/

@[simp] theorem setJob_pending (s : State) (j : Nat) (x : Job) : (s.setJob j x).pending = s.pending := rfl
@[simp] theorem setJob_free (s : State) (j : Nat) (x : Job) : (s.setJob j x).free = s.free := rfl
@[simp] theorem setJob_grade (s : State) (j : Nat) (x : Job) : (s.setJob j x).grade = s.grade := rfl
@[simp] theorem setJob_stepMajor (s : State) (j : Nat) (x : Job) : (s.setJob j x).stepMajor = s.stepMajor := rfl
@[simp] theorem setJob_stepMinor (s : State) (j : Nat) (x : Job) : (s.setJob j x).stepMinor = s.stepMinor := rfl
@[simp] theorem setJob_busData (s : State) (j : Nat) (x : Job) : (s.setJob j x).busData = s.busData := rfl
@[simp] theorem setJob_busNack (s : State) (j : Nat) (x : Job) : (s.setJob j x).busNack = s.busNack := rfl
@[simp] theorem setJob_time (s : State) (j : Nat) (x : Job) : (s.setJob j x).time = s.time := rfl
@[simp] theorem setJob_tiles (s : State) (j : Nat) (x : Job) : (s.setJob j x).tiles = s.tiles := rfl
@[simp] theorem setJob_mem (s : State) (j : Nat) (x : Job) : (s.setJob j x).mem = s.mem := rfl
@[simp] theorem setJob_eccBad (s : State) (j : Nat) (x : Job) : (s.setJob j x).eccBad = s.eccBad := rfl
@[simp] theorem setJob_eccSoft (s : State) (j : Nat) (x : Job) : (s.setJob j x).eccSoft = s.eccSoft := rfl
@[simp] theorem setJob_herdCe (s : State) (j : Nat) (x : Job) : (s.setJob j x).herdCe = s.herdCe := rfl
@[simp] theorem setJob_syncs (s : State) (j : Nat) (x : Job) : (s.setJob j x).syncs = s.syncs := rfl
@[simp] theorem setJob_nextId (s : State) (j : Nat) (x : Job) : (s.setJob j x).nextId = s.nextId := rfl
@[simp] theorem setJob_syncMsgs (s : State) (j : Nat) (x : Job) : (s.setJob j x).syncMsgs = s.syncMsgs := rfl
@[simp] theorem setJob_msgs (s : State) (j : Nat) (x : Job) : (s.setJob j x).msgs = s.msgs := rfl
@[simp] theorem setJob_puts (s : State) (j : Nat) (x : Job) : (s.setJob j x).puts = s.puts := rfl
@[simp] theorem setJob_sums (s : State) (j : Nat) (x : Job) : (s.setJob j x).sums = s.sums := rfl
@[simp] theorem setJob_crossings (s : State) (j : Nat) (x : Job) : (s.setJob j x).crossings = s.crossings := rfl
@[simp] theorem setJob_turns (s : State) (j : Nat) (x : Job) : (s.setJob j x).turns = s.turns := rfl
@[simp] theorem setJob_parts (s : State) (j : Nat) (x : Job) : (s.setJob j x).parts = s.parts := rfl
@[simp] theorem setJob_fw (s : State) (j : Nat) (x : Job) : (s.setJob j x).fw = s.fw := rfl
@[simp] theorem setJob_mailboxes (s : State) (j : Nat) (x : Job) : (s.setJob j x).mailboxes = s.mailboxes := rfl
@[simp] theorem setJob_boxTurn (s : State) (j : Nat) (x : Job) : (s.setJob j x).boxTurn = s.boxTurn := rfl
@[simp] theorem setJob_lives (s : State) (j : Nat) (x : Job) : (s.setJob j x).lives = s.lives := rfl
@[simp] theorem setJob_mcs (s : State) (j : Nat) (x : Job) : (s.setJob j x).mcs = s.mcs := rfl
@[simp] theorem setJob_badBlocks (s : State) (j : Nat) (x : Job) : (s.setJob j x).badBlocks = s.badBlocks := rfl
@[simp] theorem setJob_ddrGib (s : State) (j : Nat) (x : Job) : (s.setJob j x).ddrGib = s.ddrGib := rfl
@[simp] theorem setJob_cxl (s : State) (j : Nat) (x : Job) : (s.setJob j x).cxl = s.cxl := rfl
@[simp] theorem setJob_kudus (s : State) (j : Nat) (x : Job) : (s.setJob j x).kudus = s.kudus := rfl
@[simp] theorem setJob_reds (s : State) (j : Nat) (x : Job) : (s.setJob j x).reds = s.reds := rfl
@[simp] theorem setJob_coms (s : State) (j : Nat) (x : Job) : (s.setJob j x).coms = s.coms := rfl
@[simp] theorem setJob_links (s : State) (j : Nat) (x : Job) : (s.setJob j x).links = s.links := rfl
@[simp] theorem setJob_lasers (s : State) (j : Nat) (x : Job) : (s.setJob j x).lasers = s.lasers := rfl
@[simp] theorem setJob_outbox (s : State) (j : Nat) (x : Job) : (s.setJob j x).outbox = s.outbox := rfl
@[simp] theorem setJob_quads (s : State) (j : Nat) (x : Job) : (s.setJob j x).quads = s.quads := rfl
@[simp] theorem setJob_spineStep (s : State) (j : Nat) (x : Job) : (s.setJob j x).spineStep = s.spineStep := rfl
@[simp] theorem setJob_spineSettled (s : State) (j : Nat) (x : Job) : (s.setJob j x).spineSettled = s.spineSettled := rfl
@[simp] theorem setJob_chamois (s : State) (j : Nat) (x : Job) : (s.setJob j x).chamois = s.chamois := rfl
@[simp] theorem setJob_period (s : State) (j : Nat) (x : Job) : (s.setJob j x).period = s.period := rfl
@[simp] theorem setJob_boot (s : State) (j : Nat) (x : Job) : (s.setJob j x).boot = s.boot := rfl
@[simp] theorem setJob_flash (s : State) (j : Nat) (x : Job) : (s.setJob j x).flash = s.flash := rfl
@[simp] theorem setJob_power (s : State) (j : Nat) (x : Job) : (s.setJob j x).power = s.power := rfl
@[simp] theorem setJob_hwFaulted (s : State) (j : Nat) (x : Job) : (s.setJob j x).hwFaulted = s.hwFaulted := rfl
@[simp] theorem setJob_tile (s : State) (j : Nat) (x : Job) (t' : Nat) : (s.setJob j x).tile t' = s.tile t' := rfl
@[simp] theorem setJob_part (s : State) (j : Nat) (x : Job) (p' : Nat) : (s.setJob j x).part p' = s.part p' := rfl
@[simp] theorem setJob_red (s : State) (j : Nat) (x : Job) (e' : Nat) : (s.setJob j x).red e' = s.red e' := rfl
@[simp] theorem setJob_com (s : State) (j : Nat) (x : Job) (e' : Nat) : (s.setJob j x).com e' = s.com e' := rfl
@[simp] theorem setJob_link (s : State) (j : Nat) (x : Job) (l' : Nat) : (s.setJob j x).link l' = s.link l' := rfl
@[simp] theorem setJob_mc (s : State) (j : Nat) (x : Job) (n' : Nat) : (s.setJob j x).mc n' = s.mc n' := rfl
@[simp] theorem setJob_sync (s : State) (j : Nat) (x : Job) (b' : Nat) : (s.setJob j x).sync b' = s.sync b' := rfl
@[simp] theorem setJob_msg (s : State) (j : Nat) (x : Job) (n' : Nat) : (s.setJob j x).msg n' = s.msg n' := rfl
@[simp] theorem setJob_put (s : State) (j : Nat) (x : Job) (n' : Nat) : (s.setJob j x).put n' = s.put n' := rfl
@[simp] theorem setJob_mb (s : State) (j : Nat) (x : Job) (n' : Nat) : (s.setJob j x).mb n' = s.mb n' := rfl
@[simp] theorem setJob_quad (s : State) (j : Nat) (x : Job) (n' : Nat) : (s.setJob j x).quad n' = s.quad n' := rfl
@[simp] theorem setJob_life (s : State) (j : Nat) (x : Job) (kind' idx' : Nat) : (s.setJob j x).life kind' idx' = s.life kind' idx' := rfl
@[simp] theorem setJob_ppower (s : State) (j : Nat) (x : Job) (n' : Nat) : (s.setJob j x).ppower n' = s.ppower n' := rfl

/-! `setRed` -/

@[simp] theorem setRed_pending (s : State) (k : Nat) (x : RedEntry) : (s.setRed k x).pending = s.pending := rfl
@[simp] theorem setRed_free (s : State) (k : Nat) (x : RedEntry) : (s.setRed k x).free = s.free := rfl
@[simp] theorem setRed_grade (s : State) (k : Nat) (x : RedEntry) : (s.setRed k x).grade = s.grade := rfl
@[simp] theorem setRed_stepMajor (s : State) (k : Nat) (x : RedEntry) : (s.setRed k x).stepMajor = s.stepMajor := rfl
@[simp] theorem setRed_stepMinor (s : State) (k : Nat) (x : RedEntry) : (s.setRed k x).stepMinor = s.stepMinor := rfl
@[simp] theorem setRed_busData (s : State) (k : Nat) (x : RedEntry) : (s.setRed k x).busData = s.busData := rfl
@[simp] theorem setRed_busNack (s : State) (k : Nat) (x : RedEntry) : (s.setRed k x).busNack = s.busNack := rfl
@[simp] theorem setRed_time (s : State) (k : Nat) (x : RedEntry) : (s.setRed k x).time = s.time := rfl
@[simp] theorem setRed_tiles (s : State) (k : Nat) (x : RedEntry) : (s.setRed k x).tiles = s.tiles := rfl
@[simp] theorem setRed_mem (s : State) (k : Nat) (x : RedEntry) : (s.setRed k x).mem = s.mem := rfl
@[simp] theorem setRed_eccBad (s : State) (k : Nat) (x : RedEntry) : (s.setRed k x).eccBad = s.eccBad := rfl
@[simp] theorem setRed_eccSoft (s : State) (k : Nat) (x : RedEntry) : (s.setRed k x).eccSoft = s.eccSoft := rfl
@[simp] theorem setRed_herdCe (s : State) (k : Nat) (x : RedEntry) : (s.setRed k x).herdCe = s.herdCe := rfl
@[simp] theorem setRed_syncs (s : State) (k : Nat) (x : RedEntry) : (s.setRed k x).syncs = s.syncs := rfl
@[simp] theorem setRed_nextId (s : State) (k : Nat) (x : RedEntry) : (s.setRed k x).nextId = s.nextId := rfl
@[simp] theorem setRed_syncMsgs (s : State) (k : Nat) (x : RedEntry) : (s.setRed k x).syncMsgs = s.syncMsgs := rfl
@[simp] theorem setRed_msgs (s : State) (k : Nat) (x : RedEntry) : (s.setRed k x).msgs = s.msgs := rfl
@[simp] theorem setRed_puts (s : State) (k : Nat) (x : RedEntry) : (s.setRed k x).puts = s.puts := rfl
@[simp] theorem setRed_sums (s : State) (k : Nat) (x : RedEntry) : (s.setRed k x).sums = s.sums := rfl
@[simp] theorem setRed_crossings (s : State) (k : Nat) (x : RedEntry) : (s.setRed k x).crossings = s.crossings := rfl
@[simp] theorem setRed_turns (s : State) (k : Nat) (x : RedEntry) : (s.setRed k x).turns = s.turns := rfl
@[simp] theorem setRed_parts (s : State) (k : Nat) (x : RedEntry) : (s.setRed k x).parts = s.parts := rfl
@[simp] theorem setRed_fw (s : State) (k : Nat) (x : RedEntry) : (s.setRed k x).fw = s.fw := rfl
@[simp] theorem setRed_mailboxes (s : State) (k : Nat) (x : RedEntry) : (s.setRed k x).mailboxes = s.mailboxes := rfl
@[simp] theorem setRed_boxTurn (s : State) (k : Nat) (x : RedEntry) : (s.setRed k x).boxTurn = s.boxTurn := rfl
@[simp] theorem setRed_lives (s : State) (k : Nat) (x : RedEntry) : (s.setRed k x).lives = s.lives := rfl
@[simp] theorem setRed_jobs (s : State) (k : Nat) (x : RedEntry) : (s.setRed k x).jobs = s.jobs := rfl
@[simp] theorem setRed_mcs (s : State) (k : Nat) (x : RedEntry) : (s.setRed k x).mcs = s.mcs := rfl
@[simp] theorem setRed_badBlocks (s : State) (k : Nat) (x : RedEntry) : (s.setRed k x).badBlocks = s.badBlocks := rfl
@[simp] theorem setRed_ddrGib (s : State) (k : Nat) (x : RedEntry) : (s.setRed k x).ddrGib = s.ddrGib := rfl
@[simp] theorem setRed_cxl (s : State) (k : Nat) (x : RedEntry) : (s.setRed k x).cxl = s.cxl := rfl
@[simp] theorem setRed_kudus (s : State) (k : Nat) (x : RedEntry) : (s.setRed k x).kudus = s.kudus := rfl
@[simp] theorem setRed_coms (s : State) (k : Nat) (x : RedEntry) : (s.setRed k x).coms = s.coms := rfl
@[simp] theorem setRed_links (s : State) (k : Nat) (x : RedEntry) : (s.setRed k x).links = s.links := rfl
@[simp] theorem setRed_lasers (s : State) (k : Nat) (x : RedEntry) : (s.setRed k x).lasers = s.lasers := rfl
@[simp] theorem setRed_outbox (s : State) (k : Nat) (x : RedEntry) : (s.setRed k x).outbox = s.outbox := rfl
@[simp] theorem setRed_quads (s : State) (k : Nat) (x : RedEntry) : (s.setRed k x).quads = s.quads := rfl
@[simp] theorem setRed_spineStep (s : State) (k : Nat) (x : RedEntry) : (s.setRed k x).spineStep = s.spineStep := rfl
@[simp] theorem setRed_spineSettled (s : State) (k : Nat) (x : RedEntry) : (s.setRed k x).spineSettled = s.spineSettled := rfl
@[simp] theorem setRed_chamois (s : State) (k : Nat) (x : RedEntry) : (s.setRed k x).chamois = s.chamois := rfl
@[simp] theorem setRed_period (s : State) (k : Nat) (x : RedEntry) : (s.setRed k x).period = s.period := rfl
@[simp] theorem setRed_boot (s : State) (k : Nat) (x : RedEntry) : (s.setRed k x).boot = s.boot := rfl
@[simp] theorem setRed_flash (s : State) (k : Nat) (x : RedEntry) : (s.setRed k x).flash = s.flash := rfl
@[simp] theorem setRed_power (s : State) (k : Nat) (x : RedEntry) : (s.setRed k x).power = s.power := rfl
@[simp] theorem setRed_hwFaulted (s : State) (k : Nat) (x : RedEntry) : (s.setRed k x).hwFaulted = s.hwFaulted := rfl
@[simp] theorem setRed_tile (s : State) (k : Nat) (x : RedEntry) (t' : Nat) : (s.setRed k x).tile t' = s.tile t' := rfl
@[simp] theorem setRed_part (s : State) (k : Nat) (x : RedEntry) (p' : Nat) : (s.setRed k x).part p' = s.part p' := rfl
@[simp] theorem setRed_job (s : State) (k : Nat) (x : RedEntry) (j' : Nat) : (s.setRed k x).job j' = s.job j' := rfl
@[simp] theorem setRed_com (s : State) (k : Nat) (x : RedEntry) (e' : Nat) : (s.setRed k x).com e' = s.com e' := rfl
@[simp] theorem setRed_link (s : State) (k : Nat) (x : RedEntry) (l' : Nat) : (s.setRed k x).link l' = s.link l' := rfl
@[simp] theorem setRed_mc (s : State) (k : Nat) (x : RedEntry) (n' : Nat) : (s.setRed k x).mc n' = s.mc n' := rfl
@[simp] theorem setRed_sync (s : State) (k : Nat) (x : RedEntry) (b' : Nat) : (s.setRed k x).sync b' = s.sync b' := rfl
@[simp] theorem setRed_msg (s : State) (k : Nat) (x : RedEntry) (n' : Nat) : (s.setRed k x).msg n' = s.msg n' := rfl
@[simp] theorem setRed_put (s : State) (k : Nat) (x : RedEntry) (n' : Nat) : (s.setRed k x).put n' = s.put n' := rfl
@[simp] theorem setRed_mb (s : State) (k : Nat) (x : RedEntry) (n' : Nat) : (s.setRed k x).mb n' = s.mb n' := rfl
@[simp] theorem setRed_quad (s : State) (k : Nat) (x : RedEntry) (n' : Nat) : (s.setRed k x).quad n' = s.quad n' := rfl
@[simp] theorem setRed_life (s : State) (k : Nat) (x : RedEntry) (kind' idx' : Nat) : (s.setRed k x).life kind' idx' = s.life kind' idx' := rfl
@[simp] theorem setRed_ppower (s : State) (k : Nat) (x : RedEntry) (n' : Nat) : (s.setRed k x).ppower n' = s.ppower n' := rfl

/-! `setCom` -/

@[simp] theorem setCom_pending (s : State) (k : Nat) (x : ComEntry) : (s.setCom k x).pending = s.pending := rfl
@[simp] theorem setCom_free (s : State) (k : Nat) (x : ComEntry) : (s.setCom k x).free = s.free := rfl
@[simp] theorem setCom_grade (s : State) (k : Nat) (x : ComEntry) : (s.setCom k x).grade = s.grade := rfl
@[simp] theorem setCom_stepMajor (s : State) (k : Nat) (x : ComEntry) : (s.setCom k x).stepMajor = s.stepMajor := rfl
@[simp] theorem setCom_stepMinor (s : State) (k : Nat) (x : ComEntry) : (s.setCom k x).stepMinor = s.stepMinor := rfl
@[simp] theorem setCom_busData (s : State) (k : Nat) (x : ComEntry) : (s.setCom k x).busData = s.busData := rfl
@[simp] theorem setCom_busNack (s : State) (k : Nat) (x : ComEntry) : (s.setCom k x).busNack = s.busNack := rfl
@[simp] theorem setCom_time (s : State) (k : Nat) (x : ComEntry) : (s.setCom k x).time = s.time := rfl
@[simp] theorem setCom_tiles (s : State) (k : Nat) (x : ComEntry) : (s.setCom k x).tiles = s.tiles := rfl
@[simp] theorem setCom_mem (s : State) (k : Nat) (x : ComEntry) : (s.setCom k x).mem = s.mem := rfl
@[simp] theorem setCom_eccBad (s : State) (k : Nat) (x : ComEntry) : (s.setCom k x).eccBad = s.eccBad := rfl
@[simp] theorem setCom_eccSoft (s : State) (k : Nat) (x : ComEntry) : (s.setCom k x).eccSoft = s.eccSoft := rfl
@[simp] theorem setCom_herdCe (s : State) (k : Nat) (x : ComEntry) : (s.setCom k x).herdCe = s.herdCe := rfl
@[simp] theorem setCom_syncs (s : State) (k : Nat) (x : ComEntry) : (s.setCom k x).syncs = s.syncs := rfl
@[simp] theorem setCom_nextId (s : State) (k : Nat) (x : ComEntry) : (s.setCom k x).nextId = s.nextId := rfl
@[simp] theorem setCom_syncMsgs (s : State) (k : Nat) (x : ComEntry) : (s.setCom k x).syncMsgs = s.syncMsgs := rfl
@[simp] theorem setCom_msgs (s : State) (k : Nat) (x : ComEntry) : (s.setCom k x).msgs = s.msgs := rfl
@[simp] theorem setCom_puts (s : State) (k : Nat) (x : ComEntry) : (s.setCom k x).puts = s.puts := rfl
@[simp] theorem setCom_sums (s : State) (k : Nat) (x : ComEntry) : (s.setCom k x).sums = s.sums := rfl
@[simp] theorem setCom_crossings (s : State) (k : Nat) (x : ComEntry) : (s.setCom k x).crossings = s.crossings := rfl
@[simp] theorem setCom_turns (s : State) (k : Nat) (x : ComEntry) : (s.setCom k x).turns = s.turns := rfl
@[simp] theorem setCom_parts (s : State) (k : Nat) (x : ComEntry) : (s.setCom k x).parts = s.parts := rfl
@[simp] theorem setCom_fw (s : State) (k : Nat) (x : ComEntry) : (s.setCom k x).fw = s.fw := rfl
@[simp] theorem setCom_mailboxes (s : State) (k : Nat) (x : ComEntry) : (s.setCom k x).mailboxes = s.mailboxes := rfl
@[simp] theorem setCom_boxTurn (s : State) (k : Nat) (x : ComEntry) : (s.setCom k x).boxTurn = s.boxTurn := rfl
@[simp] theorem setCom_lives (s : State) (k : Nat) (x : ComEntry) : (s.setCom k x).lives = s.lives := rfl
@[simp] theorem setCom_jobs (s : State) (k : Nat) (x : ComEntry) : (s.setCom k x).jobs = s.jobs := rfl
@[simp] theorem setCom_mcs (s : State) (k : Nat) (x : ComEntry) : (s.setCom k x).mcs = s.mcs := rfl
@[simp] theorem setCom_badBlocks (s : State) (k : Nat) (x : ComEntry) : (s.setCom k x).badBlocks = s.badBlocks := rfl
@[simp] theorem setCom_ddrGib (s : State) (k : Nat) (x : ComEntry) : (s.setCom k x).ddrGib = s.ddrGib := rfl
@[simp] theorem setCom_cxl (s : State) (k : Nat) (x : ComEntry) : (s.setCom k x).cxl = s.cxl := rfl
@[simp] theorem setCom_kudus (s : State) (k : Nat) (x : ComEntry) : (s.setCom k x).kudus = s.kudus := rfl
@[simp] theorem setCom_reds (s : State) (k : Nat) (x : ComEntry) : (s.setCom k x).reds = s.reds := rfl
@[simp] theorem setCom_links (s : State) (k : Nat) (x : ComEntry) : (s.setCom k x).links = s.links := rfl
@[simp] theorem setCom_lasers (s : State) (k : Nat) (x : ComEntry) : (s.setCom k x).lasers = s.lasers := rfl
@[simp] theorem setCom_outbox (s : State) (k : Nat) (x : ComEntry) : (s.setCom k x).outbox = s.outbox := rfl
@[simp] theorem setCom_quads (s : State) (k : Nat) (x : ComEntry) : (s.setCom k x).quads = s.quads := rfl
@[simp] theorem setCom_spineStep (s : State) (k : Nat) (x : ComEntry) : (s.setCom k x).spineStep = s.spineStep := rfl
@[simp] theorem setCom_spineSettled (s : State) (k : Nat) (x : ComEntry) : (s.setCom k x).spineSettled = s.spineSettled := rfl
@[simp] theorem setCom_chamois (s : State) (k : Nat) (x : ComEntry) : (s.setCom k x).chamois = s.chamois := rfl
@[simp] theorem setCom_period (s : State) (k : Nat) (x : ComEntry) : (s.setCom k x).period = s.period := rfl
@[simp] theorem setCom_boot (s : State) (k : Nat) (x : ComEntry) : (s.setCom k x).boot = s.boot := rfl
@[simp] theorem setCom_flash (s : State) (k : Nat) (x : ComEntry) : (s.setCom k x).flash = s.flash := rfl
@[simp] theorem setCom_power (s : State) (k : Nat) (x : ComEntry) : (s.setCom k x).power = s.power := rfl
@[simp] theorem setCom_hwFaulted (s : State) (k : Nat) (x : ComEntry) : (s.setCom k x).hwFaulted = s.hwFaulted := rfl
@[simp] theorem setCom_tile (s : State) (k : Nat) (x : ComEntry) (t' : Nat) : (s.setCom k x).tile t' = s.tile t' := rfl
@[simp] theorem setCom_part (s : State) (k : Nat) (x : ComEntry) (p' : Nat) : (s.setCom k x).part p' = s.part p' := rfl
@[simp] theorem setCom_job (s : State) (k : Nat) (x : ComEntry) (j' : Nat) : (s.setCom k x).job j' = s.job j' := rfl
@[simp] theorem setCom_red (s : State) (k : Nat) (x : ComEntry) (e' : Nat) : (s.setCom k x).red e' = s.red e' := rfl
@[simp] theorem setCom_link (s : State) (k : Nat) (x : ComEntry) (l' : Nat) : (s.setCom k x).link l' = s.link l' := rfl
@[simp] theorem setCom_mc (s : State) (k : Nat) (x : ComEntry) (n' : Nat) : (s.setCom k x).mc n' = s.mc n' := rfl
@[simp] theorem setCom_sync (s : State) (k : Nat) (x : ComEntry) (b' : Nat) : (s.setCom k x).sync b' = s.sync b' := rfl
@[simp] theorem setCom_msg (s : State) (k : Nat) (x : ComEntry) (n' : Nat) : (s.setCom k x).msg n' = s.msg n' := rfl
@[simp] theorem setCom_put (s : State) (k : Nat) (x : ComEntry) (n' : Nat) : (s.setCom k x).put n' = s.put n' := rfl
@[simp] theorem setCom_mb (s : State) (k : Nat) (x : ComEntry) (n' : Nat) : (s.setCom k x).mb n' = s.mb n' := rfl
@[simp] theorem setCom_quad (s : State) (k : Nat) (x : ComEntry) (n' : Nat) : (s.setCom k x).quad n' = s.quad n' := rfl
@[simp] theorem setCom_life (s : State) (k : Nat) (x : ComEntry) (kind' idx' : Nat) : (s.setCom k x).life kind' idx' = s.life kind' idx' := rfl
@[simp] theorem setCom_ppower (s : State) (k : Nat) (x : ComEntry) (n' : Nat) : (s.setCom k x).ppower n' = s.ppower n' := rfl

/-! `setLink` -/

@[simp] theorem setLink_pending (s : State) (k : Nat) (x : Link) : (s.setLink k x).pending = s.pending := rfl
@[simp] theorem setLink_free (s : State) (k : Nat) (x : Link) : (s.setLink k x).free = s.free := rfl
@[simp] theorem setLink_grade (s : State) (k : Nat) (x : Link) : (s.setLink k x).grade = s.grade := rfl
@[simp] theorem setLink_stepMajor (s : State) (k : Nat) (x : Link) : (s.setLink k x).stepMajor = s.stepMajor := rfl
@[simp] theorem setLink_stepMinor (s : State) (k : Nat) (x : Link) : (s.setLink k x).stepMinor = s.stepMinor := rfl
@[simp] theorem setLink_busData (s : State) (k : Nat) (x : Link) : (s.setLink k x).busData = s.busData := rfl
@[simp] theorem setLink_busNack (s : State) (k : Nat) (x : Link) : (s.setLink k x).busNack = s.busNack := rfl
@[simp] theorem setLink_time (s : State) (k : Nat) (x : Link) : (s.setLink k x).time = s.time := rfl
@[simp] theorem setLink_tiles (s : State) (k : Nat) (x : Link) : (s.setLink k x).tiles = s.tiles := rfl
@[simp] theorem setLink_mem (s : State) (k : Nat) (x : Link) : (s.setLink k x).mem = s.mem := rfl
@[simp] theorem setLink_eccBad (s : State) (k : Nat) (x : Link) : (s.setLink k x).eccBad = s.eccBad := rfl
@[simp] theorem setLink_eccSoft (s : State) (k : Nat) (x : Link) : (s.setLink k x).eccSoft = s.eccSoft := rfl
@[simp] theorem setLink_herdCe (s : State) (k : Nat) (x : Link) : (s.setLink k x).herdCe = s.herdCe := rfl
@[simp] theorem setLink_syncs (s : State) (k : Nat) (x : Link) : (s.setLink k x).syncs = s.syncs := rfl
@[simp] theorem setLink_nextId (s : State) (k : Nat) (x : Link) : (s.setLink k x).nextId = s.nextId := rfl
@[simp] theorem setLink_syncMsgs (s : State) (k : Nat) (x : Link) : (s.setLink k x).syncMsgs = s.syncMsgs := rfl
@[simp] theorem setLink_msgs (s : State) (k : Nat) (x : Link) : (s.setLink k x).msgs = s.msgs := rfl
@[simp] theorem setLink_puts (s : State) (k : Nat) (x : Link) : (s.setLink k x).puts = s.puts := rfl
@[simp] theorem setLink_sums (s : State) (k : Nat) (x : Link) : (s.setLink k x).sums = s.sums := rfl
@[simp] theorem setLink_crossings (s : State) (k : Nat) (x : Link) : (s.setLink k x).crossings = s.crossings := rfl
@[simp] theorem setLink_turns (s : State) (k : Nat) (x : Link) : (s.setLink k x).turns = s.turns := rfl
@[simp] theorem setLink_parts (s : State) (k : Nat) (x : Link) : (s.setLink k x).parts = s.parts := rfl
@[simp] theorem setLink_fw (s : State) (k : Nat) (x : Link) : (s.setLink k x).fw = s.fw := rfl
@[simp] theorem setLink_mailboxes (s : State) (k : Nat) (x : Link) : (s.setLink k x).mailboxes = s.mailboxes := rfl
@[simp] theorem setLink_boxTurn (s : State) (k : Nat) (x : Link) : (s.setLink k x).boxTurn = s.boxTurn := rfl
@[simp] theorem setLink_lives (s : State) (k : Nat) (x : Link) : (s.setLink k x).lives = s.lives := rfl
@[simp] theorem setLink_jobs (s : State) (k : Nat) (x : Link) : (s.setLink k x).jobs = s.jobs := rfl
@[simp] theorem setLink_mcs (s : State) (k : Nat) (x : Link) : (s.setLink k x).mcs = s.mcs := rfl
@[simp] theorem setLink_badBlocks (s : State) (k : Nat) (x : Link) : (s.setLink k x).badBlocks = s.badBlocks := rfl
@[simp] theorem setLink_ddrGib (s : State) (k : Nat) (x : Link) : (s.setLink k x).ddrGib = s.ddrGib := rfl
@[simp] theorem setLink_cxl (s : State) (k : Nat) (x : Link) : (s.setLink k x).cxl = s.cxl := rfl
@[simp] theorem setLink_kudus (s : State) (k : Nat) (x : Link) : (s.setLink k x).kudus = s.kudus := rfl
@[simp] theorem setLink_reds (s : State) (k : Nat) (x : Link) : (s.setLink k x).reds = s.reds := rfl
@[simp] theorem setLink_coms (s : State) (k : Nat) (x : Link) : (s.setLink k x).coms = s.coms := rfl
@[simp] theorem setLink_lasers (s : State) (k : Nat) (x : Link) : (s.setLink k x).lasers = s.lasers := rfl
@[simp] theorem setLink_outbox (s : State) (k : Nat) (x : Link) : (s.setLink k x).outbox = s.outbox := rfl
@[simp] theorem setLink_quads (s : State) (k : Nat) (x : Link) : (s.setLink k x).quads = s.quads := rfl
@[simp] theorem setLink_spineStep (s : State) (k : Nat) (x : Link) : (s.setLink k x).spineStep = s.spineStep := rfl
@[simp] theorem setLink_spineSettled (s : State) (k : Nat) (x : Link) : (s.setLink k x).spineSettled = s.spineSettled := rfl
@[simp] theorem setLink_chamois (s : State) (k : Nat) (x : Link) : (s.setLink k x).chamois = s.chamois := rfl
@[simp] theorem setLink_period (s : State) (k : Nat) (x : Link) : (s.setLink k x).period = s.period := rfl
@[simp] theorem setLink_boot (s : State) (k : Nat) (x : Link) : (s.setLink k x).boot = s.boot := rfl
@[simp] theorem setLink_flash (s : State) (k : Nat) (x : Link) : (s.setLink k x).flash = s.flash := rfl
@[simp] theorem setLink_power (s : State) (k : Nat) (x : Link) : (s.setLink k x).power = s.power := rfl
@[simp] theorem setLink_hwFaulted (s : State) (k : Nat) (x : Link) : (s.setLink k x).hwFaulted = s.hwFaulted := rfl
@[simp] theorem setLink_tile (s : State) (k : Nat) (x : Link) (t' : Nat) : (s.setLink k x).tile t' = s.tile t' := rfl
@[simp] theorem setLink_part (s : State) (k : Nat) (x : Link) (p' : Nat) : (s.setLink k x).part p' = s.part p' := rfl
@[simp] theorem setLink_job (s : State) (k : Nat) (x : Link) (j' : Nat) : (s.setLink k x).job j' = s.job j' := rfl
@[simp] theorem setLink_red (s : State) (k : Nat) (x : Link) (e' : Nat) : (s.setLink k x).red e' = s.red e' := rfl
@[simp] theorem setLink_com (s : State) (k : Nat) (x : Link) (e' : Nat) : (s.setLink k x).com e' = s.com e' := rfl
@[simp] theorem setLink_mc (s : State) (k : Nat) (x : Link) (n' : Nat) : (s.setLink k x).mc n' = s.mc n' := rfl
@[simp] theorem setLink_sync (s : State) (k : Nat) (x : Link) (b' : Nat) : (s.setLink k x).sync b' = s.sync b' := rfl
@[simp] theorem setLink_msg (s : State) (k : Nat) (x : Link) (n' : Nat) : (s.setLink k x).msg n' = s.msg n' := rfl
@[simp] theorem setLink_put (s : State) (k : Nat) (x : Link) (n' : Nat) : (s.setLink k x).put n' = s.put n' := rfl
@[simp] theorem setLink_mb (s : State) (k : Nat) (x : Link) (n' : Nat) : (s.setLink k x).mb n' = s.mb n' := rfl
@[simp] theorem setLink_quad (s : State) (k : Nat) (x : Link) (n' : Nat) : (s.setLink k x).quad n' = s.quad n' := rfl
@[simp] theorem setLink_life (s : State) (k : Nat) (x : Link) (kind' idx' : Nat) : (s.setLink k x).life kind' idx' = s.life kind' idx' := rfl
@[simp] theorem setLink_ppower (s : State) (k : Nat) (x : Link) (n' : Nat) : (s.setLink k x).ppower n' = s.ppower n' := rfl

/-! `setMc` -/

@[simp] theorem setMc_pending (s : State) (u : Nat) (x : Mc) : (s.setMc u x).pending = s.pending := rfl
@[simp] theorem setMc_free (s : State) (u : Nat) (x : Mc) : (s.setMc u x).free = s.free := rfl
@[simp] theorem setMc_grade (s : State) (u : Nat) (x : Mc) : (s.setMc u x).grade = s.grade := rfl
@[simp] theorem setMc_stepMajor (s : State) (u : Nat) (x : Mc) : (s.setMc u x).stepMajor = s.stepMajor := rfl
@[simp] theorem setMc_stepMinor (s : State) (u : Nat) (x : Mc) : (s.setMc u x).stepMinor = s.stepMinor := rfl
@[simp] theorem setMc_busData (s : State) (u : Nat) (x : Mc) : (s.setMc u x).busData = s.busData := rfl
@[simp] theorem setMc_busNack (s : State) (u : Nat) (x : Mc) : (s.setMc u x).busNack = s.busNack := rfl
@[simp] theorem setMc_time (s : State) (u : Nat) (x : Mc) : (s.setMc u x).time = s.time := rfl
@[simp] theorem setMc_tiles (s : State) (u : Nat) (x : Mc) : (s.setMc u x).tiles = s.tiles := rfl
@[simp] theorem setMc_mem (s : State) (u : Nat) (x : Mc) : (s.setMc u x).mem = s.mem := rfl
@[simp] theorem setMc_eccBad (s : State) (u : Nat) (x : Mc) : (s.setMc u x).eccBad = s.eccBad := rfl
@[simp] theorem setMc_eccSoft (s : State) (u : Nat) (x : Mc) : (s.setMc u x).eccSoft = s.eccSoft := rfl
@[simp] theorem setMc_herdCe (s : State) (u : Nat) (x : Mc) : (s.setMc u x).herdCe = s.herdCe := rfl
@[simp] theorem setMc_syncs (s : State) (u : Nat) (x : Mc) : (s.setMc u x).syncs = s.syncs := rfl
@[simp] theorem setMc_nextId (s : State) (u : Nat) (x : Mc) : (s.setMc u x).nextId = s.nextId := rfl
@[simp] theorem setMc_syncMsgs (s : State) (u : Nat) (x : Mc) : (s.setMc u x).syncMsgs = s.syncMsgs := rfl
@[simp] theorem setMc_msgs (s : State) (u : Nat) (x : Mc) : (s.setMc u x).msgs = s.msgs := rfl
@[simp] theorem setMc_puts (s : State) (u : Nat) (x : Mc) : (s.setMc u x).puts = s.puts := rfl
@[simp] theorem setMc_sums (s : State) (u : Nat) (x : Mc) : (s.setMc u x).sums = s.sums := rfl
@[simp] theorem setMc_crossings (s : State) (u : Nat) (x : Mc) : (s.setMc u x).crossings = s.crossings := rfl
@[simp] theorem setMc_turns (s : State) (u : Nat) (x : Mc) : (s.setMc u x).turns = s.turns := rfl
@[simp] theorem setMc_parts (s : State) (u : Nat) (x : Mc) : (s.setMc u x).parts = s.parts := rfl
@[simp] theorem setMc_fw (s : State) (u : Nat) (x : Mc) : (s.setMc u x).fw = s.fw := rfl
@[simp] theorem setMc_mailboxes (s : State) (u : Nat) (x : Mc) : (s.setMc u x).mailboxes = s.mailboxes := rfl
@[simp] theorem setMc_boxTurn (s : State) (u : Nat) (x : Mc) : (s.setMc u x).boxTurn = s.boxTurn := rfl
@[simp] theorem setMc_lives (s : State) (u : Nat) (x : Mc) : (s.setMc u x).lives = s.lives := rfl
@[simp] theorem setMc_jobs (s : State) (u : Nat) (x : Mc) : (s.setMc u x).jobs = s.jobs := rfl
@[simp] theorem setMc_badBlocks (s : State) (u : Nat) (x : Mc) : (s.setMc u x).badBlocks = s.badBlocks := rfl
@[simp] theorem setMc_ddrGib (s : State) (u : Nat) (x : Mc) : (s.setMc u x).ddrGib = s.ddrGib := rfl
@[simp] theorem setMc_cxl (s : State) (u : Nat) (x : Mc) : (s.setMc u x).cxl = s.cxl := rfl
@[simp] theorem setMc_kudus (s : State) (u : Nat) (x : Mc) : (s.setMc u x).kudus = s.kudus := rfl
@[simp] theorem setMc_reds (s : State) (u : Nat) (x : Mc) : (s.setMc u x).reds = s.reds := rfl
@[simp] theorem setMc_coms (s : State) (u : Nat) (x : Mc) : (s.setMc u x).coms = s.coms := rfl
@[simp] theorem setMc_links (s : State) (u : Nat) (x : Mc) : (s.setMc u x).links = s.links := rfl
@[simp] theorem setMc_lasers (s : State) (u : Nat) (x : Mc) : (s.setMc u x).lasers = s.lasers := rfl
@[simp] theorem setMc_outbox (s : State) (u : Nat) (x : Mc) : (s.setMc u x).outbox = s.outbox := rfl
@[simp] theorem setMc_quads (s : State) (u : Nat) (x : Mc) : (s.setMc u x).quads = s.quads := rfl
@[simp] theorem setMc_spineStep (s : State) (u : Nat) (x : Mc) : (s.setMc u x).spineStep = s.spineStep := rfl
@[simp] theorem setMc_spineSettled (s : State) (u : Nat) (x : Mc) : (s.setMc u x).spineSettled = s.spineSettled := rfl
@[simp] theorem setMc_chamois (s : State) (u : Nat) (x : Mc) : (s.setMc u x).chamois = s.chamois := rfl
@[simp] theorem setMc_period (s : State) (u : Nat) (x : Mc) : (s.setMc u x).period = s.period := rfl
@[simp] theorem setMc_boot (s : State) (u : Nat) (x : Mc) : (s.setMc u x).boot = s.boot := rfl
@[simp] theorem setMc_flash (s : State) (u : Nat) (x : Mc) : (s.setMc u x).flash = s.flash := rfl
@[simp] theorem setMc_power (s : State) (u : Nat) (x : Mc) : (s.setMc u x).power = s.power := rfl
@[simp] theorem setMc_hwFaulted (s : State) (u : Nat) (x : Mc) : (s.setMc u x).hwFaulted = s.hwFaulted := rfl
@[simp] theorem setMc_tile (s : State) (u : Nat) (x : Mc) (t' : Nat) : (s.setMc u x).tile t' = s.tile t' := rfl
@[simp] theorem setMc_part (s : State) (u : Nat) (x : Mc) (p' : Nat) : (s.setMc u x).part p' = s.part p' := rfl
@[simp] theorem setMc_job (s : State) (u : Nat) (x : Mc) (j' : Nat) : (s.setMc u x).job j' = s.job j' := rfl
@[simp] theorem setMc_red (s : State) (u : Nat) (x : Mc) (e' : Nat) : (s.setMc u x).red e' = s.red e' := rfl
@[simp] theorem setMc_com (s : State) (u : Nat) (x : Mc) (e' : Nat) : (s.setMc u x).com e' = s.com e' := rfl
@[simp] theorem setMc_link (s : State) (u : Nat) (x : Mc) (l' : Nat) : (s.setMc u x).link l' = s.link l' := rfl
@[simp] theorem setMc_sync (s : State) (u : Nat) (x : Mc) (b' : Nat) : (s.setMc u x).sync b' = s.sync b' := rfl
@[simp] theorem setMc_msg (s : State) (u : Nat) (x : Mc) (n' : Nat) : (s.setMc u x).msg n' = s.msg n' := rfl
@[simp] theorem setMc_put (s : State) (u : Nat) (x : Mc) (n' : Nat) : (s.setMc u x).put n' = s.put n' := rfl
@[simp] theorem setMc_mb (s : State) (u : Nat) (x : Mc) (n' : Nat) : (s.setMc u x).mb n' = s.mb n' := rfl
@[simp] theorem setMc_quad (s : State) (u : Nat) (x : Mc) (n' : Nat) : (s.setMc u x).quad n' = s.quad n' := rfl
@[simp] theorem setMc_life (s : State) (u : Nat) (x : Mc) (kind' idx' : Nat) : (s.setMc u x).life kind' idx' = s.life kind' idx' := rfl
@[simp] theorem setMc_ppower (s : State) (u : Nat) (x : Mc) (n' : Nat) : (s.setMc u x).ppower n' = s.ppower n' := rfl

/-! `setSync` -/

@[simp] theorem setSync_pending (s : State) (o : Nat) (x : SyncObj) : (s.setSync o x).pending = s.pending := rfl
@[simp] theorem setSync_free (s : State) (o : Nat) (x : SyncObj) : (s.setSync o x).free = s.free := rfl
@[simp] theorem setSync_grade (s : State) (o : Nat) (x : SyncObj) : (s.setSync o x).grade = s.grade := rfl
@[simp] theorem setSync_stepMajor (s : State) (o : Nat) (x : SyncObj) : (s.setSync o x).stepMajor = s.stepMajor := rfl
@[simp] theorem setSync_stepMinor (s : State) (o : Nat) (x : SyncObj) : (s.setSync o x).stepMinor = s.stepMinor := rfl
@[simp] theorem setSync_busData (s : State) (o : Nat) (x : SyncObj) : (s.setSync o x).busData = s.busData := rfl
@[simp] theorem setSync_busNack (s : State) (o : Nat) (x : SyncObj) : (s.setSync o x).busNack = s.busNack := rfl
@[simp] theorem setSync_time (s : State) (o : Nat) (x : SyncObj) : (s.setSync o x).time = s.time := rfl
@[simp] theorem setSync_tiles (s : State) (o : Nat) (x : SyncObj) : (s.setSync o x).tiles = s.tiles := rfl
@[simp] theorem setSync_mem (s : State) (o : Nat) (x : SyncObj) : (s.setSync o x).mem = s.mem := rfl
@[simp] theorem setSync_eccBad (s : State) (o : Nat) (x : SyncObj) : (s.setSync o x).eccBad = s.eccBad := rfl
@[simp] theorem setSync_eccSoft (s : State) (o : Nat) (x : SyncObj) : (s.setSync o x).eccSoft = s.eccSoft := rfl
@[simp] theorem setSync_herdCe (s : State) (o : Nat) (x : SyncObj) : (s.setSync o x).herdCe = s.herdCe := rfl
@[simp] theorem setSync_nextId (s : State) (o : Nat) (x : SyncObj) : (s.setSync o x).nextId = s.nextId := rfl
@[simp] theorem setSync_syncMsgs (s : State) (o : Nat) (x : SyncObj) : (s.setSync o x).syncMsgs = s.syncMsgs := rfl
@[simp] theorem setSync_msgs (s : State) (o : Nat) (x : SyncObj) : (s.setSync o x).msgs = s.msgs := rfl
@[simp] theorem setSync_puts (s : State) (o : Nat) (x : SyncObj) : (s.setSync o x).puts = s.puts := rfl
@[simp] theorem setSync_sums (s : State) (o : Nat) (x : SyncObj) : (s.setSync o x).sums = s.sums := rfl
@[simp] theorem setSync_crossings (s : State) (o : Nat) (x : SyncObj) : (s.setSync o x).crossings = s.crossings := rfl
@[simp] theorem setSync_turns (s : State) (o : Nat) (x : SyncObj) : (s.setSync o x).turns = s.turns := rfl
@[simp] theorem setSync_parts (s : State) (o : Nat) (x : SyncObj) : (s.setSync o x).parts = s.parts := rfl
@[simp] theorem setSync_fw (s : State) (o : Nat) (x : SyncObj) : (s.setSync o x).fw = s.fw := rfl
@[simp] theorem setSync_mailboxes (s : State) (o : Nat) (x : SyncObj) : (s.setSync o x).mailboxes = s.mailboxes := rfl
@[simp] theorem setSync_boxTurn (s : State) (o : Nat) (x : SyncObj) : (s.setSync o x).boxTurn = s.boxTurn := rfl
@[simp] theorem setSync_lives (s : State) (o : Nat) (x : SyncObj) : (s.setSync o x).lives = s.lives := rfl
@[simp] theorem setSync_jobs (s : State) (o : Nat) (x : SyncObj) : (s.setSync o x).jobs = s.jobs := rfl
@[simp] theorem setSync_mcs (s : State) (o : Nat) (x : SyncObj) : (s.setSync o x).mcs = s.mcs := rfl
@[simp] theorem setSync_badBlocks (s : State) (o : Nat) (x : SyncObj) : (s.setSync o x).badBlocks = s.badBlocks := rfl
@[simp] theorem setSync_ddrGib (s : State) (o : Nat) (x : SyncObj) : (s.setSync o x).ddrGib = s.ddrGib := rfl
@[simp] theorem setSync_cxl (s : State) (o : Nat) (x : SyncObj) : (s.setSync o x).cxl = s.cxl := rfl
@[simp] theorem setSync_kudus (s : State) (o : Nat) (x : SyncObj) : (s.setSync o x).kudus = s.kudus := rfl
@[simp] theorem setSync_reds (s : State) (o : Nat) (x : SyncObj) : (s.setSync o x).reds = s.reds := rfl
@[simp] theorem setSync_coms (s : State) (o : Nat) (x : SyncObj) : (s.setSync o x).coms = s.coms := rfl
@[simp] theorem setSync_links (s : State) (o : Nat) (x : SyncObj) : (s.setSync o x).links = s.links := rfl
@[simp] theorem setSync_lasers (s : State) (o : Nat) (x : SyncObj) : (s.setSync o x).lasers = s.lasers := rfl
@[simp] theorem setSync_outbox (s : State) (o : Nat) (x : SyncObj) : (s.setSync o x).outbox = s.outbox := rfl
@[simp] theorem setSync_quads (s : State) (o : Nat) (x : SyncObj) : (s.setSync o x).quads = s.quads := rfl
@[simp] theorem setSync_spineStep (s : State) (o : Nat) (x : SyncObj) : (s.setSync o x).spineStep = s.spineStep := rfl
@[simp] theorem setSync_spineSettled (s : State) (o : Nat) (x : SyncObj) : (s.setSync o x).spineSettled = s.spineSettled := rfl
@[simp] theorem setSync_chamois (s : State) (o : Nat) (x : SyncObj) : (s.setSync o x).chamois = s.chamois := rfl
@[simp] theorem setSync_period (s : State) (o : Nat) (x : SyncObj) : (s.setSync o x).period = s.period := rfl
@[simp] theorem setSync_boot (s : State) (o : Nat) (x : SyncObj) : (s.setSync o x).boot = s.boot := rfl
@[simp] theorem setSync_flash (s : State) (o : Nat) (x : SyncObj) : (s.setSync o x).flash = s.flash := rfl
@[simp] theorem setSync_power (s : State) (o : Nat) (x : SyncObj) : (s.setSync o x).power = s.power := rfl
@[simp] theorem setSync_hwFaulted (s : State) (o : Nat) (x : SyncObj) : (s.setSync o x).hwFaulted = s.hwFaulted := rfl
@[simp] theorem setSync_tile (s : State) (o : Nat) (x : SyncObj) (t' : Nat) : (s.setSync o x).tile t' = s.tile t' := rfl
@[simp] theorem setSync_part (s : State) (o : Nat) (x : SyncObj) (p' : Nat) : (s.setSync o x).part p' = s.part p' := rfl
@[simp] theorem setSync_job (s : State) (o : Nat) (x : SyncObj) (j' : Nat) : (s.setSync o x).job j' = s.job j' := rfl
@[simp] theorem setSync_red (s : State) (o : Nat) (x : SyncObj) (e' : Nat) : (s.setSync o x).red e' = s.red e' := rfl
@[simp] theorem setSync_com (s : State) (o : Nat) (x : SyncObj) (e' : Nat) : (s.setSync o x).com e' = s.com e' := rfl
@[simp] theorem setSync_link (s : State) (o : Nat) (x : SyncObj) (l' : Nat) : (s.setSync o x).link l' = s.link l' := rfl
@[simp] theorem setSync_mc (s : State) (o : Nat) (x : SyncObj) (n' : Nat) : (s.setSync o x).mc n' = s.mc n' := rfl
@[simp] theorem setSync_msg (s : State) (o : Nat) (x : SyncObj) (n' : Nat) : (s.setSync o x).msg n' = s.msg n' := rfl
@[simp] theorem setSync_put (s : State) (o : Nat) (x : SyncObj) (n' : Nat) : (s.setSync o x).put n' = s.put n' := rfl
@[simp] theorem setSync_mb (s : State) (o : Nat) (x : SyncObj) (n' : Nat) : (s.setSync o x).mb n' = s.mb n' := rfl
@[simp] theorem setSync_quad (s : State) (o : Nat) (x : SyncObj) (n' : Nat) : (s.setSync o x).quad n' = s.quad n' := rfl
@[simp] theorem setSync_life (s : State) (o : Nat) (x : SyncObj) (kind' idx' : Nat) : (s.setSync o x).life kind' idx' = s.life kind' idx' := rfl
@[simp] theorem setSync_ppower (s : State) (o : Nat) (x : SyncObj) (n' : Nat) : (s.setSync o x).ppower n' = s.ppower n' := rfl

/-! `setMsg` -/

@[simp] theorem setMsg_pending (s : State) (i : Nat) (x : Msg) : (s.setMsg i x).pending = s.pending := rfl
@[simp] theorem setMsg_free (s : State) (i : Nat) (x : Msg) : (s.setMsg i x).free = s.free := rfl
@[simp] theorem setMsg_grade (s : State) (i : Nat) (x : Msg) : (s.setMsg i x).grade = s.grade := rfl
@[simp] theorem setMsg_stepMajor (s : State) (i : Nat) (x : Msg) : (s.setMsg i x).stepMajor = s.stepMajor := rfl
@[simp] theorem setMsg_stepMinor (s : State) (i : Nat) (x : Msg) : (s.setMsg i x).stepMinor = s.stepMinor := rfl
@[simp] theorem setMsg_busData (s : State) (i : Nat) (x : Msg) : (s.setMsg i x).busData = s.busData := rfl
@[simp] theorem setMsg_busNack (s : State) (i : Nat) (x : Msg) : (s.setMsg i x).busNack = s.busNack := rfl
@[simp] theorem setMsg_time (s : State) (i : Nat) (x : Msg) : (s.setMsg i x).time = s.time := rfl
@[simp] theorem setMsg_tiles (s : State) (i : Nat) (x : Msg) : (s.setMsg i x).tiles = s.tiles := rfl
@[simp] theorem setMsg_mem (s : State) (i : Nat) (x : Msg) : (s.setMsg i x).mem = s.mem := rfl
@[simp] theorem setMsg_eccBad (s : State) (i : Nat) (x : Msg) : (s.setMsg i x).eccBad = s.eccBad := rfl
@[simp] theorem setMsg_eccSoft (s : State) (i : Nat) (x : Msg) : (s.setMsg i x).eccSoft = s.eccSoft := rfl
@[simp] theorem setMsg_herdCe (s : State) (i : Nat) (x : Msg) : (s.setMsg i x).herdCe = s.herdCe := rfl
@[simp] theorem setMsg_syncs (s : State) (i : Nat) (x : Msg) : (s.setMsg i x).syncs = s.syncs := rfl
@[simp] theorem setMsg_nextId (s : State) (i : Nat) (x : Msg) : (s.setMsg i x).nextId = s.nextId := rfl
@[simp] theorem setMsg_syncMsgs (s : State) (i : Nat) (x : Msg) : (s.setMsg i x).syncMsgs = s.syncMsgs := rfl
@[simp] theorem setMsg_puts (s : State) (i : Nat) (x : Msg) : (s.setMsg i x).puts = s.puts := rfl
@[simp] theorem setMsg_sums (s : State) (i : Nat) (x : Msg) : (s.setMsg i x).sums = s.sums := rfl
@[simp] theorem setMsg_crossings (s : State) (i : Nat) (x : Msg) : (s.setMsg i x).crossings = s.crossings := rfl
@[simp] theorem setMsg_turns (s : State) (i : Nat) (x : Msg) : (s.setMsg i x).turns = s.turns := rfl
@[simp] theorem setMsg_parts (s : State) (i : Nat) (x : Msg) : (s.setMsg i x).parts = s.parts := rfl
@[simp] theorem setMsg_fw (s : State) (i : Nat) (x : Msg) : (s.setMsg i x).fw = s.fw := rfl
@[simp] theorem setMsg_mailboxes (s : State) (i : Nat) (x : Msg) : (s.setMsg i x).mailboxes = s.mailboxes := rfl
@[simp] theorem setMsg_boxTurn (s : State) (i : Nat) (x : Msg) : (s.setMsg i x).boxTurn = s.boxTurn := rfl
@[simp] theorem setMsg_lives (s : State) (i : Nat) (x : Msg) : (s.setMsg i x).lives = s.lives := rfl
@[simp] theorem setMsg_jobs (s : State) (i : Nat) (x : Msg) : (s.setMsg i x).jobs = s.jobs := rfl
@[simp] theorem setMsg_mcs (s : State) (i : Nat) (x : Msg) : (s.setMsg i x).mcs = s.mcs := rfl
@[simp] theorem setMsg_badBlocks (s : State) (i : Nat) (x : Msg) : (s.setMsg i x).badBlocks = s.badBlocks := rfl
@[simp] theorem setMsg_ddrGib (s : State) (i : Nat) (x : Msg) : (s.setMsg i x).ddrGib = s.ddrGib := rfl
@[simp] theorem setMsg_cxl (s : State) (i : Nat) (x : Msg) : (s.setMsg i x).cxl = s.cxl := rfl
@[simp] theorem setMsg_kudus (s : State) (i : Nat) (x : Msg) : (s.setMsg i x).kudus = s.kudus := rfl
@[simp] theorem setMsg_reds (s : State) (i : Nat) (x : Msg) : (s.setMsg i x).reds = s.reds := rfl
@[simp] theorem setMsg_coms (s : State) (i : Nat) (x : Msg) : (s.setMsg i x).coms = s.coms := rfl
@[simp] theorem setMsg_links (s : State) (i : Nat) (x : Msg) : (s.setMsg i x).links = s.links := rfl
@[simp] theorem setMsg_lasers (s : State) (i : Nat) (x : Msg) : (s.setMsg i x).lasers = s.lasers := rfl
@[simp] theorem setMsg_outbox (s : State) (i : Nat) (x : Msg) : (s.setMsg i x).outbox = s.outbox := rfl
@[simp] theorem setMsg_quads (s : State) (i : Nat) (x : Msg) : (s.setMsg i x).quads = s.quads := rfl
@[simp] theorem setMsg_spineStep (s : State) (i : Nat) (x : Msg) : (s.setMsg i x).spineStep = s.spineStep := rfl
@[simp] theorem setMsg_spineSettled (s : State) (i : Nat) (x : Msg) : (s.setMsg i x).spineSettled = s.spineSettled := rfl
@[simp] theorem setMsg_chamois (s : State) (i : Nat) (x : Msg) : (s.setMsg i x).chamois = s.chamois := rfl
@[simp] theorem setMsg_period (s : State) (i : Nat) (x : Msg) : (s.setMsg i x).period = s.period := rfl
@[simp] theorem setMsg_boot (s : State) (i : Nat) (x : Msg) : (s.setMsg i x).boot = s.boot := rfl
@[simp] theorem setMsg_flash (s : State) (i : Nat) (x : Msg) : (s.setMsg i x).flash = s.flash := rfl
@[simp] theorem setMsg_power (s : State) (i : Nat) (x : Msg) : (s.setMsg i x).power = s.power := rfl
@[simp] theorem setMsg_hwFaulted (s : State) (i : Nat) (x : Msg) : (s.setMsg i x).hwFaulted = s.hwFaulted := rfl
@[simp] theorem setMsg_tile (s : State) (i : Nat) (x : Msg) (t' : Nat) : (s.setMsg i x).tile t' = s.tile t' := rfl
@[simp] theorem setMsg_part (s : State) (i : Nat) (x : Msg) (p' : Nat) : (s.setMsg i x).part p' = s.part p' := rfl
@[simp] theorem setMsg_job (s : State) (i : Nat) (x : Msg) (j' : Nat) : (s.setMsg i x).job j' = s.job j' := rfl
@[simp] theorem setMsg_red (s : State) (i : Nat) (x : Msg) (e' : Nat) : (s.setMsg i x).red e' = s.red e' := rfl
@[simp] theorem setMsg_com (s : State) (i : Nat) (x : Msg) (e' : Nat) : (s.setMsg i x).com e' = s.com e' := rfl
@[simp] theorem setMsg_link (s : State) (i : Nat) (x : Msg) (l' : Nat) : (s.setMsg i x).link l' = s.link l' := rfl
@[simp] theorem setMsg_mc (s : State) (i : Nat) (x : Msg) (n' : Nat) : (s.setMsg i x).mc n' = s.mc n' := rfl
@[simp] theorem setMsg_sync (s : State) (i : Nat) (x : Msg) (b' : Nat) : (s.setMsg i x).sync b' = s.sync b' := rfl
@[simp] theorem setMsg_put (s : State) (i : Nat) (x : Msg) (n' : Nat) : (s.setMsg i x).put n' = s.put n' := rfl
@[simp] theorem setMsg_mb (s : State) (i : Nat) (x : Msg) (n' : Nat) : (s.setMsg i x).mb n' = s.mb n' := rfl
@[simp] theorem setMsg_quad (s : State) (i : Nat) (x : Msg) (n' : Nat) : (s.setMsg i x).quad n' = s.quad n' := rfl
@[simp] theorem setMsg_life (s : State) (i : Nat) (x : Msg) (kind' idx' : Nat) : (s.setMsg i x).life kind' idx' = s.life kind' idx' := rfl
@[simp] theorem setMsg_ppower (s : State) (i : Nat) (x : Msg) (n' : Nat) : (s.setMsg i x).ppower n' = s.ppower n' := rfl

/-! `setPut` -/

@[simp] theorem setPut_pending (s : State) (i : Nat) (x : RemoteWrite) : (s.setPut i x).pending = s.pending := rfl
@[simp] theorem setPut_free (s : State) (i : Nat) (x : RemoteWrite) : (s.setPut i x).free = s.free := rfl
@[simp] theorem setPut_grade (s : State) (i : Nat) (x : RemoteWrite) : (s.setPut i x).grade = s.grade := rfl
@[simp] theorem setPut_stepMajor (s : State) (i : Nat) (x : RemoteWrite) : (s.setPut i x).stepMajor = s.stepMajor := rfl
@[simp] theorem setPut_stepMinor (s : State) (i : Nat) (x : RemoteWrite) : (s.setPut i x).stepMinor = s.stepMinor := rfl
@[simp] theorem setPut_busData (s : State) (i : Nat) (x : RemoteWrite) : (s.setPut i x).busData = s.busData := rfl
@[simp] theorem setPut_busNack (s : State) (i : Nat) (x : RemoteWrite) : (s.setPut i x).busNack = s.busNack := rfl
@[simp] theorem setPut_time (s : State) (i : Nat) (x : RemoteWrite) : (s.setPut i x).time = s.time := rfl
@[simp] theorem setPut_tiles (s : State) (i : Nat) (x : RemoteWrite) : (s.setPut i x).tiles = s.tiles := rfl
@[simp] theorem setPut_mem (s : State) (i : Nat) (x : RemoteWrite) : (s.setPut i x).mem = s.mem := rfl
@[simp] theorem setPut_eccBad (s : State) (i : Nat) (x : RemoteWrite) : (s.setPut i x).eccBad = s.eccBad := rfl
@[simp] theorem setPut_eccSoft (s : State) (i : Nat) (x : RemoteWrite) : (s.setPut i x).eccSoft = s.eccSoft := rfl
@[simp] theorem setPut_herdCe (s : State) (i : Nat) (x : RemoteWrite) : (s.setPut i x).herdCe = s.herdCe := rfl
@[simp] theorem setPut_syncs (s : State) (i : Nat) (x : RemoteWrite) : (s.setPut i x).syncs = s.syncs := rfl
@[simp] theorem setPut_nextId (s : State) (i : Nat) (x : RemoteWrite) : (s.setPut i x).nextId = s.nextId := rfl
@[simp] theorem setPut_syncMsgs (s : State) (i : Nat) (x : RemoteWrite) : (s.setPut i x).syncMsgs = s.syncMsgs := rfl
@[simp] theorem setPut_msgs (s : State) (i : Nat) (x : RemoteWrite) : (s.setPut i x).msgs = s.msgs := rfl
@[simp] theorem setPut_sums (s : State) (i : Nat) (x : RemoteWrite) : (s.setPut i x).sums = s.sums := rfl
@[simp] theorem setPut_crossings (s : State) (i : Nat) (x : RemoteWrite) : (s.setPut i x).crossings = s.crossings := rfl
@[simp] theorem setPut_turns (s : State) (i : Nat) (x : RemoteWrite) : (s.setPut i x).turns = s.turns := rfl
@[simp] theorem setPut_parts (s : State) (i : Nat) (x : RemoteWrite) : (s.setPut i x).parts = s.parts := rfl
@[simp] theorem setPut_fw (s : State) (i : Nat) (x : RemoteWrite) : (s.setPut i x).fw = s.fw := rfl
@[simp] theorem setPut_mailboxes (s : State) (i : Nat) (x : RemoteWrite) : (s.setPut i x).mailboxes = s.mailboxes := rfl
@[simp] theorem setPut_boxTurn (s : State) (i : Nat) (x : RemoteWrite) : (s.setPut i x).boxTurn = s.boxTurn := rfl
@[simp] theorem setPut_lives (s : State) (i : Nat) (x : RemoteWrite) : (s.setPut i x).lives = s.lives := rfl
@[simp] theorem setPut_jobs (s : State) (i : Nat) (x : RemoteWrite) : (s.setPut i x).jobs = s.jobs := rfl
@[simp] theorem setPut_mcs (s : State) (i : Nat) (x : RemoteWrite) : (s.setPut i x).mcs = s.mcs := rfl
@[simp] theorem setPut_badBlocks (s : State) (i : Nat) (x : RemoteWrite) : (s.setPut i x).badBlocks = s.badBlocks := rfl
@[simp] theorem setPut_ddrGib (s : State) (i : Nat) (x : RemoteWrite) : (s.setPut i x).ddrGib = s.ddrGib := rfl
@[simp] theorem setPut_cxl (s : State) (i : Nat) (x : RemoteWrite) : (s.setPut i x).cxl = s.cxl := rfl
@[simp] theorem setPut_kudus (s : State) (i : Nat) (x : RemoteWrite) : (s.setPut i x).kudus = s.kudus := rfl
@[simp] theorem setPut_reds (s : State) (i : Nat) (x : RemoteWrite) : (s.setPut i x).reds = s.reds := rfl
@[simp] theorem setPut_coms (s : State) (i : Nat) (x : RemoteWrite) : (s.setPut i x).coms = s.coms := rfl
@[simp] theorem setPut_links (s : State) (i : Nat) (x : RemoteWrite) : (s.setPut i x).links = s.links := rfl
@[simp] theorem setPut_lasers (s : State) (i : Nat) (x : RemoteWrite) : (s.setPut i x).lasers = s.lasers := rfl
@[simp] theorem setPut_outbox (s : State) (i : Nat) (x : RemoteWrite) : (s.setPut i x).outbox = s.outbox := rfl
@[simp] theorem setPut_quads (s : State) (i : Nat) (x : RemoteWrite) : (s.setPut i x).quads = s.quads := rfl
@[simp] theorem setPut_spineStep (s : State) (i : Nat) (x : RemoteWrite) : (s.setPut i x).spineStep = s.spineStep := rfl
@[simp] theorem setPut_spineSettled (s : State) (i : Nat) (x : RemoteWrite) : (s.setPut i x).spineSettled = s.spineSettled := rfl
@[simp] theorem setPut_chamois (s : State) (i : Nat) (x : RemoteWrite) : (s.setPut i x).chamois = s.chamois := rfl
@[simp] theorem setPut_period (s : State) (i : Nat) (x : RemoteWrite) : (s.setPut i x).period = s.period := rfl
@[simp] theorem setPut_boot (s : State) (i : Nat) (x : RemoteWrite) : (s.setPut i x).boot = s.boot := rfl
@[simp] theorem setPut_flash (s : State) (i : Nat) (x : RemoteWrite) : (s.setPut i x).flash = s.flash := rfl
@[simp] theorem setPut_power (s : State) (i : Nat) (x : RemoteWrite) : (s.setPut i x).power = s.power := rfl
@[simp] theorem setPut_hwFaulted (s : State) (i : Nat) (x : RemoteWrite) : (s.setPut i x).hwFaulted = s.hwFaulted := rfl
@[simp] theorem setPut_tile (s : State) (i : Nat) (x : RemoteWrite) (t' : Nat) : (s.setPut i x).tile t' = s.tile t' := rfl
@[simp] theorem setPut_part (s : State) (i : Nat) (x : RemoteWrite) (p' : Nat) : (s.setPut i x).part p' = s.part p' := rfl
@[simp] theorem setPut_job (s : State) (i : Nat) (x : RemoteWrite) (j' : Nat) : (s.setPut i x).job j' = s.job j' := rfl
@[simp] theorem setPut_red (s : State) (i : Nat) (x : RemoteWrite) (e' : Nat) : (s.setPut i x).red e' = s.red e' := rfl
@[simp] theorem setPut_com (s : State) (i : Nat) (x : RemoteWrite) (e' : Nat) : (s.setPut i x).com e' = s.com e' := rfl
@[simp] theorem setPut_link (s : State) (i : Nat) (x : RemoteWrite) (l' : Nat) : (s.setPut i x).link l' = s.link l' := rfl
@[simp] theorem setPut_mc (s : State) (i : Nat) (x : RemoteWrite) (n' : Nat) : (s.setPut i x).mc n' = s.mc n' := rfl
@[simp] theorem setPut_sync (s : State) (i : Nat) (x : RemoteWrite) (b' : Nat) : (s.setPut i x).sync b' = s.sync b' := rfl
@[simp] theorem setPut_msg (s : State) (i : Nat) (x : RemoteWrite) (n' : Nat) : (s.setPut i x).msg n' = s.msg n' := rfl
@[simp] theorem setPut_mb (s : State) (i : Nat) (x : RemoteWrite) (n' : Nat) : (s.setPut i x).mb n' = s.mb n' := rfl
@[simp] theorem setPut_quad (s : State) (i : Nat) (x : RemoteWrite) (n' : Nat) : (s.setPut i x).quad n' = s.quad n' := rfl
@[simp] theorem setPut_life (s : State) (i : Nat) (x : RemoteWrite) (kind' idx' : Nat) : (s.setPut i x).life kind' idx' = s.life kind' idx' := rfl
@[simp] theorem setPut_ppower (s : State) (i : Nat) (x : RemoteWrite) (n' : Nat) : (s.setPut i x).ppower n' = s.ppower n' := rfl

/-! `setMb` -/

@[simp] theorem setMb_pending (s : State) (m : Nat) (x : Mailbox) : (s.setMb m x).pending = s.pending := rfl
@[simp] theorem setMb_free (s : State) (m : Nat) (x : Mailbox) : (s.setMb m x).free = s.free := rfl
@[simp] theorem setMb_grade (s : State) (m : Nat) (x : Mailbox) : (s.setMb m x).grade = s.grade := rfl
@[simp] theorem setMb_stepMajor (s : State) (m : Nat) (x : Mailbox) : (s.setMb m x).stepMajor = s.stepMajor := rfl
@[simp] theorem setMb_stepMinor (s : State) (m : Nat) (x : Mailbox) : (s.setMb m x).stepMinor = s.stepMinor := rfl
@[simp] theorem setMb_busData (s : State) (m : Nat) (x : Mailbox) : (s.setMb m x).busData = s.busData := rfl
@[simp] theorem setMb_busNack (s : State) (m : Nat) (x : Mailbox) : (s.setMb m x).busNack = s.busNack := rfl
@[simp] theorem setMb_time (s : State) (m : Nat) (x : Mailbox) : (s.setMb m x).time = s.time := rfl
@[simp] theorem setMb_tiles (s : State) (m : Nat) (x : Mailbox) : (s.setMb m x).tiles = s.tiles := rfl
@[simp] theorem setMb_mem (s : State) (m : Nat) (x : Mailbox) : (s.setMb m x).mem = s.mem := rfl
@[simp] theorem setMb_eccBad (s : State) (m : Nat) (x : Mailbox) : (s.setMb m x).eccBad = s.eccBad := rfl
@[simp] theorem setMb_eccSoft (s : State) (m : Nat) (x : Mailbox) : (s.setMb m x).eccSoft = s.eccSoft := rfl
@[simp] theorem setMb_herdCe (s : State) (m : Nat) (x : Mailbox) : (s.setMb m x).herdCe = s.herdCe := rfl
@[simp] theorem setMb_syncs (s : State) (m : Nat) (x : Mailbox) : (s.setMb m x).syncs = s.syncs := rfl
@[simp] theorem setMb_nextId (s : State) (m : Nat) (x : Mailbox) : (s.setMb m x).nextId = s.nextId := rfl
@[simp] theorem setMb_syncMsgs (s : State) (m : Nat) (x : Mailbox) : (s.setMb m x).syncMsgs = s.syncMsgs := rfl
@[simp] theorem setMb_msgs (s : State) (m : Nat) (x : Mailbox) : (s.setMb m x).msgs = s.msgs := rfl
@[simp] theorem setMb_puts (s : State) (m : Nat) (x : Mailbox) : (s.setMb m x).puts = s.puts := rfl
@[simp] theorem setMb_sums (s : State) (m : Nat) (x : Mailbox) : (s.setMb m x).sums = s.sums := rfl
@[simp] theorem setMb_crossings (s : State) (m : Nat) (x : Mailbox) : (s.setMb m x).crossings = s.crossings := rfl
@[simp] theorem setMb_turns (s : State) (m : Nat) (x : Mailbox) : (s.setMb m x).turns = s.turns := rfl
@[simp] theorem setMb_parts (s : State) (m : Nat) (x : Mailbox) : (s.setMb m x).parts = s.parts := rfl
@[simp] theorem setMb_fw (s : State) (m : Nat) (x : Mailbox) : (s.setMb m x).fw = s.fw := rfl
@[simp] theorem setMb_boxTurn (s : State) (m : Nat) (x : Mailbox) : (s.setMb m x).boxTurn = s.boxTurn := rfl
@[simp] theorem setMb_lives (s : State) (m : Nat) (x : Mailbox) : (s.setMb m x).lives = s.lives := rfl
@[simp] theorem setMb_jobs (s : State) (m : Nat) (x : Mailbox) : (s.setMb m x).jobs = s.jobs := rfl
@[simp] theorem setMb_mcs (s : State) (m : Nat) (x : Mailbox) : (s.setMb m x).mcs = s.mcs := rfl
@[simp] theorem setMb_badBlocks (s : State) (m : Nat) (x : Mailbox) : (s.setMb m x).badBlocks = s.badBlocks := rfl
@[simp] theorem setMb_ddrGib (s : State) (m : Nat) (x : Mailbox) : (s.setMb m x).ddrGib = s.ddrGib := rfl
@[simp] theorem setMb_cxl (s : State) (m : Nat) (x : Mailbox) : (s.setMb m x).cxl = s.cxl := rfl
@[simp] theorem setMb_kudus (s : State) (m : Nat) (x : Mailbox) : (s.setMb m x).kudus = s.kudus := rfl
@[simp] theorem setMb_reds (s : State) (m : Nat) (x : Mailbox) : (s.setMb m x).reds = s.reds := rfl
@[simp] theorem setMb_coms (s : State) (m : Nat) (x : Mailbox) : (s.setMb m x).coms = s.coms := rfl
@[simp] theorem setMb_links (s : State) (m : Nat) (x : Mailbox) : (s.setMb m x).links = s.links := rfl
@[simp] theorem setMb_lasers (s : State) (m : Nat) (x : Mailbox) : (s.setMb m x).lasers = s.lasers := rfl
@[simp] theorem setMb_outbox (s : State) (m : Nat) (x : Mailbox) : (s.setMb m x).outbox = s.outbox := rfl
@[simp] theorem setMb_quads (s : State) (m : Nat) (x : Mailbox) : (s.setMb m x).quads = s.quads := rfl
@[simp] theorem setMb_spineStep (s : State) (m : Nat) (x : Mailbox) : (s.setMb m x).spineStep = s.spineStep := rfl
@[simp] theorem setMb_spineSettled (s : State) (m : Nat) (x : Mailbox) : (s.setMb m x).spineSettled = s.spineSettled := rfl
@[simp] theorem setMb_chamois (s : State) (m : Nat) (x : Mailbox) : (s.setMb m x).chamois = s.chamois := rfl
@[simp] theorem setMb_period (s : State) (m : Nat) (x : Mailbox) : (s.setMb m x).period = s.period := rfl
@[simp] theorem setMb_boot (s : State) (m : Nat) (x : Mailbox) : (s.setMb m x).boot = s.boot := rfl
@[simp] theorem setMb_flash (s : State) (m : Nat) (x : Mailbox) : (s.setMb m x).flash = s.flash := rfl
@[simp] theorem setMb_power (s : State) (m : Nat) (x : Mailbox) : (s.setMb m x).power = s.power := rfl
@[simp] theorem setMb_hwFaulted (s : State) (m : Nat) (x : Mailbox) : (s.setMb m x).hwFaulted = s.hwFaulted := rfl
@[simp] theorem setMb_tile (s : State) (m : Nat) (x : Mailbox) (t' : Nat) : (s.setMb m x).tile t' = s.tile t' := rfl
@[simp] theorem setMb_part (s : State) (m : Nat) (x : Mailbox) (p' : Nat) : (s.setMb m x).part p' = s.part p' := rfl
@[simp] theorem setMb_job (s : State) (m : Nat) (x : Mailbox) (j' : Nat) : (s.setMb m x).job j' = s.job j' := rfl
@[simp] theorem setMb_red (s : State) (m : Nat) (x : Mailbox) (e' : Nat) : (s.setMb m x).red e' = s.red e' := rfl
@[simp] theorem setMb_com (s : State) (m : Nat) (x : Mailbox) (e' : Nat) : (s.setMb m x).com e' = s.com e' := rfl
@[simp] theorem setMb_link (s : State) (m : Nat) (x : Mailbox) (l' : Nat) : (s.setMb m x).link l' = s.link l' := rfl
@[simp] theorem setMb_mc (s : State) (m : Nat) (x : Mailbox) (n' : Nat) : (s.setMb m x).mc n' = s.mc n' := rfl
@[simp] theorem setMb_sync (s : State) (m : Nat) (x : Mailbox) (b' : Nat) : (s.setMb m x).sync b' = s.sync b' := rfl
@[simp] theorem setMb_msg (s : State) (m : Nat) (x : Mailbox) (n' : Nat) : (s.setMb m x).msg n' = s.msg n' := rfl
@[simp] theorem setMb_put (s : State) (m : Nat) (x : Mailbox) (n' : Nat) : (s.setMb m x).put n' = s.put n' := rfl
@[simp] theorem setMb_quad (s : State) (m : Nat) (x : Mailbox) (n' : Nat) : (s.setMb m x).quad n' = s.quad n' := rfl
@[simp] theorem setMb_life (s : State) (m : Nat) (x : Mailbox) (kind' idx' : Nat) : (s.setMb m x).life kind' idx' = s.life kind' idx' := rfl
@[simp] theorem setMb_ppower (s : State) (m : Nat) (x : Mailbox) (n' : Nat) : (s.setMb m x).ppower n' = s.ppower n' := rfl

/-! `updLife` -/

@[simp] theorem updLife_pending (s : State) (k i : Nat) (f : Life → Life) : (s.updLife k i f).pending = s.pending := rfl
@[simp] theorem updLife_free (s : State) (k i : Nat) (f : Life → Life) : (s.updLife k i f).free = s.free := rfl
@[simp] theorem updLife_grade (s : State) (k i : Nat) (f : Life → Life) : (s.updLife k i f).grade = s.grade := rfl
@[simp] theorem updLife_stepMajor (s : State) (k i : Nat) (f : Life → Life) : (s.updLife k i f).stepMajor = s.stepMajor := rfl
@[simp] theorem updLife_stepMinor (s : State) (k i : Nat) (f : Life → Life) : (s.updLife k i f).stepMinor = s.stepMinor := rfl
@[simp] theorem updLife_busData (s : State) (k i : Nat) (f : Life → Life) : (s.updLife k i f).busData = s.busData := rfl
@[simp] theorem updLife_busNack (s : State) (k i : Nat) (f : Life → Life) : (s.updLife k i f).busNack = s.busNack := rfl
@[simp] theorem updLife_time (s : State) (k i : Nat) (f : Life → Life) : (s.updLife k i f).time = s.time := rfl
@[simp] theorem updLife_tiles (s : State) (k i : Nat) (f : Life → Life) : (s.updLife k i f).tiles = s.tiles := rfl
@[simp] theorem updLife_mem (s : State) (k i : Nat) (f : Life → Life) : (s.updLife k i f).mem = s.mem := rfl
@[simp] theorem updLife_eccBad (s : State) (k i : Nat) (f : Life → Life) : (s.updLife k i f).eccBad = s.eccBad := rfl
@[simp] theorem updLife_eccSoft (s : State) (k i : Nat) (f : Life → Life) : (s.updLife k i f).eccSoft = s.eccSoft := rfl
@[simp] theorem updLife_herdCe (s : State) (k i : Nat) (f : Life → Life) : (s.updLife k i f).herdCe = s.herdCe := rfl
@[simp] theorem updLife_syncs (s : State) (k i : Nat) (f : Life → Life) : (s.updLife k i f).syncs = s.syncs := rfl
@[simp] theorem updLife_nextId (s : State) (k i : Nat) (f : Life → Life) : (s.updLife k i f).nextId = s.nextId := rfl
@[simp] theorem updLife_syncMsgs (s : State) (k i : Nat) (f : Life → Life) : (s.updLife k i f).syncMsgs = s.syncMsgs := rfl
@[simp] theorem updLife_msgs (s : State) (k i : Nat) (f : Life → Life) : (s.updLife k i f).msgs = s.msgs := rfl
@[simp] theorem updLife_puts (s : State) (k i : Nat) (f : Life → Life) : (s.updLife k i f).puts = s.puts := rfl
@[simp] theorem updLife_sums (s : State) (k i : Nat) (f : Life → Life) : (s.updLife k i f).sums = s.sums := rfl
@[simp] theorem updLife_crossings (s : State) (k i : Nat) (f : Life → Life) : (s.updLife k i f).crossings = s.crossings := rfl
@[simp] theorem updLife_turns (s : State) (k i : Nat) (f : Life → Life) : (s.updLife k i f).turns = s.turns := rfl
@[simp] theorem updLife_parts (s : State) (k i : Nat) (f : Life → Life) : (s.updLife k i f).parts = s.parts := rfl
@[simp] theorem updLife_fw (s : State) (k i : Nat) (f : Life → Life) : (s.updLife k i f).fw = s.fw := rfl
@[simp] theorem updLife_mailboxes (s : State) (k i : Nat) (f : Life → Life) : (s.updLife k i f).mailboxes = s.mailboxes := rfl
@[simp] theorem updLife_boxTurn (s : State) (k i : Nat) (f : Life → Life) : (s.updLife k i f).boxTurn = s.boxTurn := rfl
@[simp] theorem updLife_jobs (s : State) (k i : Nat) (f : Life → Life) : (s.updLife k i f).jobs = s.jobs := rfl
@[simp] theorem updLife_mcs (s : State) (k i : Nat) (f : Life → Life) : (s.updLife k i f).mcs = s.mcs := rfl
@[simp] theorem updLife_badBlocks (s : State) (k i : Nat) (f : Life → Life) : (s.updLife k i f).badBlocks = s.badBlocks := rfl
@[simp] theorem updLife_ddrGib (s : State) (k i : Nat) (f : Life → Life) : (s.updLife k i f).ddrGib = s.ddrGib := rfl
@[simp] theorem updLife_cxl (s : State) (k i : Nat) (f : Life → Life) : (s.updLife k i f).cxl = s.cxl := rfl
@[simp] theorem updLife_kudus (s : State) (k i : Nat) (f : Life → Life) : (s.updLife k i f).kudus = s.kudus := rfl
@[simp] theorem updLife_reds (s : State) (k i : Nat) (f : Life → Life) : (s.updLife k i f).reds = s.reds := rfl
@[simp] theorem updLife_coms (s : State) (k i : Nat) (f : Life → Life) : (s.updLife k i f).coms = s.coms := rfl
@[simp] theorem updLife_links (s : State) (k i : Nat) (f : Life → Life) : (s.updLife k i f).links = s.links := rfl
@[simp] theorem updLife_lasers (s : State) (k i : Nat) (f : Life → Life) : (s.updLife k i f).lasers = s.lasers := rfl
@[simp] theorem updLife_outbox (s : State) (k i : Nat) (f : Life → Life) : (s.updLife k i f).outbox = s.outbox := rfl
@[simp] theorem updLife_quads (s : State) (k i : Nat) (f : Life → Life) : (s.updLife k i f).quads = s.quads := rfl
@[simp] theorem updLife_spineStep (s : State) (k i : Nat) (f : Life → Life) : (s.updLife k i f).spineStep = s.spineStep := rfl
@[simp] theorem updLife_spineSettled (s : State) (k i : Nat) (f : Life → Life) : (s.updLife k i f).spineSettled = s.spineSettled := rfl
@[simp] theorem updLife_chamois (s : State) (k i : Nat) (f : Life → Life) : (s.updLife k i f).chamois = s.chamois := rfl
@[simp] theorem updLife_period (s : State) (k i : Nat) (f : Life → Life) : (s.updLife k i f).period = s.period := rfl
@[simp] theorem updLife_boot (s : State) (k i : Nat) (f : Life → Life) : (s.updLife k i f).boot = s.boot := rfl
@[simp] theorem updLife_flash (s : State) (k i : Nat) (f : Life → Life) : (s.updLife k i f).flash = s.flash := rfl
@[simp] theorem updLife_power (s : State) (k i : Nat) (f : Life → Life) : (s.updLife k i f).power = s.power := rfl
@[simp] theorem updLife_hwFaulted (s : State) (k i : Nat) (f : Life → Life) : (s.updLife k i f).hwFaulted = s.hwFaulted := rfl
@[simp] theorem updLife_tile (s : State) (k i : Nat) (f : Life → Life) (t' : Nat) : (s.updLife k i f).tile t' = s.tile t' := rfl
@[simp] theorem updLife_part (s : State) (k i : Nat) (f : Life → Life) (p' : Nat) : (s.updLife k i f).part p' = s.part p' := rfl
@[simp] theorem updLife_job (s : State) (k i : Nat) (f : Life → Life) (j' : Nat) : (s.updLife k i f).job j' = s.job j' := rfl
@[simp] theorem updLife_red (s : State) (k i : Nat) (f : Life → Life) (e' : Nat) : (s.updLife k i f).red e' = s.red e' := rfl
@[simp] theorem updLife_com (s : State) (k i : Nat) (f : Life → Life) (e' : Nat) : (s.updLife k i f).com e' = s.com e' := rfl
@[simp] theorem updLife_link (s : State) (k i : Nat) (f : Life → Life) (l' : Nat) : (s.updLife k i f).link l' = s.link l' := rfl
@[simp] theorem updLife_mc (s : State) (k i : Nat) (f : Life → Life) (n' : Nat) : (s.updLife k i f).mc n' = s.mc n' := rfl
@[simp] theorem updLife_sync (s : State) (k i : Nat) (f : Life → Life) (b' : Nat) : (s.updLife k i f).sync b' = s.sync b' := rfl
@[simp] theorem updLife_msg (s : State) (k i : Nat) (f : Life → Life) (n' : Nat) : (s.updLife k i f).msg n' = s.msg n' := rfl
@[simp] theorem updLife_put (s : State) (k i : Nat) (f : Life → Life) (n' : Nat) : (s.updLife k i f).put n' = s.put n' := rfl
@[simp] theorem updLife_mb (s : State) (k i : Nat) (f : Life → Life) (n' : Nat) : (s.updLife k i f).mb n' = s.mb n' := rfl
@[simp] theorem updLife_quad (s : State) (k i : Nat) (f : Life → Life) (n' : Nat) : (s.updLife k i f).quad n' = s.quad n' := rfl
@[simp] theorem updLife_ppower (s : State) (k i : Nat) (f : Life → Life) (n' : Nat) : (s.updLife k i f).ppower n' = s.ppower n' := rfl

/-! `updQuad` -/

@[simp] theorem updQuad_pending (s : State) (q : Nat) (f : QuadDom → QuadDom) : (s.updQuad q f).pending = s.pending := rfl
@[simp] theorem updQuad_free (s : State) (q : Nat) (f : QuadDom → QuadDom) : (s.updQuad q f).free = s.free := rfl
@[simp] theorem updQuad_grade (s : State) (q : Nat) (f : QuadDom → QuadDom) : (s.updQuad q f).grade = s.grade := rfl
@[simp] theorem updQuad_stepMajor (s : State) (q : Nat) (f : QuadDom → QuadDom) : (s.updQuad q f).stepMajor = s.stepMajor := rfl
@[simp] theorem updQuad_stepMinor (s : State) (q : Nat) (f : QuadDom → QuadDom) : (s.updQuad q f).stepMinor = s.stepMinor := rfl
@[simp] theorem updQuad_busData (s : State) (q : Nat) (f : QuadDom → QuadDom) : (s.updQuad q f).busData = s.busData := rfl
@[simp] theorem updQuad_busNack (s : State) (q : Nat) (f : QuadDom → QuadDom) : (s.updQuad q f).busNack = s.busNack := rfl
@[simp] theorem updQuad_time (s : State) (q : Nat) (f : QuadDom → QuadDom) : (s.updQuad q f).time = s.time := rfl
@[simp] theorem updQuad_tiles (s : State) (q : Nat) (f : QuadDom → QuadDom) : (s.updQuad q f).tiles = s.tiles := rfl
@[simp] theorem updQuad_mem (s : State) (q : Nat) (f : QuadDom → QuadDom) : (s.updQuad q f).mem = s.mem := rfl
@[simp] theorem updQuad_eccBad (s : State) (q : Nat) (f : QuadDom → QuadDom) : (s.updQuad q f).eccBad = s.eccBad := rfl
@[simp] theorem updQuad_eccSoft (s : State) (q : Nat) (f : QuadDom → QuadDom) : (s.updQuad q f).eccSoft = s.eccSoft := rfl
@[simp] theorem updQuad_herdCe (s : State) (q : Nat) (f : QuadDom → QuadDom) : (s.updQuad q f).herdCe = s.herdCe := rfl
@[simp] theorem updQuad_syncs (s : State) (q : Nat) (f : QuadDom → QuadDom) : (s.updQuad q f).syncs = s.syncs := rfl
@[simp] theorem updQuad_nextId (s : State) (q : Nat) (f : QuadDom → QuadDom) : (s.updQuad q f).nextId = s.nextId := rfl
@[simp] theorem updQuad_syncMsgs (s : State) (q : Nat) (f : QuadDom → QuadDom) : (s.updQuad q f).syncMsgs = s.syncMsgs := rfl
@[simp] theorem updQuad_msgs (s : State) (q : Nat) (f : QuadDom → QuadDom) : (s.updQuad q f).msgs = s.msgs := rfl
@[simp] theorem updQuad_puts (s : State) (q : Nat) (f : QuadDom → QuadDom) : (s.updQuad q f).puts = s.puts := rfl
@[simp] theorem updQuad_sums (s : State) (q : Nat) (f : QuadDom → QuadDom) : (s.updQuad q f).sums = s.sums := rfl
@[simp] theorem updQuad_crossings (s : State) (q : Nat) (f : QuadDom → QuadDom) : (s.updQuad q f).crossings = s.crossings := rfl
@[simp] theorem updQuad_turns (s : State) (q : Nat) (f : QuadDom → QuadDom) : (s.updQuad q f).turns = s.turns := rfl
@[simp] theorem updQuad_parts (s : State) (q : Nat) (f : QuadDom → QuadDom) : (s.updQuad q f).parts = s.parts := rfl
@[simp] theorem updQuad_fw (s : State) (q : Nat) (f : QuadDom → QuadDom) : (s.updQuad q f).fw = s.fw := rfl
@[simp] theorem updQuad_mailboxes (s : State) (q : Nat) (f : QuadDom → QuadDom) : (s.updQuad q f).mailboxes = s.mailboxes := rfl
@[simp] theorem updQuad_boxTurn (s : State) (q : Nat) (f : QuadDom → QuadDom) : (s.updQuad q f).boxTurn = s.boxTurn := rfl
@[simp] theorem updQuad_lives (s : State) (q : Nat) (f : QuadDom → QuadDom) : (s.updQuad q f).lives = s.lives := rfl
@[simp] theorem updQuad_jobs (s : State) (q : Nat) (f : QuadDom → QuadDom) : (s.updQuad q f).jobs = s.jobs := rfl
@[simp] theorem updQuad_mcs (s : State) (q : Nat) (f : QuadDom → QuadDom) : (s.updQuad q f).mcs = s.mcs := rfl
@[simp] theorem updQuad_badBlocks (s : State) (q : Nat) (f : QuadDom → QuadDom) : (s.updQuad q f).badBlocks = s.badBlocks := rfl
@[simp] theorem updQuad_ddrGib (s : State) (q : Nat) (f : QuadDom → QuadDom) : (s.updQuad q f).ddrGib = s.ddrGib := rfl
@[simp] theorem updQuad_cxl (s : State) (q : Nat) (f : QuadDom → QuadDom) : (s.updQuad q f).cxl = s.cxl := rfl
@[simp] theorem updQuad_kudus (s : State) (q : Nat) (f : QuadDom → QuadDom) : (s.updQuad q f).kudus = s.kudus := rfl
@[simp] theorem updQuad_reds (s : State) (q : Nat) (f : QuadDom → QuadDom) : (s.updQuad q f).reds = s.reds := rfl
@[simp] theorem updQuad_coms (s : State) (q : Nat) (f : QuadDom → QuadDom) : (s.updQuad q f).coms = s.coms := rfl
@[simp] theorem updQuad_links (s : State) (q : Nat) (f : QuadDom → QuadDom) : (s.updQuad q f).links = s.links := rfl
@[simp] theorem updQuad_lasers (s : State) (q : Nat) (f : QuadDom → QuadDom) : (s.updQuad q f).lasers = s.lasers := rfl
@[simp] theorem updQuad_outbox (s : State) (q : Nat) (f : QuadDom → QuadDom) : (s.updQuad q f).outbox = s.outbox := rfl
@[simp] theorem updQuad_spineStep (s : State) (q : Nat) (f : QuadDom → QuadDom) : (s.updQuad q f).spineStep = s.spineStep := rfl
@[simp] theorem updQuad_spineSettled (s : State) (q : Nat) (f : QuadDom → QuadDom) : (s.updQuad q f).spineSettled = s.spineSettled := rfl
@[simp] theorem updQuad_chamois (s : State) (q : Nat) (f : QuadDom → QuadDom) : (s.updQuad q f).chamois = s.chamois := rfl
@[simp] theorem updQuad_period (s : State) (q : Nat) (f : QuadDom → QuadDom) : (s.updQuad q f).period = s.period := rfl
@[simp] theorem updQuad_boot (s : State) (q : Nat) (f : QuadDom → QuadDom) : (s.updQuad q f).boot = s.boot := rfl
@[simp] theorem updQuad_flash (s : State) (q : Nat) (f : QuadDom → QuadDom) : (s.updQuad q f).flash = s.flash := rfl
@[simp] theorem updQuad_power (s : State) (q : Nat) (f : QuadDom → QuadDom) : (s.updQuad q f).power = s.power := rfl
@[simp] theorem updQuad_hwFaulted (s : State) (q : Nat) (f : QuadDom → QuadDom) : (s.updQuad q f).hwFaulted = s.hwFaulted := rfl
@[simp] theorem updQuad_tile (s : State) (q : Nat) (f : QuadDom → QuadDom) (t' : Nat) : (s.updQuad q f).tile t' = s.tile t' := rfl
@[simp] theorem updQuad_part (s : State) (q : Nat) (f : QuadDom → QuadDom) (p' : Nat) : (s.updQuad q f).part p' = s.part p' := rfl
@[simp] theorem updQuad_job (s : State) (q : Nat) (f : QuadDom → QuadDom) (j' : Nat) : (s.updQuad q f).job j' = s.job j' := rfl
@[simp] theorem updQuad_red (s : State) (q : Nat) (f : QuadDom → QuadDom) (e' : Nat) : (s.updQuad q f).red e' = s.red e' := rfl
@[simp] theorem updQuad_com (s : State) (q : Nat) (f : QuadDom → QuadDom) (e' : Nat) : (s.updQuad q f).com e' = s.com e' := rfl
@[simp] theorem updQuad_link (s : State) (q : Nat) (f : QuadDom → QuadDom) (l' : Nat) : (s.updQuad q f).link l' = s.link l' := rfl
@[simp] theorem updQuad_mc (s : State) (q : Nat) (f : QuadDom → QuadDom) (n' : Nat) : (s.updQuad q f).mc n' = s.mc n' := rfl
@[simp] theorem updQuad_sync (s : State) (q : Nat) (f : QuadDom → QuadDom) (b' : Nat) : (s.updQuad q f).sync b' = s.sync b' := rfl
@[simp] theorem updQuad_msg (s : State) (q : Nat) (f : QuadDom → QuadDom) (n' : Nat) : (s.updQuad q f).msg n' = s.msg n' := rfl
@[simp] theorem updQuad_put (s : State) (q : Nat) (f : QuadDom → QuadDom) (n' : Nat) : (s.updQuad q f).put n' = s.put n' := rfl
@[simp] theorem updQuad_mb (s : State) (q : Nat) (f : QuadDom → QuadDom) (n' : Nat) : (s.updQuad q f).mb n' = s.mb n' := rfl
@[simp] theorem updQuad_life (s : State) (q : Nat) (f : QuadDom → QuadDom) (kind' idx' : Nat) : (s.updQuad q f).life kind' idx' = s.life kind' idx' := rfl
@[simp] theorem updQuad_ppower (s : State) (q : Nat) (f : QuadDom → QuadDom) (n' : Nat) : (s.updQuad q f).ppower n' = s.ppower n' := rfl

/-! `updCham` -/

@[simp] theorem updCham_pending (s : State) (f : Chamois → Chamois) : (s.updCham f).pending = s.pending := rfl
@[simp] theorem updCham_free (s : State) (f : Chamois → Chamois) : (s.updCham f).free = s.free := rfl
@[simp] theorem updCham_grade (s : State) (f : Chamois → Chamois) : (s.updCham f).grade = s.grade := rfl
@[simp] theorem updCham_stepMajor (s : State) (f : Chamois → Chamois) : (s.updCham f).stepMajor = s.stepMajor := rfl
@[simp] theorem updCham_stepMinor (s : State) (f : Chamois → Chamois) : (s.updCham f).stepMinor = s.stepMinor := rfl
@[simp] theorem updCham_busData (s : State) (f : Chamois → Chamois) : (s.updCham f).busData = s.busData := rfl
@[simp] theorem updCham_busNack (s : State) (f : Chamois → Chamois) : (s.updCham f).busNack = s.busNack := rfl
@[simp] theorem updCham_time (s : State) (f : Chamois → Chamois) : (s.updCham f).time = s.time := rfl
@[simp] theorem updCham_tiles (s : State) (f : Chamois → Chamois) : (s.updCham f).tiles = s.tiles := rfl
@[simp] theorem updCham_mem (s : State) (f : Chamois → Chamois) : (s.updCham f).mem = s.mem := rfl
@[simp] theorem updCham_eccBad (s : State) (f : Chamois → Chamois) : (s.updCham f).eccBad = s.eccBad := rfl
@[simp] theorem updCham_eccSoft (s : State) (f : Chamois → Chamois) : (s.updCham f).eccSoft = s.eccSoft := rfl
@[simp] theorem updCham_herdCe (s : State) (f : Chamois → Chamois) : (s.updCham f).herdCe = s.herdCe := rfl
@[simp] theorem updCham_syncs (s : State) (f : Chamois → Chamois) : (s.updCham f).syncs = s.syncs := rfl
@[simp] theorem updCham_nextId (s : State) (f : Chamois → Chamois) : (s.updCham f).nextId = s.nextId := rfl
@[simp] theorem updCham_syncMsgs (s : State) (f : Chamois → Chamois) : (s.updCham f).syncMsgs = s.syncMsgs := rfl
@[simp] theorem updCham_msgs (s : State) (f : Chamois → Chamois) : (s.updCham f).msgs = s.msgs := rfl
@[simp] theorem updCham_puts (s : State) (f : Chamois → Chamois) : (s.updCham f).puts = s.puts := rfl
@[simp] theorem updCham_sums (s : State) (f : Chamois → Chamois) : (s.updCham f).sums = s.sums := rfl
@[simp] theorem updCham_crossings (s : State) (f : Chamois → Chamois) : (s.updCham f).crossings = s.crossings := rfl
@[simp] theorem updCham_turns (s : State) (f : Chamois → Chamois) : (s.updCham f).turns = s.turns := rfl
@[simp] theorem updCham_parts (s : State) (f : Chamois → Chamois) : (s.updCham f).parts = s.parts := rfl
@[simp] theorem updCham_fw (s : State) (f : Chamois → Chamois) : (s.updCham f).fw = s.fw := rfl
@[simp] theorem updCham_mailboxes (s : State) (f : Chamois → Chamois) : (s.updCham f).mailboxes = s.mailboxes := rfl
@[simp] theorem updCham_boxTurn (s : State) (f : Chamois → Chamois) : (s.updCham f).boxTurn = s.boxTurn := rfl
@[simp] theorem updCham_lives (s : State) (f : Chamois → Chamois) : (s.updCham f).lives = s.lives := rfl
@[simp] theorem updCham_jobs (s : State) (f : Chamois → Chamois) : (s.updCham f).jobs = s.jobs := rfl
@[simp] theorem updCham_mcs (s : State) (f : Chamois → Chamois) : (s.updCham f).mcs = s.mcs := rfl
@[simp] theorem updCham_badBlocks (s : State) (f : Chamois → Chamois) : (s.updCham f).badBlocks = s.badBlocks := rfl
@[simp] theorem updCham_ddrGib (s : State) (f : Chamois → Chamois) : (s.updCham f).ddrGib = s.ddrGib := rfl
@[simp] theorem updCham_cxl (s : State) (f : Chamois → Chamois) : (s.updCham f).cxl = s.cxl := rfl
@[simp] theorem updCham_kudus (s : State) (f : Chamois → Chamois) : (s.updCham f).kudus = s.kudus := rfl
@[simp] theorem updCham_reds (s : State) (f : Chamois → Chamois) : (s.updCham f).reds = s.reds := rfl
@[simp] theorem updCham_coms (s : State) (f : Chamois → Chamois) : (s.updCham f).coms = s.coms := rfl
@[simp] theorem updCham_links (s : State) (f : Chamois → Chamois) : (s.updCham f).links = s.links := rfl
@[simp] theorem updCham_lasers (s : State) (f : Chamois → Chamois) : (s.updCham f).lasers = s.lasers := rfl
@[simp] theorem updCham_outbox (s : State) (f : Chamois → Chamois) : (s.updCham f).outbox = s.outbox := rfl
@[simp] theorem updCham_quads (s : State) (f : Chamois → Chamois) : (s.updCham f).quads = s.quads := rfl
@[simp] theorem updCham_spineStep (s : State) (f : Chamois → Chamois) : (s.updCham f).spineStep = s.spineStep := rfl
@[simp] theorem updCham_spineSettled (s : State) (f : Chamois → Chamois) : (s.updCham f).spineSettled = s.spineSettled := rfl
@[simp] theorem updCham_period (s : State) (f : Chamois → Chamois) : (s.updCham f).period = s.period := rfl
@[simp] theorem updCham_boot (s : State) (f : Chamois → Chamois) : (s.updCham f).boot = s.boot := rfl
@[simp] theorem updCham_flash (s : State) (f : Chamois → Chamois) : (s.updCham f).flash = s.flash := rfl
@[simp] theorem updCham_power (s : State) (f : Chamois → Chamois) : (s.updCham f).power = s.power := rfl
@[simp] theorem updCham_hwFaulted (s : State) (f : Chamois → Chamois) : (s.updCham f).hwFaulted = s.hwFaulted := rfl
@[simp] theorem updCham_tile (s : State) (f : Chamois → Chamois) (t' : Nat) : (s.updCham f).tile t' = s.tile t' := rfl
@[simp] theorem updCham_part (s : State) (f : Chamois → Chamois) (p' : Nat) : (s.updCham f).part p' = s.part p' := rfl
@[simp] theorem updCham_job (s : State) (f : Chamois → Chamois) (j' : Nat) : (s.updCham f).job j' = s.job j' := rfl
@[simp] theorem updCham_red (s : State) (f : Chamois → Chamois) (e' : Nat) : (s.updCham f).red e' = s.red e' := rfl
@[simp] theorem updCham_com (s : State) (f : Chamois → Chamois) (e' : Nat) : (s.updCham f).com e' = s.com e' := rfl
@[simp] theorem updCham_link (s : State) (f : Chamois → Chamois) (l' : Nat) : (s.updCham f).link l' = s.link l' := rfl
@[simp] theorem updCham_mc (s : State) (f : Chamois → Chamois) (n' : Nat) : (s.updCham f).mc n' = s.mc n' := rfl
@[simp] theorem updCham_sync (s : State) (f : Chamois → Chamois) (b' : Nat) : (s.updCham f).sync b' = s.sync b' := rfl
@[simp] theorem updCham_msg (s : State) (f : Chamois → Chamois) (n' : Nat) : (s.updCham f).msg n' = s.msg n' := rfl
@[simp] theorem updCham_put (s : State) (f : Chamois → Chamois) (n' : Nat) : (s.updCham f).put n' = s.put n' := rfl
@[simp] theorem updCham_mb (s : State) (f : Chamois → Chamois) (n' : Nat) : (s.updCham f).mb n' = s.mb n' := rfl
@[simp] theorem updCham_quad (s : State) (f : Chamois → Chamois) (n' : Nat) : (s.updCham f).quad n' = s.quad n' := rfl
@[simp] theorem updCham_life (s : State) (f : Chamois → Chamois) (kind' idx' : Nat) : (s.updCham f).life kind' idx' = s.life kind' idx' := rfl

/-! `writeMem` -/

@[simp] theorem writeMem_pending (s : State) (a : Nat) (bs : List Byte) : (s.writeMem a bs).pending = s.pending := rfl
@[simp] theorem writeMem_free (s : State) (a : Nat) (bs : List Byte) : (s.writeMem a bs).free = s.free := rfl
@[simp] theorem writeMem_grade (s : State) (a : Nat) (bs : List Byte) : (s.writeMem a bs).grade = s.grade := rfl
@[simp] theorem writeMem_stepMajor (s : State) (a : Nat) (bs : List Byte) : (s.writeMem a bs).stepMajor = s.stepMajor := rfl
@[simp] theorem writeMem_stepMinor (s : State) (a : Nat) (bs : List Byte) : (s.writeMem a bs).stepMinor = s.stepMinor := rfl
@[simp] theorem writeMem_busData (s : State) (a : Nat) (bs : List Byte) : (s.writeMem a bs).busData = s.busData := rfl
@[simp] theorem writeMem_busNack (s : State) (a : Nat) (bs : List Byte) : (s.writeMem a bs).busNack = s.busNack := rfl
@[simp] theorem writeMem_time (s : State) (a : Nat) (bs : List Byte) : (s.writeMem a bs).time = s.time := rfl
@[simp] theorem writeMem_tiles (s : State) (a : Nat) (bs : List Byte) : (s.writeMem a bs).tiles = s.tiles := rfl
@[simp] theorem writeMem_herdCe (s : State) (a : Nat) (bs : List Byte) : (s.writeMem a bs).herdCe = s.herdCe := rfl
@[simp] theorem writeMem_syncs (s : State) (a : Nat) (bs : List Byte) : (s.writeMem a bs).syncs = s.syncs := rfl
@[simp] theorem writeMem_nextId (s : State) (a : Nat) (bs : List Byte) : (s.writeMem a bs).nextId = s.nextId := rfl
@[simp] theorem writeMem_syncMsgs (s : State) (a : Nat) (bs : List Byte) : (s.writeMem a bs).syncMsgs = s.syncMsgs := rfl
@[simp] theorem writeMem_msgs (s : State) (a : Nat) (bs : List Byte) : (s.writeMem a bs).msgs = s.msgs := rfl
@[simp] theorem writeMem_puts (s : State) (a : Nat) (bs : List Byte) : (s.writeMem a bs).puts = s.puts := rfl
@[simp] theorem writeMem_sums (s : State) (a : Nat) (bs : List Byte) : (s.writeMem a bs).sums = s.sums := rfl
@[simp] theorem writeMem_crossings (s : State) (a : Nat) (bs : List Byte) : (s.writeMem a bs).crossings = s.crossings := rfl
@[simp] theorem writeMem_turns (s : State) (a : Nat) (bs : List Byte) : (s.writeMem a bs).turns = s.turns := rfl
@[simp] theorem writeMem_parts (s : State) (a : Nat) (bs : List Byte) : (s.writeMem a bs).parts = s.parts := rfl
@[simp] theorem writeMem_fw (s : State) (a : Nat) (bs : List Byte) : (s.writeMem a bs).fw = s.fw := rfl
@[simp] theorem writeMem_mailboxes (s : State) (a : Nat) (bs : List Byte) : (s.writeMem a bs).mailboxes = s.mailboxes := rfl
@[simp] theorem writeMem_boxTurn (s : State) (a : Nat) (bs : List Byte) : (s.writeMem a bs).boxTurn = s.boxTurn := rfl
@[simp] theorem writeMem_lives (s : State) (a : Nat) (bs : List Byte) : (s.writeMem a bs).lives = s.lives := rfl
@[simp] theorem writeMem_jobs (s : State) (a : Nat) (bs : List Byte) : (s.writeMem a bs).jobs = s.jobs := rfl
@[simp] theorem writeMem_mcs (s : State) (a : Nat) (bs : List Byte) : (s.writeMem a bs).mcs = s.mcs := rfl
@[simp] theorem writeMem_ddrGib (s : State) (a : Nat) (bs : List Byte) : (s.writeMem a bs).ddrGib = s.ddrGib := rfl
@[simp] theorem writeMem_cxl (s : State) (a : Nat) (bs : List Byte) : (s.writeMem a bs).cxl = s.cxl := rfl
@[simp] theorem writeMem_kudus (s : State) (a : Nat) (bs : List Byte) : (s.writeMem a bs).kudus = s.kudus := rfl
@[simp] theorem writeMem_reds (s : State) (a : Nat) (bs : List Byte) : (s.writeMem a bs).reds = s.reds := rfl
@[simp] theorem writeMem_coms (s : State) (a : Nat) (bs : List Byte) : (s.writeMem a bs).coms = s.coms := rfl
@[simp] theorem writeMem_links (s : State) (a : Nat) (bs : List Byte) : (s.writeMem a bs).links = s.links := rfl
@[simp] theorem writeMem_lasers (s : State) (a : Nat) (bs : List Byte) : (s.writeMem a bs).lasers = s.lasers := rfl
@[simp] theorem writeMem_outbox (s : State) (a : Nat) (bs : List Byte) : (s.writeMem a bs).outbox = s.outbox := rfl
@[simp] theorem writeMem_quads (s : State) (a : Nat) (bs : List Byte) : (s.writeMem a bs).quads = s.quads := rfl
@[simp] theorem writeMem_spineStep (s : State) (a : Nat) (bs : List Byte) : (s.writeMem a bs).spineStep = s.spineStep := rfl
@[simp] theorem writeMem_spineSettled (s : State) (a : Nat) (bs : List Byte) : (s.writeMem a bs).spineSettled = s.spineSettled := rfl
@[simp] theorem writeMem_chamois (s : State) (a : Nat) (bs : List Byte) : (s.writeMem a bs).chamois = s.chamois := rfl
@[simp] theorem writeMem_period (s : State) (a : Nat) (bs : List Byte) : (s.writeMem a bs).period = s.period := rfl
@[simp] theorem writeMem_boot (s : State) (a : Nat) (bs : List Byte) : (s.writeMem a bs).boot = s.boot := rfl
@[simp] theorem writeMem_flash (s : State) (a : Nat) (bs : List Byte) : (s.writeMem a bs).flash = s.flash := rfl
@[simp] theorem writeMem_power (s : State) (a : Nat) (bs : List Byte) : (s.writeMem a bs).power = s.power := rfl
@[simp] theorem writeMem_hwFaulted (s : State) (a : Nat) (bs : List Byte) : (s.writeMem a bs).hwFaulted = s.hwFaulted := rfl
@[simp] theorem writeMem_tile (s : State) (a : Nat) (bs : List Byte) (t' : Nat) : (s.writeMem a bs).tile t' = s.tile t' := rfl
@[simp] theorem writeMem_part (s : State) (a : Nat) (bs : List Byte) (p' : Nat) : (s.writeMem a bs).part p' = s.part p' := rfl
@[simp] theorem writeMem_job (s : State) (a : Nat) (bs : List Byte) (j' : Nat) : (s.writeMem a bs).job j' = s.job j' := rfl
@[simp] theorem writeMem_red (s : State) (a : Nat) (bs : List Byte) (e' : Nat) : (s.writeMem a bs).red e' = s.red e' := rfl
@[simp] theorem writeMem_com (s : State) (a : Nat) (bs : List Byte) (e' : Nat) : (s.writeMem a bs).com e' = s.com e' := rfl
@[simp] theorem writeMem_link (s : State) (a : Nat) (bs : List Byte) (l' : Nat) : (s.writeMem a bs).link l' = s.link l' := rfl
@[simp] theorem writeMem_mc (s : State) (a : Nat) (bs : List Byte) (n' : Nat) : (s.writeMem a bs).mc n' = s.mc n' := rfl
@[simp] theorem writeMem_sync (s : State) (a : Nat) (bs : List Byte) (b' : Nat) : (s.writeMem a bs).sync b' = s.sync b' := rfl
@[simp] theorem writeMem_msg (s : State) (a : Nat) (bs : List Byte) (n' : Nat) : (s.writeMem a bs).msg n' = s.msg n' := rfl
@[simp] theorem writeMem_put (s : State) (a : Nat) (bs : List Byte) (n' : Nat) : (s.writeMem a bs).put n' = s.put n' := rfl
@[simp] theorem writeMem_mb (s : State) (a : Nat) (bs : List Byte) (n' : Nat) : (s.writeMem a bs).mb n' = s.mb n' := rfl
@[simp] theorem writeMem_quad (s : State) (a : Nat) (bs : List Byte) (n' : Nat) : (s.writeMem a bs).quad n' = s.quad n' := rfl
@[simp] theorem writeMem_life (s : State) (a : Nat) (bs : List Byte) (kind' idx' : Nat) : (s.writeMem a bs).life kind' idx' = s.life kind' idx' := rfl
@[simp] theorem writeMem_ppower (s : State) (a : Nat) (bs : List Byte) (n' : Nat) : (s.writeMem a bs).ppower n' = s.ppower n' := rfl

/-! `drawn` -/

@[simp] theorem drawn_pending (s : State) : (s.drawn).pending = s.pending := rfl
@[simp] theorem drawn_grade (s : State) : (s.drawn).grade = s.grade := rfl
@[simp] theorem drawn_stepMajor (s : State) : (s.drawn).stepMajor = s.stepMajor := rfl
@[simp] theorem drawn_stepMinor (s : State) : (s.drawn).stepMinor = s.stepMinor := rfl
@[simp] theorem drawn_busData (s : State) : (s.drawn).busData = s.busData := rfl
@[simp] theorem drawn_busNack (s : State) : (s.drawn).busNack = s.busNack := rfl
@[simp] theorem drawn_time (s : State) : (s.drawn).time = s.time := rfl
@[simp] theorem drawn_tiles (s : State) : (s.drawn).tiles = s.tiles := rfl
@[simp] theorem drawn_mem (s : State) : (s.drawn).mem = s.mem := rfl
@[simp] theorem drawn_eccBad (s : State) : (s.drawn).eccBad = s.eccBad := rfl
@[simp] theorem drawn_eccSoft (s : State) : (s.drawn).eccSoft = s.eccSoft := rfl
@[simp] theorem drawn_herdCe (s : State) : (s.drawn).herdCe = s.herdCe := rfl
@[simp] theorem drawn_syncs (s : State) : (s.drawn).syncs = s.syncs := rfl
@[simp] theorem drawn_nextId (s : State) : (s.drawn).nextId = s.nextId := rfl
@[simp] theorem drawn_syncMsgs (s : State) : (s.drawn).syncMsgs = s.syncMsgs := rfl
@[simp] theorem drawn_msgs (s : State) : (s.drawn).msgs = s.msgs := rfl
@[simp] theorem drawn_puts (s : State) : (s.drawn).puts = s.puts := rfl
@[simp] theorem drawn_sums (s : State) : (s.drawn).sums = s.sums := rfl
@[simp] theorem drawn_crossings (s : State) : (s.drawn).crossings = s.crossings := rfl
@[simp] theorem drawn_turns (s : State) : (s.drawn).turns = s.turns := rfl
@[simp] theorem drawn_parts (s : State) : (s.drawn).parts = s.parts := rfl
@[simp] theorem drawn_fw (s : State) : (s.drawn).fw = s.fw := rfl
@[simp] theorem drawn_mailboxes (s : State) : (s.drawn).mailboxes = s.mailboxes := rfl
@[simp] theorem drawn_boxTurn (s : State) : (s.drawn).boxTurn = s.boxTurn := rfl
@[simp] theorem drawn_lives (s : State) : (s.drawn).lives = s.lives := rfl
@[simp] theorem drawn_jobs (s : State) : (s.drawn).jobs = s.jobs := rfl
@[simp] theorem drawn_mcs (s : State) : (s.drawn).mcs = s.mcs := rfl
@[simp] theorem drawn_badBlocks (s : State) : (s.drawn).badBlocks = s.badBlocks := rfl
@[simp] theorem drawn_ddrGib (s : State) : (s.drawn).ddrGib = s.ddrGib := rfl
@[simp] theorem drawn_cxl (s : State) : (s.drawn).cxl = s.cxl := rfl
@[simp] theorem drawn_kudus (s : State) : (s.drawn).kudus = s.kudus := rfl
@[simp] theorem drawn_reds (s : State) : (s.drawn).reds = s.reds := rfl
@[simp] theorem drawn_coms (s : State) : (s.drawn).coms = s.coms := rfl
@[simp] theorem drawn_links (s : State) : (s.drawn).links = s.links := rfl
@[simp] theorem drawn_lasers (s : State) : (s.drawn).lasers = s.lasers := rfl
@[simp] theorem drawn_outbox (s : State) : (s.drawn).outbox = s.outbox := rfl
@[simp] theorem drawn_quads (s : State) : (s.drawn).quads = s.quads := rfl
@[simp] theorem drawn_spineStep (s : State) : (s.drawn).spineStep = s.spineStep := rfl
@[simp] theorem drawn_spineSettled (s : State) : (s.drawn).spineSettled = s.spineSettled := rfl
@[simp] theorem drawn_chamois (s : State) : (s.drawn).chamois = s.chamois := rfl
@[simp] theorem drawn_period (s : State) : (s.drawn).period = s.period := rfl
@[simp] theorem drawn_boot (s : State) : (s.drawn).boot = s.boot := rfl
@[simp] theorem drawn_flash (s : State) : (s.drawn).flash = s.flash := rfl
@[simp] theorem drawn_power (s : State) : (s.drawn).power = s.power := rfl
@[simp] theorem drawn_hwFaulted (s : State) : (s.drawn).hwFaulted = s.hwFaulted := rfl
@[simp] theorem drawn_tile (s : State) (t' : Nat) : (s.drawn).tile t' = s.tile t' := rfl
@[simp] theorem drawn_part (s : State) (p' : Nat) : (s.drawn).part p' = s.part p' := rfl
@[simp] theorem drawn_job (s : State) (j' : Nat) : (s.drawn).job j' = s.job j' := rfl
@[simp] theorem drawn_red (s : State) (e' : Nat) : (s.drawn).red e' = s.red e' := rfl
@[simp] theorem drawn_com (s : State) (e' : Nat) : (s.drawn).com e' = s.com e' := rfl
@[simp] theorem drawn_link (s : State) (l' : Nat) : (s.drawn).link l' = s.link l' := rfl
@[simp] theorem drawn_mc (s : State) (n' : Nat) : (s.drawn).mc n' = s.mc n' := rfl
@[simp] theorem drawn_sync (s : State) (b' : Nat) : (s.drawn).sync b' = s.sync b' := rfl
@[simp] theorem drawn_msg (s : State) (n' : Nat) : (s.drawn).msg n' = s.msg n' := rfl
@[simp] theorem drawn_put (s : State) (n' : Nat) : (s.drawn).put n' = s.put n' := rfl
@[simp] theorem drawn_mb (s : State) (n' : Nat) : (s.drawn).mb n' = s.mb n' := rfl
@[simp] theorem drawn_quad (s : State) (n' : Nat) : (s.drawn).quad n' = s.quad n' := rfl
@[simp] theorem drawn_life (s : State) (kind' idx' : Nat) : (s.drawn).life kind' idx' = s.life kind' idx' := rfl
@[simp] theorem drawn_ppower (s : State) (n' : Nat) : (s.drawn).ppower n' = s.ppower n' := rfl

/-! A table read after an entry is replaced. -/

@[simp] theorem setPart_part_same (s : State) (p : Nat) (x : Partition) : (s.setPart p x).part p = x := Sparse.get_set_same _ _ _ _
theorem setPart_part_other (s : State) (p : Nat) (x : Partition) {i' : Nat} (h : i' ≠ p) : (s.setPart p x).part i' = s.part i' :=
  Sparse.get_set_other _ _ _ h.symm
@[simp] theorem setJob_job_same (s : State) (j : Nat) (x : Job) : (s.setJob j x).job j = x := Sparse.get_set_same _ _ _ _
theorem setJob_job_other (s : State) (j : Nat) (x : Job) {i' : Nat} (h : i' ≠ j) : (s.setJob j x).job i' = s.job i' :=
  Sparse.get_set_other _ _ _ h.symm
@[simp] theorem setRed_red_same (s : State) (k : Nat) (x : RedEntry) : (s.setRed k x).red k = x := Sparse.get_set_same _ _ _ _
theorem setRed_red_other (s : State) (k : Nat) (x : RedEntry) {i' : Nat} (h : i' ≠ k) : (s.setRed k x).red i' = s.red i' :=
  Sparse.get_set_other _ _ _ h.symm
@[simp] theorem setCom_com_same (s : State) (k : Nat) (x : ComEntry) : (s.setCom k x).com k = x := Sparse.get_set_same _ _ _ _
theorem setCom_com_other (s : State) (k : Nat) (x : ComEntry) {i' : Nat} (h : i' ≠ k) : (s.setCom k x).com i' = s.com i' :=
  Sparse.get_set_other _ _ _ h.symm
@[simp] theorem setLink_link_same (s : State) (k : Nat) (x : Link) : (s.setLink k x).link k = x := Sparse.get_set_same _ _ _ _
theorem setLink_link_other (s : State) (k : Nat) (x : Link) {i' : Nat} (h : i' ≠ k) : (s.setLink k x).link i' = s.link i' :=
  Sparse.get_set_other _ _ _ h.symm
@[simp] theorem setMc_mc_same (s : State) (u : Nat) (x : Mc) : (s.setMc u x).mc u = x := Sparse.get_set_same _ _ _ _
theorem setMc_mc_other (s : State) (u : Nat) (x : Mc) {i' : Nat} (h : i' ≠ u) : (s.setMc u x).mc i' = s.mc i' :=
  Sparse.get_set_other _ _ _ h.symm
@[simp] theorem setSync_sync_same (s : State) (o : Nat) (x : SyncObj) : (s.setSync o x).sync o = x := Sparse.get_set_same _ _ _ _
theorem setSync_sync_other (s : State) (o : Nat) (x : SyncObj) {i' : Nat} (h : i' ≠ o) : (s.setSync o x).sync i' = s.sync i' :=
  Sparse.get_set_other _ _ _ h.symm
@[simp] theorem setMb_mb_same (s : State) (m : Nat) (x : Mailbox) : (s.setMb m x).mb m = x := Sparse.get_set_same _ _ _ _
theorem setMb_mb_other (s : State) (m : Nat) (x : Mailbox) {i' : Nat} (h : i' ≠ m) : (s.setMb m x).mb i' = s.mb i' :=
  Sparse.get_set_other _ _ _ h.symm
@[simp] theorem updLife_life_same (s : State) (k i : Nat) (f : Life → Life) : (s.updLife k i f).life k i = f (s.life k i) :=
  Sparse.get_set_same _ _ _ _
theorem updLife_life_other (s : State) (k i : Nat) (f : Life → Life) {k' i' : Nat} (h : lifeKey k' i' ≠ lifeKey k i) :
    (s.updLife k i f).life k' i' = s.life k' i' := Sparse.get_set_other _ _ _ h.symm
@[simp] theorem updQuad_quad_same (s : State) (q : Nat) (f : QuadDom → QuadDom) : (s.updQuad q f).quad q = f (s.quad q) :=
  Sparse.get_set_same _ _ _ _
theorem updQuad_quad_other (s : State) (q : Nat) (f : QuadDom → QuadDom) {i : Nat} (h : i ≠ q) : (s.updQuad q f).quad i = s.quad i :=
  Sparse.get_set_other _ _ _ h.symm


end Sys2Proof.Machine
end

