-- ==== Sys2Proof/Laws/Commands.lean ====
section
/-! SUPPORT. What the shared operations of the mailboxes do: a record written or held, a command that acts, its items, its
end; what of the module they leave as it was. -/

namespace Sys2Proof.Machine

theorem HostOnly.refl (s : State) : HostOnly s s := ⟨fun _ _ => rfl, rfl⟩
theorem HostOnly.trans {a b c : State} (h : HostOnly a b) (g : HostOnly b c) : HostOnly a c :=
  ⟨fun x hx => (g.bytes x hx).trans (h.bytes x hx), g.tiles.trans h.tiles⟩

/-- A write at or above the host window changes nothing below it. -/
theorem writeMem_hostOnly (s : State) (a : Nat) (bs : List Byte) (h : hostBase ≤ a) : HostOnly s (s.writeMem a bs) :=
  ⟨fun _ hx => readByte_writeBytes_outside _ _ _ _ (.inl (Nat.lt_of_lt_of_le hx h)), rfl⟩

@[simp] theorem leBytes_length (n v : Nat) : (leBytes n v).length = n := by
  induction n generalizing v with
  | zero => rfl
  | succ n ih => simp [leBytes, ih]

@[simp] theorem Record.bytes_length (r : Record) (phase : Nat) : (r.bytes phase).length = 64 := by
  simp [Record.bytes]

/-! ## Records -/

/-- What a record does (R434): it is held, its write fails and it is held, or it is written. -/
theorem emit_cases (m : Nat) (r : Record) (s : State) :
    emit m r s = s.updMb m (fun x => { x with held := x.held ++ [r] }) ∨
    emit m r s = { s with free := s.free + 1 }.updMb m
      (fun x => { x with held := x.held ++ [r], ringErr := true, enable := false }) ∨
    emit m r s = ringWrite m r { s with free := s.free + 1 } := by
  unfold emit
  by_cases h : (!((s.mb m).enable && (s.mb m).room && (s.mb m).held.isEmpty)) = true
  · exact .inl (if_pos h)
  · by_cases f : (!s.power.reaches || Config.ringFails s.free) = true
    · exact .inr (.inl ((if_neg h).trans (if_pos f)))
    · exact .inr (.inr ((if_neg h).trans (if_neg f)))

/-- What writing or holding a record can do: one mailbox changes in its ring's place and its held records, and memory in
the ring's slot; nothing else, but the model's free counter. -/
theorem emit_rest (m : Nat) (r : Record) (s : State) : emit m r s =
    { s with mailboxes := (emit m r s).mailboxes, mem := (emit m r s).mem, eccBad := (emit m r s).eccBad
             eccSoft := (emit m r s).eccSoft, badBlocks := (emit m r s).badBlocks, free := (emit m r s).free } := by
  obtain e | e | e := emit_cases m r s <;> rw [e] <;> rfl

theorem emit_hostOnly (m : Nat) (r : Record) (s : State) : HostOnly s (emit m r s) := by
  obtain e | e | e := emit_cases m r s <;> rw [e]
  · exact ⟨fun _ _ => rfl, rfl⟩
  · exact ⟨fun _ _ => rfl, rfl⟩
  · refine ⟨fun x hx => ?_, rfl⟩
    exact (writeMem_hostOnly s _ _ (by omega)).bytes x hx

theorem mb_setMb (s : State) (m n : Nat) (x : Mailbox) : (s.setMb m x).mb n = if n = m then x else s.mb n := by
  by_cases h : n = m
  · subst h; simp
  · simp [h, setMb_mb_other _ _ _ h]

/-- A record changes no mailbox's taken commands, doorbell, or ring registers but TAIL, ENABLE and RING_ERR. -/
theorem emit_mb (m n : Nat) (r : Record) (s : State) : ∃ t l h b on,
    (emit m r s).mb n = { s.mb n with tail := t, last := l, held := h, ringErr := b, enable := on } := by
  obtain e | e | e := emit_cases m r s <;> rw [e]
  · rw [updMb_eq, mb_setMb]
    split
    · rename_i h; subst h; exact ⟨_, _, _, _, _, rfl⟩
    · exact ⟨_, _, _, _, _, rfl⟩
  · rw [updMb_eq, mb_setMb]
    split
    · rename_i h; subst h; exact ⟨_, _, _, _, _, rfl⟩
    · exact ⟨_, _, _, _, _, rfl⟩
  · unfold ringWrite; dsimp only
    rw [updMb_eq, mb_setMb]
    split
    · rename_i h; subst h; exact ⟨_, _, _, _, _, rfl⟩
    · exact ⟨_, _, _, _, _, rfl⟩

@[simp] theorem emit_cmds (m n : Nat) (r : Record) (s : State) : ((emit m r s).mb n).cmds = (s.mb n).cmds := by
  obtain ⟨t, l, h, b, on, e⟩ := emit_mb m n r s; rw [e]
@[simp] theorem emit_crBase (m n : Nat) (r : Record) (s : State) : ((emit m r s).mb n).crBase = (s.mb n).crBase := by
  obtain ⟨t, l, h, b, on, e⟩ := emit_mb m n r s; rw [e]
@[simp] theorem emit_crSize (m n : Nat) (r : Record) (s : State) : ((emit m r s).mb n).crSize = (s.mb n).crSize := by
  obtain ⟨t, l, h, b, on, e⟩ := emit_mb m n r s; rw [e]

@[simp] theorem emit_cmd (m n q : Nat) (r : Record) (s : State) : (emit m r s).cmd n q = s.cmd n q := by
  simp [State.cmd]

/-- A record is the last one written or is held. -/
theorem emit_stands (m : Nat) (r : Record) (s : State) :
    ((emit m r s).mb m).last = some r ∨ r ∈ ((emit m r s).mb m).held := by
  obtain e | e | e := emit_cases m r s <;> rw [e]
  · right; rw [updMb_eq, setMb_mb_same]; simp
  · right; rw [updMb_eq, setMb_mb_same]; simp
  · left; unfold ringWrite; dsimp only; rw [updMb_eq, setMb_mb_same]

/-- Outside the ring a record changes no byte. -/
theorem emit_outside (m : Nat) (r : Record) (s : State) (a : Nat)
    (h : a < hostBase + (s.mb m).crBase ∨ hostBase + (s.mb m).crBase + 64 * (s.mb m).ringLen ≤ a) :
    readByte (emit m r s).mem a = readByte s.mem a := by
  obtain e | e | e := emit_cases m r s <;> rw [e]
  · rfl
  · rfl
  · unfold ringWrite
    refine readByte_writeBytes_outside _ _ _ _ ?_
    rw [Record.bytes_length]
    have : (s.mb m).tail % (s.mb m).ringLen < (s.mb m).ringLen := Nat.mod_lt _ (Nat.two_pow_pos _)
    rcases h with h | h
    · left
      show a < hostBase + (s.mb m).crBase + (s.mb m).tail % (s.mb m).ringLen * 64
      omega
    · right
      show hostBase + (s.mb m).crBase + (s.mb m).tail % (s.mb m).ringLen * 64 + 64 ≤ a
      omega

/-! ## A command's end -/

theorem cmd_seq {s : State} {m q : Nat} {c : Cmd} (h : s.cmd m q = some c) : c.seq = q := by
  have := List.find?_some h; simpa using this

/-- A taken command ends: it is gone, and its record stands last or is held. -/
theorem finish_ends {s : State} {m q : Nat} {c d : Cmd} (h : s.cmd m q = some d) (hop : d.opcode = c.opcode) (htag : d.tag = c.tag)
    (st : Status) (fi aux : Nat) (detail : List Byte) : Ends m q c st detail (finish m q st fi aux detail s) := by
  unfold finish; rw [h]
  refine ⟨?_, cmdRecord s d st fi aux detail true, rfl, rfl, cmd_seq h, hop, htag, rfl, rfl, emit_stands _ _ _⟩
  rw [emit_cmd, updMb_eq, State.cmd, setMb_mb_same, List.find?_filter]
  simp

theorem finish_hostOnly (m q : Nat) (st : Status) (fi aux : Nat) (detail : List Byte) (s : State) :
    HostOnly s (finish m q st fi aux detail s) := by
  unfold finish; split
  · exact .refl s
  · have h := emit_hostOnly m (cmdRecord s ‹Cmd› st fi aux detail true) (s.updMb m (fun x => { x with cmds := x.cmds.filter (fun d => d.seq != q) }))
    exact ⟨h.bytes, h.tiles⟩

/-- A command's end changes its mailbox and its ring alone. -/
theorem finish_rest (m q : Nat) (st : Status) (fi aux : Nat) (detail : List Byte) (s : State) :
    finish m q st fi aux detail s =
      { s with mailboxes := (finish m q st fi aux detail s).mailboxes, mem := (finish m q st fi aux detail s).mem
               eccBad := (finish m q st fi aux detail s).eccBad, eccSoft := (finish m q st fi aux detail s).eccSoft
               badBlocks := (finish m q st fi aux detail s).badBlocks, free := (finish m q st fi aux detail s).free } := by
  unfold finish; split
  · rfl
  · rw [emit_rest]; rfl

/-- Outside its mailbox's ring a command's end changes no byte. -/
theorem finish_outside (m q : Nat) (st : Status) (fi aux : Nat) (detail : List Byte) (s : State) (a : Nat)
    (h : a < hostBase + (s.mb m).crBase ∨ hostBase + (s.mb m).crBase + 64 * (s.mb m).ringLen ≤ a) :
    readByte (finish m q st fi aux detail s).mem a = readByte s.mem a := by
  unfold finish; split
  · rfl
  · rw [emit_outside]
    · rfl
    · simpa [Mailbox.ringLen] using h

/-! ## A command that acts -/

theorem startCmd_acts {m q op : Nat} {c : Cmd} {s : State} (k : Cmd → State → State) (h : Acts m q c op s) :
    startCmd m q op s k = k c s := by
  obtain ⟨h1, h2, h3, h4, h5⟩ := h
  simp [startCmd, h1, h2, h3, h4, h5]

theorem noItems_nil {c : Cmd} (h : c.items = []) (m q : Nat) (k : State → State) (s : State) : noItems m q c k s = k s := by
  simp [noItems, withItems, h, runItems, missingBefore]

theorem withItems_nil {c : Cmd} (h : c.items = []) (m q n : Nat) (f : Nat → Nat → State → Except Status State)
    (k : State → State) (s : State) : withItems m q n [] c f k s = k s := by
  simp [withItems, h, runItems, missingBefore]

/-- A required item is missing. -/
theorem withItems_missing {c : Cmd} (h : c.items = []) (m q n r : Nat) (l : List Nat) (f : Nat → Nat → State → Except Status State)
    (k : State → State) (s : State) (h0 : 0 < r) (hn : r ≤ n) :
    withItems m q n (r :: l) c f k s = finish m q .rejectedArg 0 r [] s := by
  have : r < n + 1 := by omega
  simp [withItems, h, runItems, missingBefore, h0, hn, this]

/-- One item, applied. -/
theorem withItems_one {c : Cmd} {m q n id v : Nat} {f : Nat → Nat → State → Except Status State} {s u : State}
    (h : c.items = [(id, v)]) (h1 : 1 ≤ id) (hn : id ≤ n) (hf : f id v s = .ok u) (k : State → State) :
    withItems m q n [] c f k s = k (u.updCmd m q (fun c => { c with applied := 1 })) := by
  have : ¬ n < id := by omega
  have : id ≠ 0 := by omega
  simp [withItems, runItems, missingBefore, *]

/-- One item, refused. -/
theorem withItems_refused {c : Cmd} {m q n id v : Nat} {f : Nat → Nat → State → Except Status State} {s : State} {st : Status}
    (h : c.items = [(id, v)]) (h1 : 1 ≤ id) (hn : id ≤ n) (hf : f id v s = .error st) (k : State → State) :
    withItems m q n [] c f k s = finish m q st 0 id [] s := by
  have : ¬ n < id := by omega
  have : id ≠ 0 := by omega
  simp [withItems, runItems, missingBefore, *]

/-- A change of the command's own entry that keeps its SEQ. -/
theorem cmd_updCmd {s : State} {m q : Nat} {c : Cmd} (h : s.cmd m q = some c) (f : Cmd → Cmd) (hf : ∀ d, (f d).seq = d.seq) :
    (s.updCmd m q f).cmd m q = some (f c) := by
  unfold State.cmd at h ⊢
  rw [State.updCmd, updMb_eq, setMb_mb_same]
  generalize (s.mb m).cmds = l at h
  show (l.map (fun c => if c.seq == q then f c else c)).find? (fun c => c.seq == q) = some (f c)
  induction l with
  | nil => cases h
  | cons d r ih =>
    rw [List.map_cons, List.find?_cons]
    by_cases hd : (d.seq == q) = true
    · rw [List.find?_cons, hd, Option.some.injEq] at h
      rw [if_pos hd, hf, hd, h]
    · rw [Bool.not_eq_true] at hd
      rw [List.find?_cons, hd] at h
      rw [if_neg (by simp [hd]), hd]
      exact ih h

/-! ## Sound memory -/

theorem writeMem_sound {s : State} (h : s.MemSound) (a : Nat) (bs : List Byte) : (s.writeMem a bs).MemSound := wf_writeBytes h a bs
theorem clearMem_sound {s : State} (h : s.MemSound) (a n : Nat) : (clearMem a n s).MemSound := wf_clearBytes h a n
theorem emit_sound {s : State} (h : s.MemSound) (m : Nat) (r : Record) : (emit m r s).MemSound := by
  obtain e | e | e := emit_cases m r s <;> rw [e]
  · exact h
  · exact h
  · exact writeMem_sound (s := { s with free := s.free + 1 }) h _ _
theorem postEvent_sound {s : State} (h : s.MemSound) (m code src : Nat) (detail : List Byte) :
    (postEvent m code src detail s).MemSound := by
  unfold postEvent; dsimp only; split
  · exact h
  · exact emit_sound h _ _
theorem postAll_sound {s : State} (h : s.MemSound) (code src : Nat) (detail : List Byte) : (postAll code src detail s).MemSound :=
  foldl_keeps (P := State.MemSound) (fun _ _ h => postEvent_sound h _ _ _ _) _ h
theorem finish_sound {s : State} (h : s.MemSound) (m q : Nat) (st : Status) (fi aux : Nat) (detail : List Byte) :
    (finish m q st fi aux detail s).MemSound := by
  unfold finish; split
  · exact h
  · exact emit_sound (s := State.updMb _ _ _) h _ _
theorem deferCmd_sound {s : State} (h : s.MemSound) (m q : Nat) : (deferCmd m q s).MemSound := by
  unfold deferCmd; split
  · exact h
  · exact emit_sound (s := State.updCmd _ _ _ _) h _ _
theorem giveResult_sound {s : State} (h : s.MemSound) (c : Cmd) (bs : List Byte) : (giveResult c bs s).MemSound := by
  unfold giveResult
  split
  · exact writeMem_sound h _ _
  · exact h
theorem dropMemory_sound (s : State) : (dropMemory s).MemSound := wf_memOfCells _
theorem resetModule_sound (p : Power) (s : State) : (resetModule p s).MemSound := dropMemory_sound s
theorem applyWrites_sound {s : State} (h : s.MemSound) (ws : List (Nat × List Byte)) : (applyWrites ws s).MemSound :=
  foldl_keeps (P := State.MemSound) (fun _ _ h => writeMem_sound h _ _) _ h
theorem vecLeave_sound {s : State} (h : s.MemSound) (p : Nat) : (vecLeave p s).MemSound := by
  unfold vecLeave; dsimp only; split <;> exact h
theorem loadHerds_sound {s : State} (h : s.MemSound) (j : Nat) (J : Job) (g : Img) (e : LoadEnv) : (loadHerds j J g e s).MemSound := by
  have h1 : ((s.part J.part).herds.foldl (fun s h => clearMem (herdBase h) J.regionTotal s) (vecLeave J.part s)).MemSound :=
    foldl_keeps (P := State.MemSound) (fun _ _ h => clearMem_sound h _ _) _ (vecLeave_sound h _)
  unfold loadHerds
  dsimp only
  refine foldl_keeps (P := State.MemSound) (f := fun (s : State) (x : Nat × SyncObj) => s.setSync x.1 x.2) (fun _ _ h => h) _ ?_
  exact foldl_keeps (P := State.MemSound) (f := fun (s : State) t => (stopTile t s).setTile t (loadedTile j J (t % 32)))
    (fun _ _ h => h) _ (wf_load g e h1)

end Sys2Proof.Machine
end

