-- ==== Sys2Proof/Laws/TileWords.lean ====
section
/-! SUPPORT. The fields of a tile instruction word by format (Table 4-1): each field of a word built from its fields is
that field. -/

namespace Sys2Proof.Machine

/-- A bit field as quotient and remainder. -/
theorem bits_eq_div_mod (n lo len : Nat) : bits n lo len = n / 2 ^ lo % 2 ^ len := by
  simp [bits, Nat.shiftRight_eq_div_pow]

theorem regNo_val (r : Reg) : regNo r.val = r := by
  apply Fin.ext
  simp [regNo, Nat.mod_eq_of_lt r.isLt]

/-- A bit is the parity of the shifted number. -/
theorem bit_eq_div_mod (n i : Nat) : bit n i = decide (n / 2 ^ i % 2 = 1) := by
  simp [bit, Nat.testBit_eq_decide_div_mod_eq]

theorem wOp_regWord {op rd ra rb fn : Nat} (hop : op < 64) (hrd : rd < 32) (hra : ra < 32) (hrb : rb < 32) (hfn : fn < 2048) :
    wOp (regWord op rd ra rb fn) = op := by
  simp only [wOp, regWord, bits_eq_div_mod]
  omega

theorem wRd_regWord {op rd ra rb fn : Nat} (hrd : rd < 32) (hra : ra < 32) (hrb : rb < 32) (hfn : fn < 2048) :
    wRd (regWord op rd ra rb fn) = rd := by
  simp only [wRd, regWord, bits_eq_div_mod]
  omega

theorem wRa_regWord {op rd ra rb fn : Nat} (hra : ra < 32) (hrb : rb < 32) (hfn : fn < 2048) :
    wRa (regWord op rd ra rb fn) = ra := by
  simp only [wRa, regWord, bits_eq_div_mod]
  omega

theorem wRb_regWord {op rd ra rb fn : Nat} (hrb : rb < 32) (hfn : fn < 2048) :
    wRb (regWord op rd ra rb fn) = rb := by
  simp only [wRb, regWord, bits_eq_div_mod]
  omega

theorem wFn11_regWord {op rd ra rb fn : Nat} (hfn : fn < 2048) :
    wFn11 (regWord op rd ra rb fn) = fn := by
  simp only [wFn11, regWord, bits_eq_div_mod]
  omega

theorem wOp_triWord {op rd ra rb rc fn : Nat} (hop : op < 64) (hrd : rd < 32) (hra : ra < 32) (hrb : rb < 32) (hrc : rc < 32) (hfn : fn < 64) :
    wOp (triWord op rd ra rb rc fn) = op := by
  simp only [wOp, triWord, bits_eq_div_mod]
  omega

theorem wRd_triWord {op rd ra rb rc fn : Nat} (hrd : rd < 32) (hra : ra < 32) (hrb : rb < 32) (hrc : rc < 32) (hfn : fn < 64) :
    wRd (triWord op rd ra rb rc fn) = rd := by
  simp only [wRd, triWord, bits_eq_div_mod]
  omega

theorem wRa_triWord {op rd ra rb rc fn : Nat} (hra : ra < 32) (hrb : rb < 32) (hrc : rc < 32) (hfn : fn < 64) :
    wRa (triWord op rd ra rb rc fn) = ra := by
  simp only [wRa, triWord, bits_eq_div_mod]
  omega

theorem wRb_triWord {op rd ra rb rc fn : Nat} (hrb : rb < 32) (hrc : rc < 32) (hfn : fn < 64) :
    wRb (triWord op rd ra rb rc fn) = rb := by
  simp only [wRb, triWord, bits_eq_div_mod]
  omega

theorem wRc_triWord {op rd ra rb rc fn : Nat} (hrc : rc < 32) (hfn : fn < 64) :
    wRc (triWord op rd ra rb rc fn) = rc := by
  simp only [wRc, triWord, bits_eq_div_mod]
  omega

theorem wFn6_triWord {op rd ra rb rc fn : Nat} (hfn : fn < 64) :
    wFn6 (triWord op rd ra rb rc fn) = fn := by
  simp only [wFn6, triWord, bits_eq_div_mod]
  omega

theorem wOp_immWord {op rd ra imm : Nat} (hop : op < 64) (hrd : rd < 32) (hra : ra < 32) (hi : imm < 65536) :
    wOp (immWord op rd ra imm) = op := by
  simp only [wOp, immWord, bits_eq_div_mod]
  omega

theorem wRd_immWord {op rd ra imm : Nat} (hrd : rd < 32) (hra : ra < 32) (hi : imm < 65536) :
    wRd (immWord op rd ra imm) = rd := by
  simp only [wRd, immWord, bits_eq_div_mod]
  omega

theorem wRa_immWord {op rd ra imm : Nat} (hra : ra < 32) (hi : imm < 65536) :
    wRa (immWord op rd ra imm) = ra := by
  simp only [wRa, immWord, bits_eq_div_mod]
  omega

theorem wImm_immWord {op rd ra imm : Nat} (hi : imm < 65536) :
    wImm (immWord op rd ra imm) = imm := by
  simp only [wImm, immWord, bits_eq_div_mod]
  omega

theorem wOp_jmpWord {op rd disp : Nat} (hop : op < 64) (hrd : rd < 32) (hd : disp < 2097152) :
    wOp (jmpWord op rd disp) = op := by
  simp only [wOp, jmpWord, bits_eq_div_mod]
  omega

theorem wRd_jmpWord {op rd disp : Nat} (hrd : rd < 32) (hd : disp < 2097152) :
    wRd (jmpWord op rd disp) = rd := by
  simp only [wRd, jmpWord, bits_eq_div_mod]
  omega

theorem jmpWord_disp {op rd disp : Nat} (hd : disp < 2097152) : jmpWord op rd disp % 2097152 = disp := by
  simp only [jmpWord]
  omega

/-- The low 16 bits of an Imm word. -/
theorem immWord_imm {op rd ra imm : Nat} (hi : imm < 65536) : immWord op rd ra imm % 65536 = imm := by
  simp only [immWord]
  omega

theorem vecWord_wOp (v : Nat) (hv : v < 256) (dst sa sb sc : BitVec 4) (p z : Bool) :
    wOp (vecWord v dst sa sb sc p z) = 0x31 := by
  have := dst.isLt; have := sa.isLt; have := sb.isLt; have := sc.isLt; have := p.toNat_lt; have := z.toNat_lt
  simp only [wOp, vecWord, bits_eq_div_mod]
  omega

theorem vecWord_vop (v : Nat) (hv : v < 256) (dst sa sb sc : BitVec 4) (p z : Bool) :
    bits (vecWord v dst sa sb sc p z) 18 8 = v := by
  have := dst.isLt; have := sa.isLt; have := sb.isLt; have := sc.isLt; have := p.toNat_lt; have := z.toNat_lt
  simp only [vecWord, bits_eq_div_mod]
  omega

theorem vecWord_dst (v : Nat) (dst sa sb sc : BitVec 4) (p z : Bool) :
    bits (vecWord v dst sa sb sc p z) 14 4 = dst.toNat := by
  have := dst.isLt; have := sa.isLt; have := sb.isLt; have := sc.isLt; have := p.toNat_lt; have := z.toNat_lt
  simp only [vecWord, bits_eq_div_mod]
  omega

theorem vecWord_sa (v : Nat) (dst sa sb sc : BitVec 4) (p z : Bool) :
    bits (vecWord v dst sa sb sc p z) 10 4 = sa.toNat := by
  have := dst.isLt; have := sa.isLt; have := sb.isLt; have := sc.isLt; have := p.toNat_lt; have := z.toNat_lt
  simp only [vecWord, bits_eq_div_mod]
  omega

theorem vecWord_sb (v : Nat) (dst sa sb sc : BitVec 4) (p z : Bool) :
    bits (vecWord v dst sa sb sc p z) 6 4 = sb.toNat := by
  have := dst.isLt; have := sa.isLt; have := sb.isLt; have := sc.isLt; have := p.toNat_lt; have := z.toNat_lt
  simp only [vecWord, bits_eq_div_mod]
  omega

theorem vecWord_sc (v : Nat) (dst sa sb sc : BitVec 4) (p z : Bool) :
    bits (vecWord v dst sa sb sc p z) 2 4 = sc.toNat := by
  have := dst.isLt; have := sa.isLt; have := sb.isLt; have := sc.isLt; have := p.toNat_lt; have := z.toNat_lt
  simp only [vecWord, bits_eq_div_mod]
  omega

theorem vecWord_p (v : Nat) (dst sa sb sc : BitVec 4) (p z : Bool) :
    bit (vecWord v dst sa sb sc p z) 1 = p := by
  have := dst.isLt; have := sa.isLt; have := sb.isLt; have := sc.isLt
  simp only [vecWord, bit_eq_div_mod]
  cases p <;> cases z <;> simp only [Bool.toNat_true, Bool.toNat_false, decide_eq_true_eq, decide_eq_false_iff_not] <;> omega

theorem vecWord_z (v : Nat) (dst sa sb sc : BitVec 4) (p z : Bool) :
    bit (vecWord v dst sa sb sc p z) 0 = z := by
  have := dst.isLt; have := sa.isLt; have := sb.isLt; have := sc.isLt
  simp only [vecWord, bit_eq_div_mod]
  cases p <;> cases z <;> simp only [Bool.toNat_true, Bool.toNat_false, decide_eq_true_eq, decide_eq_false_iff_not] <;> omega

end Sys2Proof.Machine
end

