-- ==== Sys2Proof/Laws/PerInstr.lean ====
section
/-! SUPPORT. What holds of every command as syntax, one lemma per constructor: an instruction word that a command has is a
32-bit number (Table 4-1). -/

namespace Sys2Proof.Machine

theorem regWord_lt {op rd ra rb fn : Nat} (ho : op < 64) (h1 : rd < 32) (h2 : ra < 32) (h3 : rb < 32) (h4 : fn < 2048) :
    regWord op rd ra rb fn < 2 ^ 32 := by
  unfold regWord; omega
theorem triWord_lt {op rd ra rb rc fn : Nat} (ho : op < 64) (h1 : rd < 32) (h2 : ra < 32) (h3 : rb < 32) (h4 : rc < 32) (h5 : fn < 64) :
    triWord op rd ra rb rc fn < 2 ^ 32 := by
  unfold triWord; omega
theorem immWord_lt {op rd ra imm : Nat} (ho : op < 64) (h1 : rd < 32) (h2 : ra < 32) (h3 : imm < 65536) :
    immWord op rd ra imm < 2 ^ 32 := by
  unfold immWord; omega
theorem jmpWord_lt {op rd disp : Nat} (ho : op < 64) (h1 : rd < 32) (h2 : disp < 2097152) : jmpWord op rd disp < 2 ^ 32 := by
  unfold jmpWord; omega
theorem vecWord_lt {v : Nat} (hv : v < 256) (dst sa sb sc : BitVec 4) (p z : Bool) : vecWord v dst sa sb sc p z < 2 ^ 32 := by
  have := Bool.toNat_le p
  have := Bool.toNat_le z
  have := dst.isLt
  have := sa.isLt
  have := sb.isLt
  have := sc.isLt
  unfold vecWord
  omega

end Sys2Proof.Machine

namespace Sys2Proof.Laws.WordSize

open Sys2Proof.Machine

/-- A word of the command is below 2^32. -/
def Statement (i : Instr) : Prop := ∀ w, tileCode i = some w → w < 2 ^ 32

theorem of_none {i : Instr} (h : tileCode i = none) : Statement i := fun w hw => by rw [h] at hw; cases hw
theorem of_lt {i : Instr} {n : Nat} (h : tileCode i = some n) (hn : n < 2 ^ 32) : Statement i := fun w hw => by
  rw [h] at hw; cases hw; exact hn

theorem add (t : Nat) (rd ra rb : Reg) : Statement (.add t rd ra rb) := of_lt rfl (regWord_lt (by decide) rd.isLt ra.isLt rb.isLt (by decide))
theorem sub (t : Nat) (rd ra rb : Reg) : Statement (.sub t rd ra rb) := of_lt rfl (regWord_lt (by decide) rd.isLt ra.isLt rb.isLt (by decide))
theorem and (t : Nat) (rd ra rb : Reg) : Statement (.and t rd ra rb) := of_lt rfl (regWord_lt (by decide) rd.isLt ra.isLt rb.isLt (by decide))
theorem or (t : Nat) (rd ra rb : Reg) : Statement (.or t rd ra rb) := of_lt rfl (regWord_lt (by decide) rd.isLt ra.isLt rb.isLt (by decide))
theorem xor (t : Nat) (rd ra rb : Reg) : Statement (.xor t rd ra rb) := of_lt rfl (regWord_lt (by decide) rd.isLt ra.isLt rb.isLt (by decide))
theorem shl (t : Nat) (rd ra rb : Reg) : Statement (.shl t rd ra rb) := of_lt rfl (regWord_lt (by decide) rd.isLt ra.isLt rb.isLt (by decide))
theorem shr (t : Nat) (rd ra rb : Reg) : Statement (.shr t rd ra rb) := of_lt rfl (regWord_lt (by decide) rd.isLt ra.isLt rb.isLt (by decide))
theorem shra (t : Nat) (rd ra rb : Reg) : Statement (.shra t rd ra rb) := of_lt rfl (regWord_lt (by decide) rd.isLt ra.isLt rb.isLt (by decide))
theorem lts (t : Nat) (rd ra rb : Reg) : Statement (.lts t rd ra rb) := of_lt rfl (regWord_lt (by decide) rd.isLt ra.isLt rb.isLt (by decide))
theorem ltu (t : Nat) (rd ra rb : Reg) : Statement (.ltu t rd ra rb) := of_lt rfl (regWord_lt (by decide) rd.isLt ra.isLt rb.isLt (by decide))
theorem min (t : Nat) (rd ra rb : Reg) : Statement (.min t rd ra rb) := of_lt rfl (regWord_lt (by decide) rd.isLt ra.isLt rb.isLt (by decide))
theorem minu (t : Nat) (rd ra rb : Reg) : Statement (.minu t rd ra rb) := of_lt rfl (regWord_lt (by decide) rd.isLt ra.isLt rb.isLt (by decide))
theorem max (t : Nat) (rd ra rb : Reg) : Statement (.max t rd ra rb) := of_lt rfl (regWord_lt (by decide) rd.isLt ra.isLt rb.isLt (by decide))
theorem maxu (t : Nat) (rd ra rb : Reg) : Statement (.maxu t rd ra rb) := of_lt rfl (regWord_lt (by decide) rd.isLt ra.isLt rb.isLt (by decide))
theorem mul (t : Nat) (rd ra rb : Reg) : Statement (.mul t rd ra rb) := of_lt rfl (regWord_lt (by decide) rd.isLt ra.isLt rb.isLt (by decide))
theorem mulhs (t : Nat) (rd ra rb : Reg) : Statement (.mulhs t rd ra rb) := of_lt rfl (regWord_lt (by decide) rd.isLt ra.isLt rb.isLt (by decide))
theorem mulhu (t : Nat) (rd ra rb : Reg) : Statement (.mulhu t rd ra rb) := of_lt rfl (regWord_lt (by decide) rd.isLt ra.isLt rb.isLt (by decide))
theorem divs (t : Nat) (rd ra rb : Reg) : Statement (.divs t rd ra rb) := of_lt rfl (regWord_lt (by decide) rd.isLt ra.isLt rb.isLt (by decide))
theorem divu (t : Nat) (rd ra rb : Reg) : Statement (.divu t rd ra rb) := of_lt rfl (regWord_lt (by decide) rd.isLt ra.isLt rb.isLt (by decide))
theorem rems (t : Nat) (rd ra rb : Reg) : Statement (.rems t rd ra rb) := of_lt rfl (regWord_lt (by decide) rd.isLt ra.isLt rb.isLt (by decide))
theorem remu (t : Nat) (rd ra rb : Reg) : Statement (.remu t rd ra rb) := of_lt rfl (regWord_lt (by decide) rd.isLt ra.isLt rb.isLt (by decide))
theorem addi (t : Nat) (rd ra : Reg) (imm : BitVec 16) : Statement (.addi t rd ra imm) := of_lt rfl (immWord_lt (by decide) rd.isLt ra.isLt imm.isLt)
theorem andi (t : Nat) (rd ra : Reg) (imm : BitVec 16) : Statement (.andi t rd ra imm) := of_lt rfl (immWord_lt (by decide) rd.isLt ra.isLt imm.isLt)
theorem ori (t : Nat) (rd ra : Reg) (imm : BitVec 16) : Statement (.ori t rd ra imm) := of_lt rfl (immWord_lt (by decide) rd.isLt ra.isLt imm.isLt)
theorem xori (t : Nat) (rd ra : Reg) (imm : BitVec 16) : Statement (.xori t rd ra imm) := of_lt rfl (immWord_lt (by decide) rd.isLt ra.isLt imm.isLt)
theorem ltsi (t : Nat) (rd ra : Reg) (imm : BitVec 16) : Statement (.ltsi t rd ra imm) := of_lt rfl (immWord_lt (by decide) rd.isLt ra.isLt imm.isLt)
theorem ltui (t : Nat) (rd ra : Reg) (imm : BitVec 16) : Statement (.ltui t rd ra imm) := of_lt rfl (immWord_lt (by decide) rd.isLt ra.isLt imm.isLt)
theorem shli (t : Nat) (rd ra : Reg) (imm : BitVec 16) : Statement (.shli t rd ra imm) := of_lt rfl (immWord_lt (by decide) rd.isLt ra.isLt imm.isLt)
theorem shri (t : Nat) (rd ra : Reg) (imm : BitVec 16) : Statement (.shri t rd ra imm) := of_lt rfl (immWord_lt (by decide) rd.isLt ra.isLt imm.isLt)
theorem shrai (t : Nat) (rd ra : Reg) (imm : BitVec 16) : Statement (.shrai t rd ra imm) := of_lt rfl (immWord_lt (by decide) rd.isLt ra.isLt imm.isLt)
theorem ldhi (t : Nat) (rd ra : Reg) (imm : BitVec 16) : Statement (.ldhi t rd ra imm) := of_lt rfl (immWord_lt (by decide) rd.isLt ra.isLt imm.isLt)
theorem ldb (t : Nat) (rd ra : Reg) (imm : BitVec 16) : Statement (.ldb t rd ra imm) := of_lt rfl (immWord_lt (by decide) rd.isLt ra.isLt imm.isLt)
theorem ldbu (t : Nat) (rd ra : Reg) (imm : BitVec 16) : Statement (.ldbu t rd ra imm) := of_lt rfl (immWord_lt (by decide) rd.isLt ra.isLt imm.isLt)
theorem ldh (t : Nat) (rd ra : Reg) (imm : BitVec 16) : Statement (.ldh t rd ra imm) := of_lt rfl (immWord_lt (by decide) rd.isLt ra.isLt imm.isLt)
theorem ldhu (t : Nat) (rd ra : Reg) (imm : BitVec 16) : Statement (.ldhu t rd ra imm) := of_lt rfl (immWord_lt (by decide) rd.isLt ra.isLt imm.isLt)
theorem ldw (t : Nat) (rd ra : Reg) (imm : BitVec 16) : Statement (.ldw t rd ra imm) := of_lt rfl (immWord_lt (by decide) rd.isLt ra.isLt imm.isLt)
theorem ldp (t : Nat) (rd ra : Reg) (imm : BitVec 16) : Statement (.ldp t rd ra imm) := of_lt rfl (immWord_lt (by decide) rd.isLt ra.isLt imm.isLt)
theorem stb (t : Nat) (rd ra : Reg) (imm : BitVec 16) : Statement (.stb t rd ra imm) := of_lt rfl (immWord_lt (by decide) rd.isLt ra.isLt imm.isLt)
theorem sth (t : Nat) (rd ra : Reg) (imm : BitVec 16) : Statement (.sth t rd ra imm) := of_lt rfl (immWord_lt (by decide) rd.isLt ra.isLt imm.isLt)
theorem stw (t : Nat) (rd ra : Reg) (imm : BitVec 16) : Statement (.stw t rd ra imm) := of_lt rfl (immWord_lt (by decide) rd.isLt ra.isLt imm.isLt)
theorem stp (t : Nat) (rd ra : Reg) (imm : BitVec 16) : Statement (.stp t rd ra imm) := of_lt rfl (immWord_lt (by decide) rd.isLt ra.isLt imm.isLt)
theorem beq (t : Nat) (ra rb : Reg) (disp : BitVec 16) : Statement (.beq t ra rb disp) := of_lt rfl (immWord_lt (by decide) ra.isLt rb.isLt disp.isLt)
theorem bne (t : Nat) (ra rb : Reg) (disp : BitVec 16) : Statement (.bne t ra rb disp) := of_lt rfl (immWord_lt (by decide) ra.isLt rb.isLt disp.isLt)
theorem blts (t : Nat) (ra rb : Reg) (disp : BitVec 16) : Statement (.blts t ra rb disp) := of_lt rfl (immWord_lt (by decide) ra.isLt rb.isLt disp.isLt)
theorem bges (t : Nat) (ra rb : Reg) (disp : BitVec 16) : Statement (.bges t ra rb disp) := of_lt rfl (immWord_lt (by decide) ra.isLt rb.isLt disp.isLt)
theorem bltu (t : Nat) (ra rb : Reg) (disp : BitVec 16) : Statement (.bltu t ra rb disp) := of_lt rfl (immWord_lt (by decide) ra.isLt rb.isLt disp.isLt)
theorem bgeu (t : Nat) (ra rb : Reg) (disp : BitVec 16) : Statement (.bgeu t ra rb disp) := of_lt rfl (immWord_lt (by decide) ra.isLt rb.isLt disp.isLt)
theorem jmpl (t : Nat) (rd : Reg) (disp : BitVec 21) : Statement (.jmpl t rd disp) := of_lt rfl (jmpWord_lt (by decide) rd.isLt disp.isLt)
theorem jmpr (t : Nat) (rd ra : Reg) (imm : BitVec 16) : Statement (.jmpr t rd ra imm) := of_lt rfl (immWord_lt (by decide) rd.isLt ra.isLt imm.isLt)
theorem illegalInstruction (t : Nat) (w : Word) : Statement (.illegalInstruction t w) := of_none rfl
theorem endProgram (t : Nat) : Statement (.endProgram t) := of_lt rfl (regWord_lt (by decide) (by decide) (by decide) (by decide) (by decide))
theorem brk (t : Nat) : Statement (.brk t) := of_lt rfl (regWord_lt (by decide) (by decide) (by decide) (by decide) (by decide))
theorem ctr (t : Nat) (rd ra : Reg) (imm : BitVec 16) : Statement (.ctr t rd ra imm) := of_lt rfl (immWord_lt (by decide) rd.isLt ra.isLt imm.isLt)
theorem crr (t : Nat) (rd ra : Reg) (imm : BitVec 16) : Statement (.crr t rd ra imm) := of_lt rfl (immWord_lt (by decide) rd.isLt ra.isLt imm.isLt)
theorem crw (t : Nat) (rd ra : Reg) (imm : BitVec 16) : Statement (.crw t rd ra imm) := of_lt rfl (immWord_lt (by decide) rd.isLt ra.isLt imm.isLt)
theorem hint (t : Nat) (imm : BitVec 16) : Statement (.hint t imm) := of_lt rfl (immWord_lt (by decide) (by decide) (by decide) imm.isLt)
theorem twait (t : Nat) (ra : Reg) : Statement (.twait t ra) := of_lt rfl (regWord_lt (by decide) (by decide) ra.isLt (by decide) (by decide))
theorem ttest (t : Nat) (rd ra : Reg) : Statement (.ttest t rd ra) := of_lt rfl (regWord_lt (by decide) rd.isLt ra.isLt (by decide) (by decide))
theorem tlast (t : Nat) (rd ra : Reg) : Statement (.tlast t rd ra) := of_lt rfl (regWord_lt (by decide) rd.isLt ra.isLt (by decide) (by decide))
theorem mxi (t : Nat) (rd ra : Reg) : Statement (.mxi t rd ra) := of_lt rfl (regWord_lt (by decide) rd.isLt ra.isLt (by decide) (by decide))
theorem matrixOpComplete (t : Nat) : Statement (.matrixOpComplete t) := of_none rfl
theorem ftqPush (t : Nat) : Statement (.ftqPush t) := of_none rfl
theorem setvl (t : Nat) (rd ra : Reg) : Statement (.setvl t rd ra) := of_lt rfl (regWord_lt (by decide) rd.isLt ra.isLt (by decide) (by decide))
theorem vstr (t : Nat) (k : Fin 6) (ra : Reg) : Statement (.vstr t k ra) := of_lt rfl (regWord_lt (by decide) (by decide) ra.isLt (by decide) (by omega))
theorem vmov (t : Nat) (dst sa sb sc : BitVec 4) (p z : Bool) : Statement (.vmov t dst sa sb sc p z) := of_lt rfl (vecWord_lt (by decide) ..)
theorem vadd (t : Nat) (dst sa sb sc : BitVec 4) (p z : Bool) : Statement (.vadd t dst sa sb sc p z) := of_lt rfl (vecWord_lt (by decide) ..)
theorem vsub (t : Nat) (dst sa sb sc : BitVec 4) (p z : Bool) : Statement (.vsub t dst sa sb sc p z) := of_lt rfl (vecWord_lt (by decide) ..)
theorem vmul (t : Nat) (dst sa sb sc : BitVec 4) (p z : Bool) : Statement (.vmul t dst sa sb sc p z) := of_lt rfl (vecWord_lt (by decide) ..)
theorem vfma (t : Nat) (dst sa sb sc : BitVec 4) (p z : Bool) : Statement (.vfma t dst sa sb sc p z) := of_lt rfl (vecWord_lt (by decide) ..)
theorem vmin (t : Nat) (dst sa sb sc : BitVec 4) (p z : Bool) : Statement (.vmin t dst sa sb sc p z) := of_lt rfl (vecWord_lt (by decide) ..)
theorem vmax (t : Nat) (dst sa sb sc : BitVec 4) (p z : Bool) : Statement (.vmax t dst sa sb sc p z) := of_lt rfl (vecWord_lt (by decide) ..)
theorem vabs (t : Nat) (dst sa sb sc : BitVec 4) (p z : Bool) : Statement (.vabs t dst sa sb sc p z) := of_lt rfl (vecWord_lt (by decide) ..)
theorem vneg (t : Nat) (dst sa sb sc : BitVec 4) (p z : Bool) : Statement (.vneg t dst sa sb sc p z) := of_lt rfl (vecWord_lt (by decide) ..)
theorem vdiv (t : Nat) (dst sa sb sc : BitVec 4) (p z : Bool) : Statement (.vdiv t dst sa sb sc p z) := of_lt rfl (vecWord_lt (by decide) ..)
theorem vsqrt (t : Nat) (dst sa sb sc : BitVec 4) (p z : Bool) : Statement (.vsqrt t dst sa sb sc p z) := of_lt rfl (vecWord_lt (by decide) ..)
theorem vrelu (t : Nat) (dst sa sb sc : BitVec 4) (p z : Bool) : Statement (.vrelu t dst sa sb sc p z) := of_lt rfl (vecWord_lt (by decide) ..)
theorem vclamp (t : Nat) (dst sa sb sc : BitVec 4) (p z : Bool) : Statement (.vclamp t dst sa sb sc p z) := of_lt rfl (vecWord_lt (by decide) ..)
theorem vexp (t : Nat) (dst sa sb sc : BitVec 4) (p z : Bool) : Statement (.vexp t dst sa sb sc p z) := of_lt rfl (vecWord_lt (by decide) ..)
theorem vexp2 (t : Nat) (dst sa sb sc : BitVec 4) (p z : Bool) : Statement (.vexp2 t dst sa sb sc p z) := of_lt rfl (vecWord_lt (by decide) ..)
theorem vlog (t : Nat) (dst sa sb sc : BitVec 4) (p z : Bool) : Statement (.vlog t dst sa sb sc p z) := of_lt rfl (vecWord_lt (by decide) ..)
theorem vrcp (t : Nat) (dst sa sb sc : BitVec 4) (p z : Bool) : Statement (.vrcp t dst sa sb sc p z) := of_lt rfl (vecWord_lt (by decide) ..)
theorem vrsqrt (t : Nat) (dst sa sb sc : BitVec 4) (p z : Bool) : Statement (.vrsqrt t dst sa sb sc p z) := of_lt rfl (vecWord_lt (by decide) ..)
theorem vtanh (t : Nat) (dst sa sb sc : BitVec 4) (p z : Bool) : Statement (.vtanh t dst sa sb sc p z) := of_lt rfl (vecWord_lt (by decide) ..)
theorem vsigm (t : Nat) (dst sa sb sc : BitVec 4) (p z : Bool) : Statement (.vsigm t dst sa sb sc p z) := of_lt rfl (vecWord_lt (by decide) ..)
theorem vgelu (t : Nat) (dst sa sb sc : BitVec 4) (p z : Bool) : Statement (.vgelu t dst sa sb sc p z) := of_lt rfl (vecWord_lt (by decide) ..)
theorem vsilu (t : Nat) (dst sa sb sc : BitVec 4) (p z : Bool) : Statement (.vsilu t dst sa sb sc p z) := of_lt rfl (vecWord_lt (by decide) ..)
theorem vcmpgt (t : Nat) (dst sa sb sc : BitVec 4) (p z : Bool) : Statement (.vcmpgt t dst sa sb sc p z) := of_lt rfl (vecWord_lt (by decide) ..)
theorem vcmpge (t : Nat) (dst sa sb sc : BitVec 4) (p z : Bool) : Statement (.vcmpge t dst sa sb sc p z) := of_lt rfl (vecWord_lt (by decide) ..)
theorem vcmpeq (t : Nat) (dst sa sb sc : BitVec 4) (p z : Bool) : Statement (.vcmpeq t dst sa sb sc p z) := of_lt rfl (vecWord_lt (by decide) ..)
theorem vcmpne (t : Nat) (dst sa sb sc : BitVec 4) (p z : Bool) : Statement (.vcmpne t dst sa sb sc p z) := of_lt rfl (vecWord_lt (by decide) ..)
theorem vsel (t : Nat) (dst sa sb sc : BitVec 4) (p z : Bool) : Statement (.vsel t dst sa sb sc p z) := of_lt rfl (vecWord_lt (by decide) ..)
theorem vsum64 (t : Nat) (dst sa sb sc : BitVec 4) (p z : Bool) : Statement (.vsum64 t dst sa sb sc p z) := of_lt rfl (vecWord_lt (by decide) ..)
theorem vsum64a (t : Nat) (dst sa sb sc : BitVec 4) (p z : Bool) : Statement (.vsum64a t dst sa sb sc p z) := of_lt rfl (vecWord_lt (by decide) ..)
theorem vssq64 (t : Nat) (dst sa sb sc : BitVec 4) (p z : Bool) : Statement (.vssq64 t dst sa sb sc p z) := of_lt rfl (vecWord_lt (by decide) ..)
theorem vssq64a (t : Nat) (dst sa sb sc : BitVec 4) (p z : Bool) : Statement (.vssq64a t dst sa sb sc p z) := of_lt rfl (vecWord_lt (by decide) ..)
theorem vdot64 (t : Nat) (dst sa sb sc : BitVec 4) (p z : Bool) : Statement (.vdot64 t dst sa sb sc p z) := of_lt rfl (vecWord_lt (by decide) ..)
theorem vdot64a (t : Nat) (dst sa sb sc : BitVec 4) (p z : Bool) : Statement (.vdot64a t dst sa sb sc p z) := of_lt rfl (vecWord_lt (by decide) ..)
theorem vmaxr (t : Nat) (dst sa sb sc : BitVec 4) (p z : Bool) : Statement (.vmaxr t dst sa sb sc p z) := of_lt rfl (vecWord_lt (by decide) ..)
theorem vsegr (t : Nat) (dst sa sb sc : BitVec 4) (p z : Bool) : Statement (.vsegr t dst sa sb sc p z) := of_lt rfl (vecWord_lt (by decide) ..)
theorem vsel24 (t : Nat) (dst sa sb sc : BitVec 4) (p z : Bool) : Statement (.vsel24 t dst sa sb sc p z) := of_lt rfl (vecWord_lt (by decide) ..)
theorem vsel24q (t : Nat) (dst sa sb sc : BitVec 4) (p z : Bool) : Statement (.vsel24q t dst sa sb sc p z) := of_lt rfl (vecWord_lt (by decide) ..)
theorem vectorOpComplete (t : Nat) : Statement (.vectorOpComplete t) := of_none rfl
theorem fill (t : Nat) (rd ra rb rc : Reg) : Statement (.fill t rd ra rb rc) := of_lt rfl (triWord_lt (by decide) rd.isLt ra.isLt rb.isLt rc.isLt (by decide))
theorem copy (t : Nat) (rd ra rb rc : Reg) : Statement (.copy t rd ra rb rc) := of_lt rfl (triWord_lt (by decide) rd.isLt ra.isLt rb.isLt rc.isLt (by decide))
theorem blockOpComplete (t : Nat) : Statement (.blockOpComplete t) := of_none rfl
theorem move (t : Nat) (rd ra : Reg) : Statement (.move t rd ra) := of_lt rfl (regWord_lt (by decide) rd.isLt ra.isLt (by decide) (by decide))
theorem wopen (t : Nat) (w : Win) : Statement (.wopen t w) := of_lt rfl (immWord_lt (by decide) (by decide) (by decide) (by omega))
theorem wclose (t : Nat) (w : Win) : Statement (.wclose t w) := of_lt rfl (immWord_lt (by decide) (by decide) (by decide) (by omega))
theorem put (t : Nat) (rd ra rb : Reg) : Statement (.put t rd ra rb) := of_lt rfl (regWord_lt (by decide) rd.isLt ra.isLt rb.isLt (by decide))
theorem send (t : Nat) (rd ra rb rc : Reg) : Statement (.send t rd ra rb rc) := of_lt rfl (triWord_lt (by decide) rd.isLt ra.isLt rb.isLt rc.isLt (by decide))
theorem hset (t : Nat) (ra rb : Reg) : Statement (.hset t ra rb) := of_lt rfl (triWord_lt (by decide) (by decide) ra.isLt rb.isLt (by decide) (by decide))
theorem rqhead (t : Nat) (rd : Reg) : Statement (.rqhead t rd) := of_lt rfl (triWord_lt (by decide) rd.isLt (by decide) (by decide) (by decide) (by decide))
theorem rqpop (t : Nat) : Statement (.rqpop t) := of_lt rfl (triWord_lt (by decide) (by decide) (by decide) (by decide) (by decide) (by decide))
theorem port (t : Nat) (ra : Reg) : Statement (.port t ra) := of_lt rfl (triWord_lt (by decide) (by decide) ra.isLt (by decide) (by decide) (by decide))
theorem sig (t : Nat) (ra rb : Reg) : Statement (.sig t ra rb) := of_lt rfl (regWord_lt (by decide) (by decide) ra.isLt rb.isLt (by decide))
theorem arrive (t : Nat) (rd ra : Reg) : Statement (.arrive t rd ra) := of_lt rfl (regWord_lt (by decide) rd.isLt ra.isLt (by decide) (by decide))
theorem swait (t : Nat) (ra rb : Reg) : Statement (.swait t ra rb) := of_lt rfl (regWord_lt (by decide) (by decide) ra.isLt rb.isLt (by decide))
theorem sread (t : Nat) (rd ra : Reg) (loss : ReadLoss) : Statement (.sread t rd ra loss) := by
  cases loss with
  | arrives => exact of_lt rfl (regWord_lt (by decide) rd.isLt ra.isLt (by decide) (by decide))
  | request => exact of_none rfl
  | answer => exact of_none rfl
theorem sconf (t : Nat) (ra rb : Reg) : Statement (.sconf t ra rb) := of_lt rfl (regWord_lt (by decide) (by decide) ra.isLt rb.isLt (by decide))
theorem tileRunStart (t : Nat) : Statement (.tileRunStart t) := of_none rfl
theorem tileRunStop (t : Nat) : Statement (.tileRunStop t) := of_none rfl
theorem windowDrainEnd (t : Nat) : Statement (.windowDrainEnd t) := of_none rfl
theorem remoteWriteCheck (id : Nat) : Statement (.remoteWriteCheck id) := of_none rfl
theorem remoteWriteCommit (id : Nat) (ok : Bool) : Statement (.remoteWriteCommit id ok) := of_none rfl
theorem sumContribution (id : Nat) (ok : Bool) : Statement (.sumContribution id ok) := of_none rfl
theorem reservationRequest (id : Nat) (ok : Bool) : Statement (.reservationRequest id ok) := of_none rfl
theorem portAnswer (id : Nat) (ok : Bool) : Statement (.portAnswer id ok) := of_none rfl
theorem retryTimer (id : Nat) : Statement (.retryTimer id) := of_none rfl
theorem messagePacketArrival (id : Nat) (ok : Bool) : Statement (.messagePacketArrival id ok) := of_none rfl
theorem packetResend (id : Nat) : Statement (.packetResend id) := of_none rfl
theorem deliveryCommit (id : Nat) : Statement (.deliveryCommit id) := of_none rfl
theorem withdrawal (id : Nat) (ok : Bool) : Statement (.withdrawal id ok) := of_none rfl
theorem syncSignal (id : Nat) (ok : Bool) : Statement (.syncSignal id ok) := of_none rfl
theorem arriveAtObject (id : Nat) (ok : Bool) : Statement (.arriveAtObject id ok) := of_none rfl
theorem arriveAnswer (id : Nat) (ok : Bool) : Statement (.arriveAnswer id ok) := of_none rfl
theorem syncWaitAtObject (id : Nat) (ok : Bool) : Statement (.syncWaitAtObject id ok) := of_none rfl
theorem syncWaitResume (t : Nat) (ok : Bool) : Statement (.syncWaitResume t ok) := of_none rfl
theorem beatLoRead (t : Nat) : Statement (.beatLoRead t) := of_none rfl
theorem skipCountLoRead (t : Nat) (slot : Fin 32) (which : Fin 3) : Statement (.skipCountLoRead t slot which) := of_none rfl
theorem vecCountLoRead (t : Nat) (sat : Bool) : Statement (.vecCountLoRead t sat) := of_none rfl
theorem ftqClr (t : Nat) : Statement (.ftqClr t) := of_none rfl
theorem lossPost (t : Nat) (step : Word) : Statement (.lossPost t step) := of_none rfl
theorem hbmRefresh (stack : Stack) : Statement (.hbmRefresh stack) := of_none rfl
theorem ddrRefresh (channel : Channel) (hot : Bool) : Statement (.ddrRefresh channel hot) := of_none rfl
theorem patrolScrub (u : Fin 32) (passEnd : Bool) (found : Dram) (addr : Nat) : Statement (.patrolScrub u passEnd found addr) := of_none rfl
theorem cxlmemHostAccess (off : Nat) (write : Bool) (data : List Byte) (found : Dram) : Statement (.cxlmemHostAccess off write data found) := of_none rfl
theorem ueSrcRead (u : Fin 32) : Statement (.ueSrcRead u) := of_none rfl
theorem moverTransferComplete (t num : Nat) : Statement (.moverTransferComplete t num) := of_none rfl
theorem memBlockReadAnswer (t num n : Nat) (crcOk : Bool) : Statement (.memBlockReadAnswer t num n crcOk) := of_none rfl
theorem memBlockRequest (t num n : Nat) (found : Dram) : Statement (.memBlockRequest t num n found) := of_none rfl
theorem hostWindowResponse (t num n : Nat) (error : Bool) (data : List Byte) : Statement (.hostWindowResponse t num n error data) := of_none rfl
theorem cxlCompletionTimeout (t num n : Nat) : Statement (.cxlCompletionTimeout t num n) := of_none rfl
theorem contributionBlock (t num n : Nat) (crcOk : Bool) (hits : List StackHit) : Statement (.contributionBlock t num n crcOk hits) := of_none rfl
theorem poolWaitEnd (stack : Stack) (e : Fin 64) (clocks : Nat) (hits : List StackHit) : Statement (.poolWaitEnd stack e clocks hits) := of_none rfl
theorem ringPacket (stack : Stack) (link : LinkId) (tag step seg hop : Nat) (gather nf : Bool) (data : List Nat) (hits : List StackHit) : Statement (.ringPacket stack link tag step seg hop gather nf data hits) := of_none rfl
theorem nfReadyWrite (j : BitVec 8) (hits : List StackHit) : Statement (.nfReadyWrite j hits) := of_none rfl
theorem kuAcceptLoRead (stack : Stack) : Statement (.kuAcceptLoRead stack) := of_none rfl
theorem commitEnd (stack : Stack) (e : Fin 64) (hits : List StackHit) : Statement (.commitEnd stack e hits) := of_none rfl
theorem digestReceived (link : LinkId) (stack : Stack) (e : Fin 64) (step cnt value : Nat) : Statement (.digestReceived link stack e step cnt value) := of_none rfl
theorem linkBlockArrival (link : LinkId) (header : BitVec 128) (payload : List Byte) (code : DWord) (parity : Bool) : Statement (.linkBlockArrival link header payload code parity) := of_none rfl
theorem linkRetrain (link : LinkId) (lockLost : Bool) : Statement (.linkRetrain link lockLost) := of_none rfl
theorem retrainEnd (link : LinkId) : Statement (.retrainEnd link) := of_none rfl
theorem linkFailTimeout (link : LinkId) : Statement (.linkFailTimeout link) := of_none rfl
theorem orientationStep (link : LinkId) : Statement (.orientationStep link) := of_none rfl
theorem linkUp (link : LinkId) (serial : DWord) (farLink : LinkId) (farFace : Fin 8) : Statement (.linkUp link serial farLink farFace) := of_none rfl
theorem linkWriteArrival (link : LinkId) (addr pitch rows rowBytes : Nat) : Statement (.linkWriteArrival link addr pitch rows rowBytes) := of_none rfl
theorem landingSignal (link : LinkId) : Statement (.landingSignal link) := of_none rfl
theorem linkStepAdvance (j : BitVec 8) : Statement (.linkStepAdvance j) := of_none rfl
theorem jobAbortReceived (link : LinkId) (origin : Fin 4096) (step : Nat) : Statement (.jobAbortReceived link origin step) := of_none rfl
theorem lightLoss (link : LinkId) (light : BitVec 4) : Statement (.lightLoss link light) := of_none rfl
theorem laserFault (slot : Fin 24) (shorted : Bool) : Statement (.laserFault slot shorted) := of_none rfl
theorem laserInsert (slot : Fin 24) : Statement (.laserInsert slot) := of_none rfl
theorem trainingPatternReceived (link : LinkId) : Statement (.trainingPatternReceived link) := of_none rfl
theorem lkTxLoRead (link : LinkId) : Statement (.lkTxLoRead link) := of_none rfl
theorem checkpointCopyEnd (j : BitVec 8) (die : Fin 4) (e : Fin 64) (hits : List StackHit) : Statement (.checkpointCopyEnd j die e hits) := of_none rfl
theorem commitRequest (stack : Stack) (e : Fin 64) (hits : List StackHit) : Statement (.commitRequest stack e hits) := of_none rfl
theorem commitRequestResume (stack : Stack) (e : Fin 64) (hits : List StackHit) : Statement (.commitRequestResume stack e hits) := of_none rfl
theorem endToEndAnswer (link : LinkId) (ok : Bool) : Statement (.endToEndAnswer link ok) := of_none rfl
theorem buddySlotRequest (link : LinkId) (step : Nat) (hits : List StackHit) : Statement (.buddySlotRequest link step hits) := of_none rfl
theorem droop (domain : Nat) : Statement (.droop domain) := of_none rfl
theorem undervoltage (domain mv : Nat) : Statement (.undervoltage domain mv) := of_none rfl
theorem handshakeStall (unit us : Nat) (parts : List (Fin 17)) : Statement (.handshakeStall unit us parts) := of_none rfl
theorem railSettled (domain : Nat) : Statement (.railSettled domain) := of_none rfl
theorem marginDailyLower : Statement (.marginDailyLower) := of_none rfl
theorem wearRecord (interrupted : Bool) : Statement (.wearRecord interrupted) := of_none rfl
theorem chamoisSample (other : Nat) (temps : List QuadTemp) (hbmTemps : List StackTemp) (slacks : List SlackReading) : Statement (.chamoisSample other temps hbmTemps slacks) := of_none rfl
theorem energyWindow (measured : Nat) : Statement (.energyWindow measured) := of_none rfl
theorem releaseReport (j : BitVec 8) : Statement (.releaseReport j) := of_none rfl
theorem hardThermalTrip (sensor : Nat) (reading : Int) : Statement (.hardThermalTrip sensor reading) := of_none rfl
theorem teardownQuiesceTimeout (j : BitVec 8) : Statement (.teardownQuiesceTimeout j) := of_none rfl
theorem teardownEnd (j : BitVec 8) : Statement (.teardownEnd j) := of_none rfl
theorem faultFlag (p : Fin 17) : Statement (.faultFlag p) := of_none rfl
theorem haltFlag (p : Fin 17) : Statement (.haltFlag p) := of_none rfl
theorem nonfinFlag (p : Fin 17) : Statement (.nonfinFlag p) := of_none rfl
theorem quiesceRequest (h : Nat) : Statement (.quiesceRequest h) := of_none rfl
theorem quiesceAnswer (h : Nat) : Statement (.quiesceAnswer h) := of_none rfl
theorem switchOutDrainEnd (p : Fin 17) : Statement (.switchOutDrainEnd p) := of_none rfl
theorem switchAbandon (p : Fin 17) : Statement (.switchAbandon p) := of_none rfl
theorem switchInEnd (p : Fin 17) : Statement (.switchInEnd p) := of_none rfl
theorem periodBoundary (finding : Option LedgerFinding) : Statement (.periodBoundary finding) := of_none rfl
theorem mbDoorbell (m : MailboxId) (seq : BitVec 16) : Statement (.mbDoorbell m seq) := of_none rfl
theorem commandTake (m : MailboxId) : Statement (.commandTake m) := of_none rfl
theorem crEnableWrite (m : MailboxId) (on : Bool) : Statement (.crEnableWrite m on) := of_none rfl
theorem crHeadWrite (m : MailboxId) (head : BitVec 16) : Statement (.crHeadWrite m head) := of_none rfl
theorem heldRecordWrite (m : MailboxId) (failed : Bool) : Statement (.heldRecordWrite m failed) := of_none rfl
theorem identity (m : MailboxId) (q : BitVec 16) : Statement (.identity m q) := of_none rfl
theorem moduleConfig (m : MailboxId) (q : BitVec 16) : Statement (.moduleConfig m q) := of_none rfl
theorem readBlock (m : MailboxId) (q : BitVec 16) : Statement (.readBlock m q) := of_none rfl
theorem syncRead (m : MailboxId) (q : BitVec 16) : Statement (.syncRead m q) := of_none rfl
theorem countersRead (m : MailboxId) (q : BitVec 16) : Statement (.countersRead m q) := of_none rfl
theorem accountRead (m : MailboxId) (q : BitVec 16) : Statement (.accountRead m q) := of_none rfl
theorem linkStatus (m : MailboxId) (q : BitVec 16) : Statement (.linkStatus m q) := of_none rfl
theorem tileDebugHalt (m : MailboxId) (q : BitVec 16) : Statement (.tileDebugHalt m q) := of_none rfl
theorem tileDebugResume (m : MailboxId) (q : BitVec 16) : Statement (.tileDebugResume m q) := of_none rfl
theorem registerWrite (ibex : Bool) (addr : Nat) (v : Word) (hits : List StackHit) : Statement (.registerWrite ibex addr v hits) := of_none rfl
theorem kuduClosingEnd (stack : Stack) (e : Fin 64) : Statement (.kuduClosingEnd stack e) := of_none rfl
theorem sweepHop (link : LinkId) (kind step hop value : Nat) : Statement (.sweepHop link kind step hop value) := of_none rfl
theorem concordExchange (link : LinkId) (x y z serial : Nat) (digests : List Byte) : Statement (.concordExchange link x y z serial digests) := of_none rfl
theorem concordTimeout (j : BitVec 8) : Statement (.concordTimeout j) := of_none rfl
theorem enable (m : MailboxId) (q : BitVec 16) : Statement (.enable m q) := of_none rfl
theorem disable (m : MailboxId) (q : BitVec 16) : Statement (.disable m q) := of_none rfl
theorem lifecycleStartupEnd (kind : Fin 7) (idx : BitVec 16) (ok : Bool) (hits : List StackHit) : Statement (.lifecycleStartupEnd kind idx ok hits) := of_none rfl
theorem lifecycleShutdownEnd (kind : Fin 7) (idx : BitVec 16) : Statement (.lifecycleShutdownEnd kind idx) := of_none rfl
theorem jobLoad (m : MailboxId) (q : BitVec 16) (image : Option (List Byte)) : Statement (.jobLoad m q image) := of_none rfl
theorem jobStart (m : MailboxId) (q : BitVec 16) : Statement (.jobStart m q) := of_none rfl
theorem jobAbort (m : MailboxId) (q : BitVec 16) : Statement (.jobAbort m q) := of_none rfl
theorem jobUnload (m : MailboxId) (q : BitVec 16) : Statement (.jobUnload m q) := of_none rfl
theorem redRearm (m : MailboxId) (q : BitVec 16) (hits : List StackHit) : Statement (.redRearm m q hits) := of_none rfl
theorem commitConfig (m : MailboxId) (q : BitVec 16) : Statement (.commitConfig m q) := of_none rfl
theorem commitRecover (m : MailboxId) (q : BitVec 16) (hits : List StackHit) : Statement (.commitRecover m q hits) := of_none rfl
theorem cxlmemSet (m : MailboxId) (q : BitVec 16) : Statement (.cxlmemSet m q) := of_none rfl
theorem cxlmemHandover (m : MailboxId) (q : BitVec 16) : Statement (.cxlmemHandover m q) := of_none rfl
theorem healthConfig (m : MailboxId) (q : BitVec 16) : Statement (.healthConfig m q) := of_none rfl
theorem checkpointTake (m : MailboxId) (q : BitVec 16) : Statement (.checkpointTake m q) := of_none rfl
theorem checkpointRollback (m : MailboxId) (q : BitVec 16) (buddy : Option (List Byte)) (hits : List StackHit) : Statement (.checkpointRollback m q buddy hits) := of_none rfl
theorem attest (m : MailboxId) (q : BitVec 16) (flashOk : Bool) : Statement (.attest m q flashOk) := of_none rfl
theorem romStatus (m : MailboxId) (q : BitVec 16) : Statement (.romStatus m q) := of_none rfl
theorem fwLoad (m : MailboxId) (q : BitVec 16) (image : Option (List Byte)) (cut : Option Nat) : Statement (.fwLoad m q image cut) := of_none rfl
theorem bootEnd (dimms : List DimmReport) (fault : Option BootFault) : Statement (.bootEnd dimms fault) := of_none rfl
theorem powerOn : Statement (.powerOn) := of_none rfl
theorem inputUndervoltageOff : Statement (.inputUndervoltageOff) := of_none rfl
theorem inputOvervoltageOff : Statement (.inputOvervoltageOff) := of_none rfl
theorem inputReversed : Statement (.inputReversed) := of_none rfl
theorem modReset (refclk : Bool) : Statement (.modReset refclk) := of_none rfl
theorem cxlHotReset : Statement (.cxlHotReset) := of_none rfl
theorem cxlTrain (width rate : Nat) (upper : Bool) : Statement (.cxlTrain width rate upper) := of_none rfl
theorem dimmBranchShort (channel : Channel) : Statement (.dimmBranchShort channel) := of_none rfl
theorem mgmtRailShort : Statement (.mgmtRailShort) := of_none rfl
theorem remoteSenseOpen (rail : Fin 172) : Statement (.remoteSenseOpen rail) := of_none rfl
theorem smbusRead (offset count : Nat) : Statement (.smbusRead offset count) := of_none rfl
theorem smbusWrite (offset : Nat) (data : List Byte) : Statement (.smbusWrite offset data) := of_none rfl

end Sys2Proof.Laws.WordSize
end

