-- ==== Sys2Proof/Laws/Tile.lean ====
section
/-! SUPPORT. What the shared tile operations do: a tile's record read after it is replaced, a register read after it is
written, issue, retirement, a fault, and a wake that finds the tile running. -/

namespace Sys2Proof.Machine

@[simp] theorem tile_setTile_same (s : State) (t : Nat) (T : Tile) : (s.setTile t T).tile t = T := by
  simp [State.tile, State.setTile]

theorem tile_setTile_other (s : State) {t u : Nat} (T : Tile) (h : u ≠ t) : (s.setTile t T).tile u = s.tile u := by
  simp [State.tile, State.setTile, Sparse.get_set_other _ _ _ h.symm]

@[simp] theorem tile_updTile_same (s : State) (t : Nat) (f : Tile → Tile) : (s.updTile t f).tile t = f (s.tile t) := by
  simp [State.updTile]

theorem tile_updTile_other (s : State) {t u : Nat} (f : Tile → Tile) (h : u ≠ t) :
    (s.updTile t f).tile u = s.tile u := by
  simp [State.updTile, tile_setTile_other _ _ h]

/-- A change of one tile leaves everything but the tiles as it was. -/
theorem updTile_rest (s : State) (t : Nat) (f : Tile → Tile) : s.updTile t f = { s with tiles := (s.updTile t f).tiles } :=
  rfl

@[simp] theorem reg_zero (T : Tile) : T.reg 0 = 0 := rfl

theorem reg_setReg_same (T : Tile) (r : Reg) (v : Word) : (T.setReg r v).reg r = wrote r v := by
  by_cases h : r = 0 <;> simp [Tile.setReg, Tile.reg, wrote, h]

theorem reg_setReg_other (T : Tile) {r q : Reg} (v : Word) (h : q ≠ r) : (T.setReg r v).reg q = T.reg q := by
  by_cases h0 : r = 0
  · simp [Tile.setReg, h0]
  · have : r.val ≠ q.val := fun e => h (Fin.ext e.symm)
    simp [Tile.setReg, Tile.reg, h0, this]

/-- A register write changes nothing of the tile but its registers and the awaited answers of the one written. -/
theorem setReg_rest (T : Tile) (r : Reg) (v : Word) :
    T.setReg r v = { T with regs := (T.setReg r v).regs, awaits := (T.setReg r v).awaits } := by
  by_cases h : r = 0 <;> simp [Tile.setReg, h]

theorem setReg_awaits (T : Tile) (r : Reg) (v : Word) (a : Await) (h : r.val ≠ a.reg) :
    a ∈ (T.setReg r v).awaits ↔ a ∈ T.awaits := by
  by_cases h0 : r = 0
  · simp [Tile.setReg, h0]
  · simp only [Tile.setReg, h0, if_false, List.mem_map]
    constructor
    · rintro ⟨b, hb, e⟩
      split at e
      · next hr => subst e; exact absurd hr.symm h
      · exact e ▸ hb
    · intro ha
      exact ⟨a, ha, if_neg (Ne.symm h)⟩

@[simp] theorem setReg_pc (T : Tile) (r : Reg) (v : Word) : (T.setReg r v).pc = T.pc := by
  rw [setReg_rest]

@[simp] theorem setReg_beats (T : Tile) (r : Reg) (v : Word) : (T.setReg r v).beats = T.beats := by
  rw [setReg_rest]

@[simp] theorem setReg_tahr (T : Tile) (r : Reg) (v : Word) : (T.setReg r v).tahr = T.tahr := by
  rw [setReg_rest]

@[simp] theorem setReg_due (T : Tile) (r : Reg) (v : Word) : (T.setReg r v).due = T.due := by
  rw [setReg_rest]

/-- A register that comes later changes nothing of the tile but when it may be read. -/
theorem later_rest (T : Tile) (r : Reg) (n : Nat) : T.later r n = { T with due := (T.later r n).due } := by
  by_cases h : r = 0 <;> simp [Tile.later, h]

@[simp] theorem later_reg (T : Tile) (r q : Reg) (n : Nat) : (T.later r n).reg q = T.reg q := by rw [later_rest]; rfl
@[simp] theorem later_awaits (T : Tile) (r : Reg) (n : Nat) : (T.later r n).awaits = T.awaits := by rw [later_rest]

@[simp] theorem pass_reg (T : Tile) (n : Nat) (r : Reg) : (T.pass n).reg r = T.reg r := rfl
@[simp] theorem pass_awaits (T : Tile) (n : Nat) : (T.pass n).awaits = T.awaits := rfl
@[simp] theorem pass_beats (T : Tile) (n : Nat) : (T.pass n).beats = (T.beats + n) % 2 ^ 64 := rfl

/-! ## The interlock -/

/-- What waiting can do: nothing, or some beats pass for the tile. -/
theorem stallTile_cases (t : Nat) (uses : List Reg) (s : State) :
    stallTile t uses s = s ∨ ∃ n, stallTile t uses s = s.updTile t (fun T => T.pass n) := by
  unfold stallTile
  by_cases h : (s.tile t).stall uses = 0
  · exact .inl (if_pos h)
  · exact .inr ⟨_, if_neg h⟩

/-- Waiting for the registers that an instruction reads moves the tile's beat counter on, and with it what is due. -/
theorem stallTile_tile (t : Nat) (uses : List Reg) (s : State) :
    ∃ n d, (stallTile t uses s).tile t = { s.tile t with beats := n, due := d } ∧
      ∃ x, n % 2 ^ 64 = ((s.tile t).beats + x) % 2 ^ 64 := by
  obtain e | ⟨n, e⟩ := stallTile_cases t uses s <;> rw [e]
  · exact ⟨_, _, rfl, 0, rfl⟩
  · rw [tile_updTile_same]
    exact ⟨_, _, rfl, _, Nat.mod_mod _ _⟩

theorem stallTile_only (t : Nat) (uses : List Reg) (s : State) : TileOnly t s (stallTile t uses s) := by
  obtain e | ⟨n, e⟩ := stallTile_cases t uses s <;> rw [e]
  · exact ⟨fun _ _ => rfl, fun _ => rfl, rfl⟩
  · exact ⟨fun _ h => tile_updTile_other _ _ h, fun _ => rfl, rfl⟩

@[simp] theorem stallTile_reg (t : Nat) (uses : List Reg) (s : State) (r : Reg) :
    ((stallTile t uses s).tile t).reg r = (s.tile t).reg r := by
  obtain ⟨n, d, e, -⟩ := stallTile_tile t uses s
  rw [e]; rfl
@[simp] theorem stallTile_pc (t : Nat) (uses : List Reg) (s : State) : ((stallTile t uses s).tile t).pc = (s.tile t).pc := by
  obtain ⟨n, d, e, -⟩ := stallTile_tile t uses s
  rw [e]
@[simp] theorem stallTile_run (t : Nat) (uses : List Reg) (s : State) : ((stallTile t uses s).tile t).run = (s.tile t).run := by
  obtain ⟨n, d, e, -⟩ := stallTile_tile t uses s
  rw [e]
@[simp] theorem stallTile_mem (t : Nat) (uses : List Reg) (s : State) : (stallTile t uses s).mem = s.mem := by
  obtain e | ⟨n, e⟩ := stallTile_cases t uses s <;> rw [e] <;> rfl
@[simp] theorem stallTile_parts (t : Nat) (uses : List Reg) (s : State) : (stallTile t uses s).parts = s.parts := by
  obtain e | ⟨n, e⟩ := stallTile_cases t uses s <;> rw [e] <;> rfl
@[simp] theorem stallTile_partOf (t u : Nat) (uses : List Reg) (s : State) : (stallTile t uses s).partOf u = s.partOf u := by
  simp [State.partOf, State.partOfHerd, State.part]

/-- With nothing due, nothing waits. -/
theorem stallTile_none {t : Nat} {uses : List Reg} {s : State} (h : (s.tile t).due = []) : stallTile t uses s = s := by
  have : ∀ (l : List Reg), l.foldl (fun m r => max m (Sparse.get 0 (s.tile t).due r.val)) 0 = 0 := by
    intro l
    induction l with
    | nil => rfl
    | cons r l ih => simpa [h, Sparse.get, Sparse.find] using ih
  simp [stallTile, Tile.stall, this]

/-- One tile moves after another move of the same tile. -/
theorem TileOnly.trans {t : Nat} {a b c : State} (h : TileOnly t a b) (k : TileOnly t b c) : TileOnly t a c where
  others u hu := (k.others u hu).trans (h.others u hu)
  bytes x := (k.bytes x).trans (h.bytes x)
  rest := by
    have := k.rest
    rw [h.rest] at this
    exact this

/-- The interlock's beats and the instruction's own add up. -/
theorem stallTile_beatsAfter (t : Nat) (uses : List Reg) (cost : Nat) (s : State) :
    beatsAfter t [] cost (stallTile t uses s) = beatsAfter t uses cost s := by
  have h0 (T : Tile) : T.stall [] = 0 := rfl
  unfold beatsAfter stallTile
  rw [h0]
  by_cases h : (s.tile t).stall uses = 0
  · simp only [h, if_true]
  · simp only [h, if_false, tile_updTile_same, pass_beats]
    show (_ % _ + 0 + cost + slackBeats s.free) % 2 ^ 64 = _
    omega

/-- A register step of the tile once it has waited is one of the tile as it was. -/
theorem RegStep.stalled {t cost : Nat} {uses rds : List Reg} {next : Word} {s s' : State}
    (h : RegStep t [] rds cost next (stallTile t uses s) s') : RegStep t uses rds cost next s s' := by
  obtain ⟨n, d, e, -⟩ := stallTile_tile t uses s
  refine ⟨(stallTile_only t uses s).trans h.only, fun r hr => (h.regs r hr).trans (stallTile_reg ..), ?_, h.pc,
    h.beats.trans (stallTile_beatsAfter ..), ?_⟩
  · intro a ha
    rw [h.awaits a ha, e]
  · have := h.tile
    rw [e] at this
    exact this

/-- A command that names a tile of the grade acts. -/
theorem onTile_in {t : Nat} {s : State} (f : State → State) (h : t < s.tileCount) : onTile t s f = .next (f s) :=
  if_pos h

/-- A tile that can issue lets the instruction act once the registers it reads are there. -/
theorem issue_acts {t : Nat} {uses : List Reg} {s : State} (k : State → State) (h : CanIssue t uses s) :
    issue t uses s k = k (stallTile t uses s) := by
  simp [issue, h.2.1, h.2.2]

@[simp] theorem tile_drawn (s : State) (t : Nat) : s.drawn.tile t = s.tile t := rfl
@[simp] theorem advance_pc (T : Tile) (pc : Word) (n : Nat) : (T.advance pc n).pc = pc := rfl
@[simp] theorem advance_reg (T : Tile) (pc : Word) (n : Nat) (r : Reg) : (T.advance pc n).reg r = T.reg r := rfl
@[simp] theorem advance_awaits (T : Tile) (pc : Word) (n : Nat) : (T.advance pc n).awaits = T.awaits := rfl
@[simp] theorem advance_beats (T : Tile) (pc : Word) (n : Nat) : (T.advance pc n).beats = (T.beats + n) % 2 ^ 64 := rfl

/-- What retirement makes of the tile. -/
theorem retireAt_tile (t cost : Nat) (pc : Word) (s : State) (f : Tile → Tile) :
    (retireAt t cost pc s f).tile t = (f (s.tile t)).advance pc (cost + slackBeats s.free) := by
  simp [retireAt]

theorem retireAt_tile_other (t cost : Nat) (pc : Word) (s : State) (f : Tile → Tile) {u : Nat} (h : u ≠ t) :
    (retireAt t cost pc s f).tile u = s.tile u := by
  simp [retireAt, State.updTile, tile_setTile_other _ _ h]

/-- Retirement touches one tile and the free counter. -/
theorem retireAt_only (t cost : Nat) (pc : Word) (s : State) (f : Tile → Tile) : TileOnly t s (retireAt t cost pc s f) where
  others _ h := retireAt_tile_other t cost pc s f h
  bytes _ := rfl
  rest := rfl

/-- An effect on registers alone, retired, is a register step. -/
theorem retireAt_regStep (t cost : Nat) (pc : Word) (s : State) (f : Tile → Tile) (rds : List Reg)
    (hf : ∀ T : Tile, f T = { T with regs := (f T).regs, awaits := (f T).awaits, due := (f T).due })
    (hr : ∀ (T : Tile) (r : Reg), r ∉ rds → (f T).reg r = T.reg r)
    (ha : ∀ (T : Tile) (a : Await), (∀ r ∈ rds, r.val ≠ a.reg) → (a ∈ (f T).awaits ↔ a ∈ T.awaits)) :
    RegStep t [] rds cost pc s (retireAt t cost pc s f) where
  only := retireAt_only t cost pc s f
  regs r h := by
    have := hr (s.tile t) r h
    rw [retireAt_tile]
    exact this
  awaits n h := by
    rw [retireAt_tile]
    exact ha (s.tile t) n h
  pc := by rw [retireAt_tile, advance_pc]
  beats := by rw [retireAt_tile, hf, beatsAfter, advance_beats, ← Nat.add_assoc]; rfl
  tile := by
    rw [retireAt_tile]
    have := hf (s.tile t)
    generalize f (s.tile t) = F at this
    rw [this]
    rfl

/-- One register written, retired. -/
theorem retireAt_setReg (t cost : Nat) (pc : Word) (s : State) (rd : Reg) (v : Tile → Word) :
    ((retireAt t cost pc s (fun T => T.setReg rd (v T))).tile t).reg rd = wrote rd (v (s.tile t)) ∧
      RegStep t [] [rd] cost pc s (retireAt t cost pc s (fun T => T.setReg rd (v T))) := by
  constructor
  · rw [retireAt_tile]
    exact reg_setReg_same _ _ _
  · apply retireAt_regStep
    · intro T
      rw [setReg_rest T rd (v T)]
    · intro T r h
      exact reg_setReg_other T (v T) (by simpa using h)
    · intro T n h
      exact setReg_awaits T rd (v T) n (h rd (by simp))

/-- One register written that comes later, retired. -/
theorem retireAt_setReg_later (t cost n : Nat) (pc : Word) (s : State) (rd : Reg) (v : Tile → Word) :
    ((retireAt t cost pc s (fun T => (T.setReg rd (v T)).later rd n)).tile t).reg rd = wrote rd (v (s.tile t)) ∧
      RegStep t [] [rd] cost pc s (retireAt t cost pc s (fun T => (T.setReg rd (v T)).later rd n)) := by
  constructor
  · rw [retireAt_tile, advance_reg, later_reg]
    exact reg_setReg_same _ _ _
  · apply retireAt_regStep
    · intro T
      rw [later_rest, setReg_rest T rd (v T)]
    · intro T r h
      rw [later_reg]
      exact reg_setReg_other T (v T) (by simpa using h)
    · intro T a h
      rw [later_awaits]
      exact setReg_awaits T rd (v T) a (h rd (by simp))

/-- A tile that is not parked is not woken. -/
theorem wake_notParked {t : Nat} {s : State} (h : (s.tile t).run ≠ .parked) : wake t s = s := by
  simp [wake, h]

/-- A command that names a tile beyond the grade stops the model. -/
theorem onTile_out {t : Nat} {s : State} (f : State → State) (h : ¬ t < s.tileCount) :
    onTile t s f = .fault .noSuchTile :=
  if_neg h

/-- Two registers written, retired. -/
theorem retireAt_setReg2 (t cost : Nat) (pc : Word) (s : State) {rd r1 : Reg} (v w : Word) (h : r1 ≠ rd) :
    ((retireAt t cost pc s (fun T => (T.setReg rd v).setReg r1 w)).tile t).reg rd = wrote rd v ∧
      ((retireAt t cost pc s (fun T => (T.setReg rd v).setReg r1 w)).tile t).reg r1 = wrote r1 w ∧
      RegStep t [] [rd, r1] cost pc s (retireAt t cost pc s (fun T => (T.setReg rd v).setReg r1 w)) := by
  refine ⟨?_, ?_, ?_⟩
  · rw [retireAt_tile, advance_reg, reg_setReg_other _ _ (Ne.symm h), reg_setReg_same]
  · rw [retireAt_tile, advance_reg, reg_setReg_same]
  · apply retireAt_regStep
    · intro T
      rw [setReg_rest (T.setReg rd v) r1 w, setReg_rest T rd v]
    · intro T r hr
      simp only [List.mem_cons, List.not_mem_nil, or_false, not_or] at hr
      rw [reg_setReg_other _ _ hr.2, reg_setReg_other _ _ hr.1]
    · intro T n hn
      rw [setReg_awaits _ _ _ _ (hn r1 (by simp)), setReg_awaits _ _ _ _ (hn rd (by simp))]

/-- Nothing but retirement. -/
theorem retireAt_id (t cost : Nat) (pc : Word) (s : State) : RegStep t [] [] cost pc s (retireAt t cost pc s id) :=
  retireAt_regStep t cost pc s id [] (fun _ => rfl) (fun _ _ _ => rfl) (fun _ _ _ => Iff.rfl)

/-- A register-form ALU instruction on a tile that can issue. -/
theorem aluOp_writes {c : Instr} {t : Nat} {rd ra rb : Reg} {cost : Nat} {f : Word → Word → Word} {s : State} {v : Word}
    (hc : exec c s = onTile t s (aluOp t rd ra rb cost f)) (h : CanIssue t [ra, rb] s)
    (hv : f ((s.tile t).reg ra) ((s.tile t).reg rb) = v) : WritesReg c t [ra, rb] rd v cost s := by
  refine ⟨_, hc.trans (onTile_in _ h.1), ?_⟩
  rw [aluOp, issue_acts _ h, ← hv]
  have := retireAt_setReg t cost ((s.tile t).pc + 4) (stallTile t [ra, rb] s) rd (fun T => f (T.reg ra) (T.reg rb))
  simp only [stallTile_reg] at this
  simp only [retire, stallTile_pc]
  exact ⟨this.1, this.2.stalled⟩

/-- As `aluOp_writes` for the multiply group (R104). -/
theorem mulOp_writes {c : Instr} {t : Nat} {rd ra rb : Reg} {f : Word → Word → Word} {s : State} {v : Word}
    (hc : exec c s = onTile t s (mulOp t rd ra rb f)) (h : CanIssue t [ra, rb] s)
    (hv : f ((s.tile t).reg ra) ((s.tile t).reg rb) = v) : WritesReg c t [ra, rb] rd v 1 s := by
  refine ⟨_, hc.trans (onTile_in _ h.1), ?_⟩
  rw [mulOp, issue_acts _ h, ← hv]
  have := retireAt_setReg_later t 1 3 ((s.tile t).pc + 4) (stallTile t [ra, rb] s) rd (fun T => f (T.reg ra) (T.reg rb))
  simp only [stallTile_reg] at this
  simp only [retire, stallTile_pc]
  exact ⟨this.1, this.2.stalled⟩

/-- An immediate-form instruction on a tile that can issue. -/
theorem immOp_writes {c : Instr} {t : Nat} {rd ra : Reg} {f : Word → Word} {s : State} {v : Word}
    (hc : exec c s = onTile t s (immOp t rd ra f)) (h : CanIssue t [ra] s)
    (hv : f ((s.tile t).reg ra) = v) : WritesReg c t [ra] rd v 1 s := by
  refine ⟨_, hc.trans (onTile_in _ h.1), ?_⟩
  rw [immOp, issue_acts _ h, ← hv]
  have := retireAt_setReg t 1 ((s.tile t).pc + 4) (stallTile t [ra] s) rd (fun T => f (T.reg ra))
  simp only [stallTile_reg] at this
  simp only [retire, stallTile_pc]
  exact ⟨this.1, this.2.stalled⟩

/-- A branch on a tile that can issue. -/
theorem branchOp_goes {c : Instr} {t : Nat} {ra rb : Reg} {disp : BitVec 16} {p : Word → Word → Bool} {s : State}
    (hc : exec c s = onTile t s (branchOp t ra rb disp p)) (h : CanIssue t [ra, rb] s) :
    (p ((s.tile t).reg ra) ((s.tile t).reg rb) = true → GoesTo c t [ra, rb] 2 (branchTarget (s.tile t).pc disp) s) ∧
      (p ((s.tile t).reg ra) ((s.tile t).reg rb) = false → GoesTo c t [ra, rb] 1 ((s.tile t).pc + 4) s) := by
  constructor <;> intro hp <;> refine ⟨_, hc.trans (onTile_in _ h.1), ?_⟩ <;>
    rw [branchOp, issue_acts _ h] <;>
    simp only [retire, stallTile_reg, stallTile_pc, hp, if_true, Bool.false_eq_true, if_false] <;>
    exact (retireAt_id ..).stalled

/-! ## Faults -/

/-- The FAULT flag leaves tiles and memory as they are. -/
@[simp] theorem raiseFault_tile (p t : Nat) (s : State) : (raiseFault p s).tile t = s.tile t := by
  unfold raiseFault; split <;> rfl
@[simp] theorem raiseFault_mem (p : Nat) (s : State) : (raiseFault p s).mem = s.mem := by
  unfold raiseFault; split <;> rfl
@[simp] theorem raiseHalt_tile (p t : Nat) (s : State) : (raiseHalt p s).tile t = s.tile t := by
  unfold raiseHalt; split <;> rfl
@[simp] theorem raiseHalt_mem (p : Nat) (s : State) : (raiseHalt p s).mem = s.mem := by
  unfold raiseHalt; split <;> rfl

/-- The record of a tile whose operations end. -/
def endedTile (T : Tile) : Tile :=
  { T with
    blocks := [], mx := [], mxStore := {}, ftq := {}, mover := [], syncReady := none, syncTravel := false, awaits := [],
    vec := { T.vec with queue := [], relays := [], taken := [], chainLen := 0, chainExts := [] },
    port := { T.port with queue := [] } }

theorem endOps_tile_same (t : Nat) (s : State) : (endOps t s).tile t = endedTile (s.tile t) := by
  have : (endOps t s).tile t = (s.updTile t endedTile).tile t := rfl
  rw [this, tile_updTile_same]

theorem endOps_tile_other {t u : Nat} (s : State) (h : u ≠ t) : (endOps t s).tile u = s.tile u := by
  have : (endOps t s).tile u = (s.updTile t endedTile).tile u := rfl
  rw [this, tile_updTile_other _ _ h]

/-- A fault of a tile that is alive is recorded, and ends its operations (R94). -/
theorem faultTile_faulted {t unit code : Nat} {pc : Word} {addr : Nat} {s : State} (h : (s.tile t).alive = true) :
    Faulted t unit code pc addr s (faultTile t unit code pc addr s) := by
  have e : faultTile t unit code pc addr s = raiseFault (s.partOf t) (endOps t (s.updTile t (fun T => { T with
      run := .faulted, park := .none, faultUnit := unit, faultCode := code, faultPc := pc, faultAddr := addr }))) := by
    simp [faultTile, recordFault, h]
  constructor
  · rw [e, raiseFault_tile, endOps_tile_same, tile_updTile_same]; rfl
  · rw [e, raiseFault_tile, endOps_tile_same, tile_updTile_same]; exact ⟨rfl, rfl, rfl, rfl⟩
  · rw [e, raiseFault_tile, endOps_tile_same, tile_updTile_same]; exact ⟨rfl, rfl⟩
  · rw [e, raiseFault_tile, endOps_tile_same]; exact ⟨rfl, rfl, rfl, rfl, rfl⟩
  · intro u hu
    rw [e, raiseFault_tile, endOps_tile_other _ hu, tile_updTile_other _ _ hu]
  · intro a
    rw [e, raiseFault_mem]
    rfl
  · intro hp
    rw [e]
    simp [raiseFault, hp, State.updPart, State.part, State.setPart]

/-- A tile that can issue is alive. -/
theorem ready_alive {T : Tile} {uses : List Reg} (h : T.ready uses = true) : T.alive = true := by
  simp only [Tile.ready, Bool.and_eq_true] at h
  simp [Tile.alive, h.1.1]

/-- A tile that can issue is running. -/
theorem ready_running {T : Tile} {uses : List Reg} (h : T.ready uses = true) : T.run = .running := by
  simp only [Tile.ready, Bool.and_eq_true] at h
  simpa using h.1.1

/-- A fault of the tile once it has waited is one of the tile as it was. -/
theorem Faulted.stalled {t unit code addr : Nat} {uses : List Reg} {pc : Word} {s s' : State}
    (h : Faulted t unit code pc addr (stallTile t uses s) s') : Faulted t unit code pc addr s s' := by
  obtain ⟨n, d, e, -⟩ := stallTile_tile t uses s
  have r := h.regs
  rw [e] at r
  have f := h.flag
  rw [stallTile_partOf] at f
  exact ⟨h.run, h.record, r, h.ended, fun u hu => (h.others u hu).trans ((stallTile_only t uses s).others u hu),
    fun a => (h.bytes a).trans (by rw [stallTile_mem]), f⟩

/-- An instruction that faults at issue. -/
theorem issue_faults {c : Instr} {t : Nat} {uses : List Reg} {s : State} {k : State → State} {unit : Nat} {f : TileFault}
    (hc : exec c s = onTile t s (fun s => issue t uses s k)) (h : CanIssue t uses s)
    (hk : k (stallTile t uses s) = faultIssue t unit f (stallTile t uses s)) : Faults c t unit f.code f.addr s := by
  refine ⟨_, hc.trans (onTile_in _ h.1), ?_⟩
  rw [issue_acts _ h, hk, faultIssue, stallTile_pc]
  refine (faultTile_faulted ?_).stalled
  have := ready_running h.2.1
  simp [Tile.alive, this]

end Sys2Proof.Machine
end

