-- ==== Sys2Proof/Machine/Route.lean ====
section
/-! DEFINITION. The route words of the packets in the network (spec/11 R302, Tables 11-1 and 11-2): the sending unit fills
them and no program reads one, so they are computed from what State holds of each packet in flight. -/

namespace Sys2Proof.Machine

/-- A route word's fields (Table 11-1). -/
structure Route where
  job : Nat
  cls : Nat
  src : Nat
  srcKind : Nat
  dst : Nat
  dstKind : Nat
  words : Nat
  deriving DecidableEq, Repr

/-- The 64-bit word (Table 11-1). -/
def Route.word (r : Route) : DWord :=
  BitVec.ofNat 64 (r.job * 2 ^ 56 + r.cls * 2 ^ 52 + r.src * 2 ^ 34 + r.srcKind * 2 ^ 32 + r.dst * 2 ^ 18
    + r.dstKind * 2 ^ 16 + r.words)

/-- The packets of a message: its reservation request or withdrawal, its packet, and its port's answers, whose JOB is the job
of the tile that answers and which carry no payload words; PARTITION is no packet (R247). -/
def Msg.routes (s : State) (m : Msg) : List Route :=
  let out (cls words : Nat) : Route := ⟨m.job, cls, m.sender, 0, m.dst, 0, words⟩
  (if m.recv = .request || m.withdrawal then [out 2 0] else [])
    ++ (if m.recv = .packet then [out 3 (m.length / 8)] else [])
    ++ (m.answers.filter (fun a => !a.isLocal)).map (fun _ => ⟨(s.tile m.dst).port.job, 4, m.dst, 0, m.sender, 0, 0⟩)

/-- The packet of a remote write or sum contribution, or its outcome on the way back, of the job of the tile that answers;
PARTITION is no packet (R126). -/
def RemoteWrite.routes (s : State) (p : RemoteWrite) : List Route :=
  let k := if p.row.isSome then 1 else 0
  match p.phase with
  | .answered 5 => []
  | .answered _ => [⟨(s.tile p.dst).port.job, 4, p.dst, 0, p.source, k, 0⟩]
  | _ => [⟨p.job, if p.sum then 1 else 0, p.source, k, p.dst, 0, p.len / 8⟩]

/-- The unit of an object as an end of a route word: a herd or a hub. -/
def objEnd (o : Nat) : Nat × Nat := if o < 0x20000 then (o / 256, 1) else ((o - 0x20000) / 256, 2)
/-- The packet of an object's answer to tile `t`: JOB is the job of the partition that owns the object. -/
def answerRoute (s : State) (t o : Nat) : Route :=
  ⟨(s.part (s.partOfObj o)).holding, 6, (objEnd o).1, (objEnd o).2, t, 0, 0⟩

/-- The packet of a sync operation or answer. -/
def SyncPkt.route (s : State) (p : SyncPkt) : Route :=
  match p.op with
  | .signal o _ _ _ u => ⟨p.job, 5, u.1, u.2, (objEnd o).1, (objEnd o).2, 0⟩
  | .arrival t o _ _ _ _ _ => ⟨p.job, 5, t, 0, (objEnd o).1, (objEnd o).2, 0⟩
  | .wait t o _ => ⟨p.job, 5, t, 0, (objEnd o).1, (objEnd o).2, 0⟩
  | .answer t o _ _ _ _ => answerRoute s t o

/-- The two packets of an SREAD by tile `t`, which is one step and holds neither in the state (log 95): the request, and
the answer. -/
def readRoutes (s : State) (t o : Nat) : List Route :=
  [⟨(s.tile t).port.job, 5, t, 0, (objEnd o).1, (objEnd o).2, 0⟩, answerRoute s t o]

/-- The packet of a block on its way to a crossing, or of read data or a write's answer on its way back (crossing numbers:
log 77). -/
def XBlock.route (s : State) (u : Nat) (back : Bool) (b : XBlock) : Route :=
  let job := (s.tile b.tile).port.job
  if back then ⟨job, 9, u, 3, herdOf b.tile, 1, if b.write then 0 else 8⟩
  else ⟨job, if b.write then 8 else 7, herdOf b.tile, 1, u, 3, if b.write then 8 else 0⟩

/-- The route words of every packet in the network. -/
def State.routes (s : State) : List Route :=
  s.msgs.flatMap (fun e => e.2.routes s) ++ s.puts.flatMap (fun e => e.2.routes s) ++ s.syncMsgs.map (fun e => e.2.route s)
    ++ s.tiles.flatMap (fun e => (e.2.syncReady.map (answerRoute s e.1)).toList)
    ++ s.crossings.flatMap (fun e => e.2.out.map (XBlock.route s e.1 false) ++ e.2.back.map (XBlock.route s e.1 true))

end Sys2Proof.Machine
end

