-- ==== Sys2Proof/WellFormed.lean ====
section
/-! DEFINITION. Well-formed commands: operands that name a unit or a value that some module has (spec/00 Table 0-1, spec/02,
spec/15, spec/16). -/

namespace Sys2Proof

/-- A tile id of the largest grade (R20). -/
def tileOk (t : Nat) : Bool := decide (t < 12288)
/-- A quad domain, or 128 for the spine domain (R558). -/
def domainOk (d : Nat) : Bool := decide (d < 96 ∨ d = 128)

/-- The operands are in their ranges. -/
def Instr.wf (c : Instr) : Bool :=
  match c with
  | .add t _ _ _ => tileOk t
  | .sub t _ _ _ => tileOk t
  | .and t _ _ _ => tileOk t
  | .or t _ _ _ => tileOk t
  | .xor t _ _ _ => tileOk t
  | .shl t _ _ _ => tileOk t
  | .shr t _ _ _ => tileOk t
  | .shra t _ _ _ => tileOk t
  | .lts t _ _ _ => tileOk t
  | .ltu t _ _ _ => tileOk t
  | .min t _ _ _ => tileOk t
  | .minu t _ _ _ => tileOk t
  | .max t _ _ _ => tileOk t
  | .maxu t _ _ _ => tileOk t
  | .mul t _ _ _ => tileOk t
  | .mulhs t _ _ _ => tileOk t
  | .mulhu t _ _ _ => tileOk t
  | .divs t _ _ _ => tileOk t
  | .divu t _ _ _ => tileOk t
  | .rems t _ _ _ => tileOk t
  | .remu t _ _ _ => tileOk t
  | .addi t _ _ _ => tileOk t
  | .andi t _ _ _ => tileOk t
  | .ori t _ _ _ => tileOk t
  | .xori t _ _ _ => tileOk t
  | .ltsi t _ _ _ => tileOk t
  | .ltui t _ _ _ => tileOk t
  | .shli t _ _ _ => tileOk t
  | .shri t _ _ _ => tileOk t
  | .shrai t _ _ _ => tileOk t
  | .ldhi t _ _ _ => tileOk t
  | .ldb t _ _ _ => tileOk t
  | .ldbu t _ _ _ => tileOk t
  | .ldh t _ _ _ => tileOk t
  | .ldhu t _ _ _ => tileOk t
  | .ldw t _ _ _ => tileOk t
  | .ldp t _ _ _ => tileOk t
  | .stb t _ _ _ => tileOk t
  | .sth t _ _ _ => tileOk t
  | .stw t _ _ _ => tileOk t
  | .stp t _ _ _ => tileOk t
  | .beq t _ _ _ => tileOk t
  | .bne t _ _ _ => tileOk t
  | .blts t _ _ _ => tileOk t
  | .bges t _ _ _ => tileOk t
  | .bltu t _ _ _ => tileOk t
  | .bgeu t _ _ _ => tileOk t
  | .jmpl t _ _ => tileOk t
  | .jmpr t _ _ _ => tileOk t
  | .illegalInstruction t _ => tileOk t
  | .endProgram t => tileOk t
  | .brk t => tileOk t
  | .ctr t _ _ _ => tileOk t
  | .crr t _ _ _ => tileOk t
  | .crw t _ _ _ => tileOk t
  | .hint t _ => tileOk t
  | .twait t _ => tileOk t
  | .ttest t _ _ => tileOk t
  | .tlast t _ _ => tileOk t
  | .mxi t _ _ => tileOk t
  | .matrixOpComplete t => tileOk t
  | .ftqPush t => tileOk t
  | .setvl t _ _ => tileOk t
  | .vstr t _ _ => tileOk t
  | .vmov t _ _ _ _ _ _ => tileOk t
  | .vadd t _ _ _ _ _ _ => tileOk t
  | .vsub t _ _ _ _ _ _ => tileOk t
  | .vmul t _ _ _ _ _ _ => tileOk t
  | .vfma t _ _ _ _ _ _ => tileOk t
  | .vmin t _ _ _ _ _ _ => tileOk t
  | .vmax t _ _ _ _ _ _ => tileOk t
  | .vabs t _ _ _ _ _ _ => tileOk t
  | .vneg t _ _ _ _ _ _ => tileOk t
  | .vdiv t _ _ _ _ _ _ => tileOk t
  | .vsqrt t _ _ _ _ _ _ => tileOk t
  | .vrelu t _ _ _ _ _ _ => tileOk t
  | .vclamp t _ _ _ _ _ _ => tileOk t
  | .vexp t _ _ _ _ _ _ => tileOk t
  | .vexp2 t _ _ _ _ _ _ => tileOk t
  | .vlog t _ _ _ _ _ _ => tileOk t
  | .vrcp t _ _ _ _ _ _ => tileOk t
  | .vrsqrt t _ _ _ _ _ _ => tileOk t
  | .vtanh t _ _ _ _ _ _ => tileOk t
  | .vsigm t _ _ _ _ _ _ => tileOk t
  | .vgelu t _ _ _ _ _ _ => tileOk t
  | .vsilu t _ _ _ _ _ _ => tileOk t
  | .vcmpgt t _ _ _ _ _ _ => tileOk t
  | .vcmpge t _ _ _ _ _ _ => tileOk t
  | .vcmpeq t _ _ _ _ _ _ => tileOk t
  | .vcmpne t _ _ _ _ _ _ => tileOk t
  | .vsel t _ _ _ _ _ _ => tileOk t
  | .vsum64 t _ _ _ _ _ _ => tileOk t
  | .vsum64a t _ _ _ _ _ _ => tileOk t
  | .vssq64 t _ _ _ _ _ _ => tileOk t
  | .vssq64a t _ _ _ _ _ _ => tileOk t
  | .vdot64 t _ _ _ _ _ _ => tileOk t
  | .vdot64a t _ _ _ _ _ _ => tileOk t
  | .vmaxr t _ _ _ _ _ _ => tileOk t
  | .vsegr t _ _ _ _ _ _ => tileOk t
  | .vsel24 t _ _ _ _ _ _ => tileOk t
  | .vsel24q t _ _ _ _ _ _ => tileOk t
  | .vectorOpComplete t => tileOk t
  | .fill t _ _ _ _ => tileOk t
  | .copy t _ _ _ _ => tileOk t
  | .blockOpComplete t => tileOk t
  | .move t _ _ => tileOk t
  | .wopen t _ => tileOk t
  | .wclose t _ => tileOk t
  | .put t _ _ _ => tileOk t
  | .send t _ _ _ _ => tileOk t
  | .hset t _ _ => tileOk t
  | .rqhead t _ => tileOk t
  | .rqpop t => tileOk t
  | .port t _ => tileOk t
  | .sig t _ _ => tileOk t
  | .arrive t _ _ => tileOk t
  | .swait t _ _ => tileOk t
  | .sread t _ _ _ => tileOk t
  | .sconf t _ _ => tileOk t
  | .tileRunStart t => tileOk t
  | .tileRunStop t => tileOk t
  | .windowDrainEnd t => tileOk t
  | .remoteWriteCheck _ => true
  | .remoteWriteCommit _ _ => true
  | .sumContribution _ _ => true
  | .reservationRequest _ _ => true
  | .portAnswer _ _ => true
  | .retryTimer _ => true
  | .messagePacketArrival _ _ => true
  | .packetResend _ => true
  | .deliveryCommit _ => true
  | .withdrawal _ _ => true
  | .syncSignal _ _ => true
  | .arriveAtObject _ _ => true
  | .arriveAnswer _ _ => true
  | .syncWaitAtObject _ _ => true
  | .syncWaitResume t _ => tileOk t
  | .beatLoRead t => tileOk t
  | .skipCountLoRead t _ _ => tileOk t
  | .vecCountLoRead t _ => tileOk t
  | .ftqClr t => tileOk t
  | .lossPost t _ => tileOk t
  | .hbmRefresh _ => true
  | .ddrRefresh _ _ => true
  | .patrolScrub _ _ found _ => found != .crcFail
  | .cxlmemHostAccess _ write data _ => if write then data.length == 64 else data.isEmpty
  | .ueSrcRead _ => true
  | .moverTransferComplete t _ => tileOk t
  | .memBlockReadAnswer t _ _ _ => tileOk t
  | .memBlockRequest t _ _ _ => tileOk t
  | .hostWindowResponse t _ _ _ data => tileOk t && decide (data.length ≤ 64)
  | .cxlCompletionTimeout t _ _ => tileOk t
  | .contributionBlock t _ _ _ _ => tileOk t
  | .poolWaitEnd _ _ _ _ => true
  | .ringPacket _ _ tag step seg hop _ _ data _ => decide (tag < 2 ^ 16 ∧ step < 2 ^ 32 ∧ seg < 16 ∧ hop < 16) && data.all (fun w => decide (w < 2 ^ 32))
  | .nfReadyWrite _ _ => true
  | .kuAcceptLoRead _ => true
  | .commitEnd _ _ _ => true
  | .digestReceived _ _ _ step cnt value => decide (step < 2 ^ 32 ∧ cnt < 2 ^ 32 ∧ value < 2 ^ 64)
  | .linkBlockArrival _ _ payload _ _ => decide (payload.length ≤ 256)
  | .linkRetrain _ _ => true
  | .retrainEnd _ => true
  | .linkFailTimeout _ => true
  | .orientationStep _ => true
  | .linkUp _ _ _ _ => true
  | .linkWriteArrival _ addr _ rows rowBytes => addr % 64 == 0 && rowBytes % 64 == 0 && decide (1 ≤ rows ∧ 64 ≤ rowBytes)
  | .landingSignal _ => true
  | .linkStepAdvance _ => true
  | .jobAbortReceived _ _ step => decide (step < 65536)
  | .lightLoss _ _ => true
  | .laserFault _ _ => true
  | .laserInsert _ => true
  | .trainingPatternReceived _ => true
  | .lkTxLoRead _ => true
  | .checkpointCopyEnd _ _ _ _ => true
  | .commitRequest _ _ _ => true
  | .commitRequestResume _ _ _ => true
  | .endToEndAnswer _ _ => true
  | .buddySlotRequest _ step _ => decide (step < 65536)
  | .droop domain => domainOk domain
  | .undervoltage domain _ => domainOk domain
  | .handshakeStall unit _ _ => decide (unit < 384 ∨ 0x8000 ≤ unit)
  | .railSettled domain => domainOk domain
  | .marginDailyLower => true
  | .wearRecord _ => true
  | .chamoisSample _ _ _ _ => true
  | .energyWindow _ => true
  | .releaseReport _ => true
  | .hardThermalTrip sensor _ => decide (sensor < 80)
  | .teardownQuiesceTimeout _ => true
  | .teardownEnd _ => true
  | .faultFlag _ => true
  | .haltFlag _ => true
  | .nonfinFlag _ => true
  | .quiesceRequest h => decide (h < 384)
  | .quiesceAnswer h => decide (h < 384)
  | .switchOutDrainEnd _ => true
  | .switchAbandon _ => true
  | .switchInEnd _ => true
  | .periodBoundary _ => true
  | .mbDoorbell _ _ => true
  | .commandTake _ => true
  | .crEnableWrite _ _ => true
  | .crHeadWrite _ _ => true
  | .heldRecordWrite _ _ => true
  | .identity _ _ => true
  | .moduleConfig _ _ => true
  | .readBlock _ _ => true
  | .syncRead _ _ => true
  | .countersRead _ _ => true
  | .accountRead _ _ => true
  | .linkStatus _ _ => true
  | .tileDebugHalt _ _ => true
  | .tileDebugResume _ _ => true
  | .registerWrite _ addr _ _ => addr % 4 == 0
  | .kuduClosingEnd _ _ => true
  | .sweepHop _ kind step hop value => decide (kind < 4 ∧ step < 2 ^ 32 ∧ 1 ≤ hop ∧ hop ≤ 8 ∧ value < 2 ^ 112)
  | .concordExchange _ x y z serial digests => decide (x < 16 ∧ y < 16 ∧ z < 16 ∧ serial < 2 ^ 64) && digests.length == 64
  | .concordTimeout _ => true
  | .enable _ _ => true
  | .disable _ _ => true
  | .lifecycleStartupEnd kind _ _ _ => kind.val != 0
  | .lifecycleShutdownEnd kind _ => kind.val != 0
  | .jobLoad _ _ _ => true
  | .jobStart _ _ => true
  | .jobAbort _ _ => true
  | .jobUnload _ _ => true
  | .redRearm _ _ _ => true
  | .commitConfig _ _ => true
  | .commitRecover _ _ _ => true
  | .cxlmemSet _ _ => true
  | .cxlmemHandover _ _ => true
  | .healthConfig _ _ => true
  | .checkpointTake _ _ => true
  | .checkpointRollback _ _ _ _ => true
  | .attest _ _ _ => true
  | .romStatus _ _ => true
  | .fwLoad _ _ _ _ => true
  | .bootEnd dimms _ => (dimms.map (·.channel)).all (fun c => decide (c < 16)) && decide (dimms.map (·.channel)).Nodup
  | .powerOn => true
  | .inputUndervoltageOff => true
  | .inputOvervoltageOff => true
  | .inputReversed => true
  | .modReset _ => true
  | .cxlHotReset => true
  | .cxlTrain _ _ _ => true
  | .dimmBranchShort _ => true
  | .mgmtRailShort => true
  | .remoteSenseOpen _ => true
  | .smbusRead offset _ => decide (offset < 256)
  | .smbusWrite offset _ => decide (offset < 256)

end Sys2Proof
end

