-- ==== Sys2Proof/Tests/Slice0.lean ====
section
/-! SUPPORT. The model's own tests: ill-formed commands, single steps on small states, and for each statement a state and
operands that meet its hypotheses. -/

open Sys2Proof Sys2Proof.Machine

namespace Sys2Proof.Tests

/-! The tests are checked one after another: many at once would each hold a stack of their own. -/
set_option Elab.async false

/-- A register file with the given registers set. -/
def regsOf (l : List (Fin 32 × Word)) : Vector Word 32 := l.foldl (fun v e => v.set e.1.val e.2) (Vector.replicate 32 0)
def baseRegs : Vector Word 32 := regsOf
  [(1, 0x100), (2, 0xFFFFFFFF), (4, 0x12345678), (5, 0x2000), (6, 0x1000000), (7, 0x10000), (8, 0x60000000), (9, 1), (11, 0x40),
   (12, 0x2004), (13, 0x3000), (14, 0x3800), (15, 2), (16, 0x10)]

/-- A running tile: code at 0 to 0xFFF, a region of 64 KiB, some registers set. -/
def baseTile : Tile :=
  { Tile.reset with
    run := .running, runBit := true, regionSize := 0x10000, codeSize := 0x1000, ringBase := 0x8000, ringSize := 0x1000
    regs := baseRegs }

/-- Partition 1 holds quad 0; tile 0 runs. -/
def baseState : State :=
  { State.reset with tiles := [(0, baseTile)], parts := [(1, ({ live := true, quads := [0] } : Partition))] }

/-- Tile 0 of `T`. -/
def tileState (T : Tile) : State := { baseState with tiles := [(0, T)] }

/-- As `baseState`, with a block operation outstanding and its token in s9. -/
def busyState : State := tileState { baseTile with
  blocks := [⟨1, 0, false, 0x2000, 0, 8, 0⟩], issued := [(3, 1)],
  regs := (baseTile.regs.set 9 0x60000001).set 10 0x60000002 }
/-- As `baseState`, in Tahr debug mode. -/
def tahrState : State := tileState { baseTile with tahrMode := true }
/-- As `baseState`, with the program counter past the code range. -/
def strayState : State := tileState { baseTile with pc := 0x1000 }

/-- A matrix descriptor of one row and one k-tile, 8-bit, into OUT: A at 0x4000, W at 0x3000, OUT at 0x6000. -/
def mxDesc : MxDesc :=
  { fmtA := 1, fmtW := 1, dest := false, init := false, skip := false, m := 1, kt := 1, tensor := 0, aBase := 0x4000,
    aRowPitch := 16, aKtPitch := 16, asBase := 0, asKtPitch := 0, wBase := 0x3000, wPitch := 1152, cBase := 0, outBase := 0x6000,
    outPitch := 256, colmask := 0, descale := 0x3F800000, reservedOk := true }
def mxOp : MxOp := { num := 1, pc := 0, desc := mxDesc, skipCtrl := 0, skipThresh := 0, emitting := false, rest := [] }
def mxDestOp : MxOp := { mxOp with desc := { mxDesc with dest := true, m := 16 }, emitting := true, rest := [[1]] }
/-- As `baseState`, with the descriptor's fields at 0x2000. -/
def mxCells : List Host.Cell :=
  [(0x2000, 0x11), (0x2002, 1), (0x2004, 1), (0x2009, 0x40), (0x200C, 16), (0x2010, 16), (0x201D, 0x30), (0x2020, 0x80), (0x2021, 4),
   (0x2029, 0x60), (0x202D, 1), (0x2036, 0x80), (0x2037, 0x3F)]
def mxState : State := { baseState with mem := mxCells }
/-- The operation outstanding, its one record an all-zero one (header byte 2). -/
def mxRunState : State := { tileState { baseTile with mx := [mxOp] } with mem := [(0x3000, 2)] }
/-- With the record's first word uncorrectable. -/
def mxBadState : State := { mxRunState with eccBad := [0x600] }

/-- A contiguous binary32 stream at 0x4000. -/
def f32Stream : StreamDesc :=
  { rnd := 0, scale := 0, tensor := 0, rep := 0, rowPitch := 0, rowLen := 0, fmt := 4, loc := false, base := 0x4000, reservedOk := true }
/-- Slots 0 to 2 bound to it at elements 0, 8 and 16, VLEN 4. -/
def vecState : State := tileState { baseTile with vec := { baseTile.vec with
  vlen := 4
  issue := [(0, { desc := some f32Stream }), (1, { desc := some f32Stream, pos := 8 }), (2, { desc := some f32Stream, pos := 16 })] } }
def vecOp : VecOp :=
  { num := 1, pc := 0, vop := .add, dst := .slot 0 f32Stream 0, sa := .slot 1 f32Stream 8, sb := .slot 2 f32Stream 16, sc := .none,
    pred := .none, z := false, vlen := 4, step := 0, seed := 0, chain := 1, scales := [], done := false }
def vecRunState : State := tileState { baseTile with vec := { baseTile.vec with queue := [.op vecOp] } }
/-- A tile that runs these operations. -/
def vecStateOf (l : List VecOp) : State := tileState { baseTile with vec := { baseTile.vec with queue := l.map .op } }
/-- VMOV of 32 elements into an E2M1 stream with its scale bytes. -/
def e2Stream : StreamDesc := { f32Stream with fmt := 0 }
def e8Stream : StreamDesc := { f32Stream with fmt := 7, base := 0x4800 }
def blockVecOp : VecOp := { vecOp with vop := .mov, dst := .slot 0 e2Stream 0, sa := .slot 2 { f32Stream with base := 0x5000 } 0, sb := .none,
                                       vlen := 40, scales := [(0, e8Stream)] }
/-- Two members of a chain. -/
def chainFirst : VecOp := { vecOp with dst := .relay 1 }
def chainSecond : VecOp := { vecOp with num := 2, sa := .relay 1, vop := .mul }
/-- A reduction, a selection, a segmented reduction of one chunk at 0x8000, and a VMOV into an E4M3 stream. -/
def sumOp : VecOp := { vecOp with vop := .sum64, sb := .none }
def selOp : VecOp := { vecOp with vop := .sel24, vlen := 1024, sa := .slot 1 { f32Stream with base := 0x8000 } 0,
                                  sb := .slot 2 { f32Stream with fmt := 8, base := 0xE000 } 0 }
def segrOp : VecOp := { vecOp with
  vop := .segr, vlen := 1, dst := .slot 0 { f32Stream with rowLen := 4, rowPitch := 16 } 0
  sa := .slot 1 { f32Stream with fmt := 0xA, base := 0x8000, rowPitch := 2176 } 0, sb := .slot 2 { f32Stream with loc := true, base := 0, rowLen := 4, rowPitch := 16 } 0 }
def segrState : State := { vecStateOf [segrOp] with mem := [(0x8004, 2)] }
def e4Stream : StreamDesc := { f32Stream with fmt := 1, scale := 0x6000 }
def rollOp : VecOp := { vecOp with vop := .mov, dst := .slot 0 e4Stream 0, sb := .none, step := 3 }
def rollState : State := { vecStateOf [rollOp] with mem := [(0x6000 + 56, 1)] }
def fullVecState : State := tileState { baseTile with vec := { baseTile.vec with queue := List.replicate 16 (.op vecOp) } }
/-- A descriptor at 0x2000 with an unlisted FMT. -/
def badStreamState : State := { baseState with mem := [(0x2003, 0xF0)] }
/-- Parked on the token of the block operation. -/
def parkedState : State := tileState { baseTile with
  run := .parked, park := .token 3 1, blocks := [⟨1, 0, false, 0x2000, 0, 8, 0⟩], issued := [(3, 1)] }

/-- A stopped tile with its region. -/
def stoppedState : State := tileState { baseTile with run := .stopped, runBit := false, entry := 0x10 }
/-- Window 2 of tile 0 over 0x2000 to 0x2FFF, open or not, with writes in flight; window 3 with its end below its base. -/
def winTile (opened : Bool) (n : Nat) : Tile :=
  { baseTile with windows := [(2, { base := 0x2000, wend := 0x3000, sender := 0x80000000, opened := opened, inFlight := n }),
                              (3, { base := 0x3000, wend := 0x2000 })] }
def winState (opened : Bool) (n : Nat) : State := tileState (winTile opened n)
def drainState : State := tileState { winTile false 0 with run := .parked, park := .drain 2 }
/-- Two tiles of the partition: 0 and 32, with windows 2 to 5 of tile 32 open for different senders. -/
def twoTiles (T U : Tile) : State := { baseState with tiles := [(0, T), (32, U)] }
def winTile2 : Tile :=
  { baseTile with windows := [(2, { base := 0x2000, wend := 0x3000, sender := 0x80000000, opened := true, inFlight := 1 }),
                              (3, { base := 0x4000, wend := 0x5000, sender := 0x80000000, opened := true }),
                              (4, { base := 0x2000, wend := 0x3000, sender := 0x00060005, opened := true }),
                              (5, { base := 0x2000, wend := 0x3000, sender := 0x00010000, opened := true }),
                              (6, { base := 0x2000, wend := 0x3000, sender := 0x40060005, opened := true })] }
/-- A put descriptor at 0x2000: 16 bytes from 0x4000 to offset 0x2000 of window 2 of tile 32. -/
def putCells : List Host.Cell := [(0x2001, 0x40), (0x2004, 16), (0x2008, 32), (0x200A, 2), (0x200D, 0x20)]
def putState : State := { twoTiles baseTile winTile2 with mem := putCells }
/-- The remote write of tile 0 to a window of tile 32 (0 for window 2), in some phase. -/
def flight (w : Nat) (ph : PutPhase) : RemoteWrite :=
  { sender := 0, num := 1, pc := 0, row := none, job := 0, dst := 32, window := if w = 0 then 2 else w, dstOff := 0x2000, len := 16,
    src := 0x4000, sum := false, statusOff := 0x3000, phase := ph }
def flightState (w : Nat) (ph : PutPhase) : State :=
  { twoTiles { baseTile with port := { baseTile.port with queue := [⟨1, false, 0⟩] } } winTile2 with
    puts := [(0, flight w ph)], nextId := 1 }
/-- A row of a FORWARD of tile 0's herd to a window of tile 32 that takes movers. -/
def rowFlight (ph : PutPhase) : RemoteWrite := { flight 6 ph with row := some 0, data := List.replicate 16 7 }
def rowState (ph : PutPhase) : State := { twoTiles baseTile winTile2 with puts := [(0, rowFlight ph)] }
def sumFlight : RemoteWrite := { flight 5 .inNet with sum := true }
def sumState (l : List SumCtx) : State := { flightState 5 .inNet with puts := [(0, sumFlight)], sums := l }
/-- A contribution of tile `i` to window 7 of tile 32, whose sender set is `set`. -/
def sumFrom (i : Nat) : RemoteWrite := { sumFlight with sender := i, window := 7 }
def sumMore (i : Nat) (set : Word) (l : List SumCtx) : State :=
  { twoTiles baseTile { baseTile with windows := [(7, { base := 0x2000, wend := 0x3000, sender := set, opened := true })] } with
    puts := [(0, sumFrom i)], sums := l }
/-- A header at 0x2000: 8 bytes to handler 0 of tile 32. -/
def sendState : State := { twoTiles baseTile baseTile with mem := [(0x2000, 32), (0x2004, 8)] }
/-- The message of tile 0 to tile 32. -/
def message (sd : SendPhase) (rc : RecvPhase) (an : List PortAns) : Msg :=
  { sender := 0, num := 1, pc := 0, hdr := 32 + 8 * 2 ^ 32, payload := 0x4000, status := 0x3000, send := sd, recv := rc, answers := an,
    landed := 0x8000 }
def msgState (sd : SendPhase) (rc : RecvPhase) (an : List PortAns) : State :=
  { twoTiles { baseTile with port := { baseTile.port with queue := [⟨1, true, 0⟩] } } baseTile with msgs := [(0, message sd rc an)] }
def recvTile (st : PortRun) (ring : List RingRec) (waiting : List Nat) : Tile :=
  { baseTile with port := { baseTile.port with state := st, ring := ring, waitList := waiting } }
def recvState (rc : RecvPhase) (st : PortRun) (ring : List RingRec) : State :=
  { twoTiles baseTile (recvTile st ring []) with msgs := [(0, message .requested rc [])] }
def waitListState (n : Nat) : State :=
  { twoTiles baseTile (recvTile .opened [] (List.replicate n 5)) with msgs := [(0, message .requested .request [])] }
def withdrawState : State :=
  { twoTiles baseTile (recvTile .opened [] [0]) with msgs := [(0, { message .closed .waitListed [] with withdrawal := true })] }
def ringState : State := tileState (recvTile .opened [.msg 7 0x8000 32 true] [])
/-- A message to a DIRECT handler of tile 32, its buffer of 128 bytes at 0x9000. -/
def directMsg (rc : RecvPhase) : Msg :=
  { message .requested rc [] with landed := 0x9000, direct := if rc = .request then false else true }
def directState (rc : RecvPhase) : State :=
  { twoTiles baseTile { baseTile with port := { baseTile.port with state := .opened, handlers := [(0, 0x40000120)] } } with
    msgs := [(0, directMsg rc)] }
/-- A ring of tile 32 with one record of `n` bytes, its write position at `w`. -/
def fillState (w n : Nat) : State :=
  { twoTiles baseTile { recvTile .opened [.msg 7 (w - n) n false] [] with
      port := { (recvTile .opened [.msg 7 (w - n) n false] []).port with writePos := w } } with
    msgs := [(0, message .requested .request [])] }
/-- A ring with a skip marker at its end, one with a waiting request, and one too full for it. -/
def longRing (l : List Nat) : State :=
  tileState (recvTile .opened [.msg 7 0x8FE0 16 true, .marker 0x8FF0 16, .msg 8 0x8000 32 false] l)
def waitRing : State :=
  { tileState (recvTile .opened [.msg 7 0x8000 32 true] [0]) with msgs := [(0, message .requested .waitListed [])] }
def fullRing : State :=
  { tileState (recvTile .opened [.msg 7 0x8000 16 true, .msg 8 0x8010 0xFF0 false] [0]) with
    msgs := [(0, message .requested .waitListed [])] }
/-- Eight arrival-table entries in use. -/
def tableState : State := tileState { baseTile with
  arrivals := (List.range 8).map (fun (i : Nat) => (i, ({ ref := word (0x10 + i), waiting := true } : ArrEntry))) }
/-- A sync operation in the network; object 1 counts to 4 and stands at 2, object 2 is a barrier of 4, object 3 a flag,
and object 4 a barrier that lacks one arrival of round 9. -/
def syncNet (m : SyncMsg) : State :=
  { tileState { baseTile with syncTravel := true, awaits := [{ reg := 3, id := 0 }] } with
    syncMsgs := [(0, { job := 0, op := m })], nextId := 1
    syncs := [(1, { target := 4, value := 2, gen := 7 }), (2, { mode := 1, target := 4 }),
              (3, { mode := 2, target := 4, value := 2, gen := 4, parked := [(0, 4)], waiters := 1 }),
              (4, { mode := 1, target := 4, value := 3, gen := 9, early := 1, parked := [(0, 9)], waiters := 1 })] }
def resumeState : State := tileState { baseTile with run := .parked, park := .sync 1 0, syncReady := some 1 }

/-- The descriptor that the bytes at 0x2000 spell. -/
def moveDesc (s : State) : MvDesc := MvDesc.ofNat (readNat s.mem 0x2000 64)
/-- A job that holds partition 1's herds and reaches 1 GiB of HBM and of the host window; partition 1 owns link 1. -/
def jobState (s : State) : State :=
  { s with
    jobs := [(1, { part := 1, state := .holding, hbm := [(0, ⟨0x10000000000, 0x40000000⟩)], host := ⟨0x8000000000000, 0x40000000⟩ })]
    links := [(1, { run := .up })]
    parts := [(1, ({ live := true, quads := [0], holding := 1, links := [1] } : Partition))]
    mcs := [(0, { run := .enabled })], power := { s.power with hbm := true, optics := true, lasers := true } }
/-- A descriptor of the given first byte at 0x2000: one row of 64 bytes at 0x4000, memory side the start of HBM. -/
def moveCells (kind : Byte) : List Host.Cell :=
  (if kind = 0 then [] else [(0x2000, kind)])
    ++ [(0x2012, 1), (0x2018, 1), (0x201C, 64), (0x2021, 0x40), (0x202D, 1), (0x2037, 0x7E)]
def moveState (kind : Byte) : State := { jobState baseState with mem := moveCells kind }
def downState : State := { moveState 4 with links := [] }
/-- A READ of one block. -/
def mvRead : MvDesc :=
  { kind := 0, sig := false, dstTile := 0, window := 2, link := 1, redEntry := 0, contrib := 0, rows := 1, rowBytes := 64, loc := 0x4000
    locPitch := 64, addr := 0x10000000000, addrPitch := 64, syncRef := 3, status := 0x6000, reservedOk := true }
/-- The CXL port is up. -/
def portUp (s : State) : State := { s with power := { s.power with cxlWidth := 16 } }
/-- A transfer nothing of which has moved. -/
def mvBlank : MoverOp := { num := 1, pc := 0, desc := mvRead }
/-- A transfer of some kind, as far as `x` says it has come. -/
def mvOp (kind : Nat) (x : MoverOp) : MoverOp := { x with num := 1, pc := 0, desc := { mvRead with kind := kind } }
def mvAnswered (kind : Nat) : MoverOp := { mvOp kind mvBlank with answers := [(0, List.replicate 64 7)] }
def moverState (kind : Nat) (x : MoverOp) : State := jobState (tileState { baseTile with mover := [mvOp kind x] })
def hostOp (kind : Nat) (x : MoverOp) : MoverOp := { x with num := 1, pc := 0, desc := { mvRead with kind := kind, addr := 0x8000000000000 } }
def hostState (kind : Nat) (x : MoverOp) : State := portUp <| jobState (tileState { baseTile with mover := [hostOp kind x] })
/-- One block placed into its crossing and standing before its unit. -/
def placedOp (kind : Nat) : MoverOp := mvOp kind { mvBlank with next := 1, placed := [0] }
def atUnitState (kind : Nat) : State :=
  { moverState kind (placedOp kind) with crossings := [(0, { out := [⟨0, 1, 0, 0x10000000000, kind == 1⟩] })] }
def hostPlaced (kind : Nat) : MoverOp := hostOp kind { mvBlank with next := 1, placed := [0] }
def atHostState (kind : Nat) : State :=
  { hostState kind (hostPlaced kind) with crossings := [(32, { out := [⟨0, 1, 0, 0x8000000000000, kind == 1⟩] })] }
/-- 1 GiB of the DDR tier exposed to the host, channel 0 enabled. -/
def cxlState : State :=
  { baseState with power := { cxlWidth := 16 }, ddrGib := 16, cxl := { base := 0, size := 0x40000000, exposed := true }, mcs := [(16, { run := .enabled })] }
/-- Entry 0 of stack 0 for job 1: one granule at the start of HBM, two contributors. -/
def accEntry (ws : List RedWait) : RedEntry :=
  { bufBase := 0x10000000000, stageBase := 0x10000100000, bufGrans := 1, stageBlocks := 16, contribs := 2, expectRounds := 1, ringLen := 1,
    job := 1, state := .opened, waiting := ws }
def accOp (_n : Nat) : MoverOp := placedOp 3
/-- The ACCUM transfer before it; `stage` staging blocks where not 0. -/
def accState (ws : List RedWait) (stage : Nat) : State :=
  { jobState (tileState { baseTile with mover := [accOp 0], port := { baseTile.port with job := 1 } }) with
    crossings := [(0, { out := [⟨0, 1, 0, 0x10000000000, true⟩] })]
    reds := [(0, if stage = 0 then accEntry ws else { accEntry ws with stageBlocks := stage })] }
/-- The same entry in a ring of two modules. -/
def ringRed (st : RedRun) : State :=
  { accState [] 0 with reds := [(0, { accEntry [] with ringLen := 2, ringTag := 9, nextLink := 1, ringPos := 0, state := st })] }
/-- A job of two modules whose flag sweep has ended. -/
def flagState : State :=
  { ringRed .ring with jobs := [(1, { part := 1, state := .holding, lx := 2, nfRelease := true, results := [(0, 0, 1)] })] }
/-- Commit entry 0 of stack 0, its shard records 4 MiB into HBM. -/
def comEntry : ComEntry :=
  { shardRec := 0x10000400000, master0 := 0x10000500000, master1 := 0x10000600000, m10 := 0x10000700000, m11 := 0x10000800000,
    workBase := 0x10000900000, used := 1, workFmt := 3, state := .ready, enabledOnce := true }
/-- The entry's reduction entry is COMPLETE at step 5, the request block asks for step 5. -/
def comBase (c : ComEntry) (h : Health) (m : Memory) : State :=
  { jobState baseState with
    jobs := [(1, { part := 1, state := .holding, health := h })]
    reds := [(0, { accEntry [] with state := .complete, step := 5 })]
    coms := [(0, c)], mem := m }
def comState (h : Health) : State := comBase { comEntry with request := true } h [(0x10000400000, 5)]
def heldComState : State := comBase { comEntry with request := true, held := true } {} [(0x10000400000, 5)]
def busyCom : State := comBase { comEntry with busy := true, state := .committing } {} []
/-- ACC_SKIP stands in the status block. -/
def skipCom : State := comBase { comEntry with busy := true, state := .committing } {} [(0x10000400054, 1)]
/-- Link 1 of partition 1, whose job spans two modules. -/
def linkState (x : Link) : State :=
  { jobState baseState with
    links := [(1, if x.run = .disabled then { x with run := .up } else x)]
    jobs := [(1, { part := 1, state := .holding, lx := 2, nx := 12 })] }
/-- A transfer header, delivered. -/
def header : RxBlock := ⟨0, 1, 0, 0, 7, []⟩
/-- A LINK_WRITE of link 1 whose blocks are all sent. -/
def linkOp : MoverOp := { mvOp 4 mvBlank with sentAll := true, xfer := 3 }
def answerState : State :=
  { jobState (tileState { baseTile with mover := [linkOp] }) with links := [(1, { run := .up, answers := [3] })] }
def stepState : State :=
  { comBase comEntry {} [] with jobs := [(1, { part := 1, state := .holding })] }
/-- A job of two modules along x, with every engine on x and engine 0 in its partition. -/
def spanJob : Job := { part := 1, state := .holding, lx := 2, nx := 12, bound := true }
def spanState : State :=
  { jobState baseState with
    jobs := [(1, spanJob)]
    parts := [(1, ({ live := true, quads := [0], holding := 1, links := [0] } : Partition))] }
def concordState : State := { spanState with jobs := [(1, { spanJob with concord := some ⟨0, 1, [], []⟩ })] }
/-- Job 1 holds partition 1, the core is on and firmware is ready. -/
def coreState : State := { jobState baseState with power := { core := true, hbm := true, optics := true, dimms := true, lasers := true, cxlWidth := 16 }, fw := .ready }
/-- A second job is ready, and job 1's slice is over with a report on its way. -/
def twoJobs : State :=
  { coreState with jobs := [(1, { part := 1, state := .holding, reports := [{ obj := 0x20000, gen := 1 }], sliceNs := 1000000 }), (2, { part := 1, state := .ready })] }
def faultedJob : State :=
  { coreState with
    jobs := [(1, { part := 1, state := .holding, ctxFault := some (0, 0) })]
    parts := [(1, ({ live := true, quads := [0], holding := 1, fault := true, halt := true, nonfin := true } : Partition))] }
/-- The quiesce is armed and some herds have been asked. -/
def armedState (asked : List Nat) : State :=
  { coreState with parts := [(1, ({ live := true, quads := [0], holding := 1, armed := true, asked := asked } : Partition))] }
/-- Herds 1 to 3 have answered, for a switch or a teardown. -/
def lastAnswer (td : TdPhase) : State :=
  { armedState [0, 1, 2, 3] with jobs := [(1, { part := 1, state := .holding, td := td, answered := [1, 2, 3] })] }
def tdState (td : TdPhase) : State := { coreState with jobs := [(1, { part := 1, state := .holding, td := td })] }
/-- A role of one 64 KiB region for tile 0 of each herd. -/
def oneRole : List Role := [{ size := 0x10000 }]
/-- Job 1 is leaving; `w` is window 0 of its tile 0, stopped. -/
def outState (w : Window) : State :=
  { coreState with
    tiles := [(0, { Tile.reset with windows := [(0, w)] })]
    jobs := [(1, { part := 1, state := .holding, everHeld := true, roles := oneRole })]
    parts := [(1, ({ live := true, quads := [0], holding := 1, resident := 1, armed := true, leaving := true } : Partition))] }
/-- Job 1 is coming in, for the first time or with an empty saved context. -/
def inState (again : Bool) : State :=
  { coreState with
    tiles := [(0, { Tile.reset with regionSize := 0x10000 })]
    jobs := [(1, { part := 1, state := .ready, everHeld := again, ctx := if again then some {} else none, roles := oneRole })]
    parts := [(1, ({ live := true, quads := [0], incoming := 1, resident := 1 } : Partition))] }
/-- A checkpoint of job 1 with some entries still to copy. -/
def ckptState (es : List Nat) : State :=
  { coreState with
    mcs := (List.range 32).map (fun u => (u, { run := .enabled }))
    jobs := [(1, { part := 1, state := .holding, health := {
      run := some ⟨0, 5, 2, es, {}, none, false⟩
      areas := [⟨ddrBase, 0x1000⟩, ⟨ddrBase + 0x1000, 0x1000⟩, ⟨ddrBase + 0x2000, 0x1000⟩, ⟨ddrBase + 0x3000, 0x1000⟩] } })] }
/-- No channel is enabled. -/
def shutState : State := { ckptState [0] with mcs := [] }
/-- Torn down, with slot 0 of entry 0, complete or not. -/
def tornState (full : Bool) : State :=
  { coreState with
    mcs := (List.range 32).map (fun u => (u, { run := .enabled }))
    coms := (sharesOf 0).map (fun k => (k, { rule := 1, used := 2, m10 := 0x10000010000, m20 := 0x10000020000, master0 := 0x10000030000 }))
    jobs := [(1, {
      part := 1, state := .tornDown, health := { local0 := { complete := full, pinned := true, entries := [0] }, areas := [⟨ddrBase, 0x5000⟩] } })] }
/-- A taken command of SEQ 3. -/
def cmdOf (op kind index : Nat) (items : List (Nat × Nat)) : Cmd :=
  { seq := 3, opcode := op, kind := kind, index := index, tag := 9, resultAddr := 0x2000, resultLen := 0x4000, items := items, formOk := true }
/-- The command outstanding in mailbox 1. -/
def cmdState (c : Cmd) (s : State) : State := { s with mailboxes := [(1, { taken := 3, cmds := [c] })] }
/-- The command outstanding in mailbox 0. -/
def mgmtState (c : Cmd) (s : State) : State := { s with mailboxes := [(0, { taken := 3, cmds := [c] })] }
/-- A job of two modules with checkpoint areas. -/
def askState : State :=
  { linkState {} with
    mcs := (List.range 32).map (fun u => (u, { run := .enabled }))
    jobs := [(1, {
      part := 1, state := .holding, lx := 2, nx := 12, bound := true
      health := {
        buddy1 := { complete := true, pinned := true }
        areas := [⟨ddrBase, 0x1000⟩, ⟨ddrBase + 0x1000, 0x1000⟩, ⟨ddrBase + 0x2000, 0x1000⟩, ⟨ddrBase + 0x3000, 0x1000⟩] } })] }
/-- Of the three jobs of partition 1 the first, which holds its herds, and the second, which is saved, have faulted. -/
def savedFault : State :=
  { faultedJob with jobs := faultedJob.jobs ++ [(2, { part := 1, state := .ready, ctx := some {}, ctxFault := some (0, 0) }), (3, { part := 1, state := .ready, ctx := some {} })] }
/-- A sweep of the link step has begun on the first module of a job of `n` along x and two along y: it has got some hops. -/
def sweepState (kind n : Nat) (got : List (Bool × Nat)) (axes : List Nat) : State :=
  { spanState with jobs := [(1, { spanJob with lx := n, ly := 2, nx := 6, ny := 6, sweeps := [{ kind := kind, step := 0, value := 1, axes := axes, got := got }] })] }
/-- A doorbell is pending in mailbox 1, its buffer empty. -/
def bellState (fw : FwState) : State := { coreState with fw := fw, mailboxes := [(1, { doorbell := some 1 })] }
/-- Mailbox 1 holds a record, its ring enabled. -/
def ringMb : State := { coreState with mailboxes := [(1, { crBase := 0x1000, crSize := 6, enable := true, held := [{}] })] }
/-- Link 1, partition 2 and channel 0 in some lifecycle state, engine 0 ON. -/
def lifeState (r : LifeRun) : State :=
  { coreState with lives := [(lifeKey 1 2, { run := r }), (lifeKey 2 1, { run := r }), (lifeKey 3 0, { run := .on }), (lifeKey 4 0, { run := r })] }
/-- Reduction entry 0 is starting up with a sound configuration for job 1. -/
def redState : State :=
  { coreState with lives := [(lifeKey 5 0, { run := .starting, config := [(1, 0x10000000000), (2, 0x10000100000), (3, 1), (4, 16), (5, 5), (6, 3),
      (10, 2), (11, 1), (12, 1), (15, 1)] })] }
/-- A minimal image: one empty section, one closing device object, no role; `d` stands at DIGEST. -/
def imageWith (d : List Byte) : List Byte :=
  leBytes 32 (0x47424D4E + 9 * 2 ^ 40 + 2 ^ 48 + 2 ^ 96 + 4 * 2 ^ 112 + 4 * 2 ^ 128 + 2 ^ 160 + 2 ^ 176 + 1152 * 2 ^ 224) ++ d
    ++ List.replicate 1056 0 ++ leBytes 32 (1 + 2 ^ 44 + 2 ^ 48 + 2 ^ 50 + 2 ^ 96)
def loadImage : List Byte := imageWith (sha256 (imageWith (List.replicate 32 0)))
/-- Partition 1 is ON with no job, and JOB_LOAD of that image waits. -/
def loadState : State :=
  cmdState (cmdOf Op.jobLoad 1 1 [(1, 0), (2, 1152)]) { coreState with
    jobs := [], lives := [(lifeKey 1 1, { run := .on })]
    parts := [(1, ({ live := true, quads := [0], devObjs := [0] } : Partition))] }
/-- Job 1 is loaded and job 2 holds the herds. -/
def newJob : State :=
  { coreState with
    jobs := [(1, { part := 1 }), (2, { part := 1, state := .holding })]
    parts := [(1, ({ live := true, quads := [0], holding := 2, resident := 1 } : Partition))] }
/-- The four shares of reduction entry 0 are COMPLETE. -/
def doneReds : State :=
  { coreState with reds := (sharesOf 0).map (fun k => (k, { accEntry [] with state := .complete, step := 5 })) }
/-- Commit entry 0 is ON. -/
def comLife : State := { coreState with reds := [(0, accEntry [])], coms := [(0, comEntry)], lives := [(lifeKey 6 0, { run := .on })] }
/-- Commit entry 0 starts up over an open reduction entry: SGDM over 2 elements, every array at a place of its own; `init` is INIT. -/
def initCom (init : Nat) : State :=
  { coreState with
    reds := (sharesOf 0).map (fun k => (k, accEntry [])), lives := [(lifeKey 6 0, {
      run := .starting, config := [(1, 0x10000200000), (2, 0x10000210000), (3, 0x10000220000), (4, 0x10000230000), (5, 0x10000240000),
        (8, 0x10000250000), (10, 2), (14, 1), (24, init), (25, 4)] }), (lifeKey 5 0, { run := .on })] }
/-- Job 1 has ended with a commit entry. -/
def keptState : State :=
  { coreState with jobs := [(1, { part := 1, state := .ended })], reds := [(0, accEntry [])], coms := [(0, comEntry)] }
/-- A range of 1 GiB of the DDR tier in some hands; partition 1 holds 1 GiB from 64 GiB, and its tile 0 moves bytes of the range. -/
def rangeState (owner : Nat) : State :=
  { coreState with
    ddrGib := 16, cxl := { base := 0, size := gib, owner := owner }
    tiles := [(0, { baseTile with mover := [{ mvBlank with desc := { mvRead with addr := ddrBase } }] })]
    parts := [(1, ({ live := true, quads := [0], holding := 1, ddrSet := 0xF0, ddrBase := 0, ddrSize := 1 } : Partition))] }
/-- Firmware of one 64-byte block, its header's fields in place, unsigned. -/
def fwImage : List Byte :=
  leBytes 128 (0x57464E4E + 9 * 2 ^ 40 + 2 ^ 48 + 1 * 2 ^ 376 + 7 * 2 ^ 384 + 64 * 2 ^ 448) ++ List.replicate 3668 0
/-- FW_LOAD waits for the end of boot. -/
def loadingState : State :=
  mgmtState { cmdOf Op.fwLoad 0 0 [] with phase := .waiting } { baseState with fw := .loading, boot := { loading := some 3, version := 7 } }
/-- A partition with a running tile has device object 5. -/
def ownedObj : State := { coreState with parts := [(1, ({ live := true, quads := [0], devObjs := [5] } : Partition))] }
/-- The VOPs of vectors and reductions. -/
def vopList : List Vop :=
  [.mov, .add, .sub, .mul, .fma, .min, .max, .abs, .neg, .div, .sqrt, .relu, .clamp, .exp, .exp2, .log, .rcp,
  .rsqrt, .tanh, .sigm, .gelu, .silu, .cmpgt, .cmpge, .cmpeq, .cmpne, .sel, .sum64, .sum64a, .ssq64, .ssq64a,
  .dot64, .dot64a, .maxr]
/-- Slots bound for VSEGR: a destination of rows, bytes of FMT 0xA, a source of rows in the cache. -/
def segState : State := tileState { baseTile with vec := { baseTile.vec with
  vlen := 4
  issue := [(0, { desc := some { f32Stream with rowLen := 4, rowPitch := 16 } }), (1, { desc := some { f32Stream with fmt := 0xA } }),
    (2, { desc := some { f32Stream with loc := true, base := 0, rowLen := 4, rowPitch := 16 } })] } }
/-- Slots bound for VSEL24: binary32 destination and source, words of FMT 8. -/
def selState : State := tileState { baseTile with vec := { baseTile.vec with
  vlen := 2048
  issue := [(0, { desc := some f32Stream }), (1, { desc := some { f32Stream with base := 0x8000 } }),
    (2, { desc := some { f32Stream with fmt := 8, base := 0xE000 } })] } }

theorem witness_StepTakesFront : ({ State.reset with pending := [Instr.powerOn] } : State).pending = Instr.powerOn :: [] := by decide

theorem witness_IdleStepPassesTime : State.reset.pending = [] ∧ (State.reset.link 0).run ≠ .up ∧
    (∀ e ∈ (linkState {}).links, e.2.delivered = []) ∧ (∀ e ∈ (linkState {}).reds, e.2.ringHeld = []) ∧
    (∀ e ∈ (linkState {}).jobs, e.2.concord = none) ∧ (linkState {}).pending = [] := by decide

theorem witness_AluRegisterResults : CanIssue 0 [1, 2] baseState ∧ (baseState.tile 0).reg 1 = 0x100 := by decide

theorem witness_DivisionResults : CanIssue 0 [1, 3] baseState ∧ (baseState.tile 0).reg 3 = 0 := by decide

theorem witness_ImmediateResults : CanIssue 0 [1] baseState ∧ CanIssue 0 [0] baseState ∧ (31#16).toNat < 32 ∧ 32 ≤ (32#16).toNat := by
  decide

theorem witness_LoadResults : CanIssue 0 [1] baseState ∧ 0x100 = (((baseState.tile 0).reg 1).toNat + (0#16).toInt) % 2 ^ 32 ∧
    Accessible 0 0x100 1 baseState ∧ Accessible 0 0x100 2 baseState ∧ Accessible 0 0x100 4 baseState ∧ Accessible 0 0x100 8 baseState := by
  decide

theorem witness_StoreResults : CanIssue 0 [5, 4, 5] baseState ∧ 0x2000 = (((baseState.tile 0).reg 5).toNat + (0#16).toInt) % 2 ^ 32 ∧
    Accessible 0 0x2000 1 baseState ∧ Accessible 0 0x2000 2 baseState ∧ Accessible 0 0x2000 4 baseState ∧
    Accessible 0 0x2000 8 baseState ∧ NotCode 0 0x2000 8 baseState := by decide

theorem witness_AccessChecks : CanIssue 0 [1, 2, Reg.pair 2] baseState ∧ (((baseState.tile 0).reg 1).toNat + (0#16).toInt) % 2 ^ 32 = 0x100 ∧
    (((baseState.tile 0).reg 1).toNat + (2#16).toInt) % 2 ^ 32 = 0x102 ∧ 0x100 < (baseState.tile 0).codeBase + (baseState.tile 0).codeSize ∧
    (((baseState.tile 0).reg 6).toNat + (0#16).toInt) % 2 ^ 32 = 0x1000000 ∧ CanIssue 0 [1, 1, Reg.pair 1] baseState ∧
    (((baseState.tile 0).reg 7).toNat + (0#16).toInt) % 2 ^ 32 = 0x10000 ∧
    (baseState.tile 0).regionBase + (baseState.tile 0).regionSize < 0x10000 + 4 ∧ CanIssue 0 [6, 2, Reg.pair 2] baseState ∧
    CanIssue 0 [7, 2, Reg.pair 2] baseState := by decide
/-- The word at 0x2000 of herd 0 is in error. -/
def badWordState : State := { baseState with eccBad := [0x400] }
/-- Tahr mode with the bytes at 0x2000 reserved by a block operation that writes them, or without a reservation. -/
def reservedState (r : List TahrRes) : State := tileState { baseTile with tahrMode := true, tahr := { res := r } }
theorem witness_AccessChecks_tahr : CanIssue 0 [5, 2, Reg.pair 2] badWordState ∧ (0x400 : Nat) ∈ badWordState.eccBad ∧
    0x400 * 8 < devOf 0 0x2000 + 4 ∧ CanIssue 0 [5, 2, Reg.pair 2] (reservedState [⟨3, 1, 0x2000, 64, true⟩]) ∧
    ((reservedState [⟨3, 1, 0x2000, 64, true⟩]).tile 0).tahr.res = [⟨3, 1, 0x2000, 64, true⟩] ∧
    ((reservedState []).tile 0).tahr.res = [] ∧ (∀ w ∈ ((reservedState []).tile 0).windows, w.2.opened = false) ∧
    ((reservedState []).tile 0).tahrMode = true ∧ ((reservedState []).tile 0).tahr.pass = none ∧ NotCode 0 0x2000 8 (reservedState []) ∧
    CleanRange (devOf 0 0x2000) 8 (reservedState []) := by decide

theorem witness_BranchesAndJumps : CanIssue 0 [1, 2] baseState ∧ (BitVec.ofInt 32 (((baseState.tile 0).reg 1).toNat + (4#16).toInt)).toNat % 4 = 0 ∧
    (BitVec.ofInt 32 (((baseState.tile 0).reg 1).toNat + (2#16).toInt)).toNat % 4 ≠ 0 := by decide

theorem witness_ControlInstructions : CanIssue 0 [] baseState ∧ (baseState.tile 0).vec.relays.any (fun e => e.2.owed) = false ∧
    (baseState.tile 0).unitsDone = true ∧ (baseState.tile 0).vec.slots = [] ∧ (baseState.tile 0).draining = false ∧ baseState.jobOfTile 0 = 0 ∧
    (baseState.tile 0).tahrMode = false := by decide
theorem witness_ControlInstructions_busy : CanIssue 0 [] busyState ∧ (busyState.tile 0).vec.relays.any (fun e => e.2.owed) = false ∧
    (busyState.tile 0).unitsDone = false := by decide
theorem witness_ControlInstructions_tahr : CanIssue 0 [] tahrState ∧ (tahrState.tile 0).tahrMode = true := by decide

theorem witness_TokenInstructions_seen : CanIssue 0 [8] baseState ∧ 0 ≤ (baseState.tile 0).count 3 ∧
    (baseState.tile 0).reg 8 = word (3 * 2 ^ 29 + 0 % 2 ^ 29) ∧ (∀ m ∈ (baseState.tile 0).outstanding 3, 0 < m) ∧
    CanIssue 0 [1] baseState ∧ ((baseState.tile 0).reg 1).toNat / 2 ^ 29 = 0 ∧ 5 < ((baseState.tile 0).reg 1).toNat ∧
    CanIssue 0 [9] baseState ∧ 1 ≤ ((baseState.tile 0).reg 9).toNat ∧ ((baseState.tile 0).reg 9).toNat ≤ 5 := by decide
theorem witness_TokenInstructions_waiting : CanIssue 0 [9] busyState ∧ (busyState.tile 0).reg 9 = word (3 * 2 ^ 29 + 1 % 2 ^ 29) ∧
    1 ≤ (busyState.tile 0).count 3 ∧ (∃ m ∈ (busyState.tile 0).outstanding 3, m ≤ 1) ∧
    CanIssue 0 [10] busyState ∧ (busyState.tile 0).reg 10 = word (3 * 2 ^ 29 + ((busyState.tile 0).count 3 + 1) % 2 ^ 29) := by decide

theorem witness_OwnRegisterAccess : CanIssue 0 [0, 2] baseState ∧
    [0x000, 0x010, 0x020, 0x024, 0x904, 0x908, 0x940].all (fun n => (((baseState.tile 0).reg 0).toNat + (BitVec.ofNat 16 n).toInt) % 2 ^ 32 == n) = true ∧
    (((baseState.tile 0).reg 0).toNat + (2#16).toInt) % 2 ^ 32 = 2 ∧ (((baseState.tile 0).reg 0).toNat + (0x1000#16).toInt) % 2 ^ 32 = 0x1000 := by
  decide

theorem witness_IssueConditions : issuerOf (.rqpop 0) = some 0 ∧
    0 < State.reset.tileCount ∧ (State.reset.tile 0).run ≠ .running ∧ (strayState.tile 0).run = .running ∧
    (strayState.tile 0).syncTravel = false ∧ (strayState.tile 0).awaits = [] ∧ (strayState.tile 0).fetchOk = false := by decide
theorem witness_IssueConditions_illegal : CanIssue 0 [] baseState ∧ tileInstr 0 (0xFC000000#32).toNat = none ∧
    tileInstr 0 (0xE8000003#32).toNat = some (.rqpop 0) ∧ fieldsLegal (.rqpop 0) = true := by decide

theorem witness_TileWordRoundTrip : tileCode (.vadd 0 8 7 1 0 false false) = some 0xC40A1C40 ∧
    tileInstr 0 0xC40A1C40 = some (.vadd 0 8 7 1 0 false false) ∧ issuerOf (.vadd 0 8 7 1 0 false false) = some 0 ∧
    issuerOf .powerOn = none := by decide
theorem witness_TileWordRoundTrip_addi : 0x08000000 < 2 ^ 32 ∧ tileInstr 0 0x08000000 = some (.addi 0 0 0 0) ∧ wordLegal 0x08000000 = true := by
  decide

theorem witness_MatrixIssue : CanIssue 0 [5] mxState ∧ (mxState.tile 0).mx.length < 4 ∧ Accessible 0 0x2000 64 mxState ∧
    checkMx 0 (mxState.tile 0) (MxDesc.ofNat (readNat mxState.mem (devOf 0 0x2000) 64)) = none := by decide +kernel
theorem witness_MatrixIssue_faults : CanIssue 0 [5] baseState ∧ Accessible 0 0x2000 64 baseState ∧
    checkMx 0 (baseState.tile 0) (MxDesc.ofNat (readNat baseState.mem (devOf 0 0x2000) 64)) = some ⟨Code.mxField, 0⟩ := by decide +kernel
theorem witness_MatrixIssue_full : CanIssue 0 [5] (tileState { baseTile with mx := List.replicate 4 mxOp }) ∧
    4 ≤ ((tileState { baseTile with mx := List.replicate 4 mxOp }).tile 0).mx.length := by decide

theorem witness_MatrixCompletion : 0 < mxRunState.tileCount ∧ (mxRunState.tile 0).run = .running ∧ (mxRunState.tile 0).mx = [mxOp] ∧
    mxOp.desc.dest = false ∧ mxOp.emitting = false ∧
    (match mxCompute 0 mxOp mxRunState with | .ok (x, _) => decide (x.rows = [List.replicate 64 0]) | .error _ => false) = true := by
  decide +kernel
theorem witness_MatrixCompletion_faults :
    (match mxCompute 0 mxOp mxBadState with
      | .ok _ => false | .error (f, _) => decide (f = ⟨Code.memoryUncorrectable, 0x3000⟩)) = true := by decide +kernel
theorem witness_MatrixCompletion_dest : (tileState { baseTile with mx := [mxDestOp] }).tileCount = 12288 ∧ mxDestOp.desc.dest = true ∧
    mxDestOp.emitting = true ∧ mxDestOp.rest = [[1]] ∧ { mxDestOp with rest := [] }.rest = [] ∧
    (tileState { baseTile with mx := [mxDestOp] }).tile 0 = { baseTile with mx := [mxDestOp] } := by decide
/-- An operation in emission with the last of its two lines left. -/
def mxEmitOp : MxOp := { mxOp with emitting := true, rest := [List.replicate 32 7] }
theorem witness_MatrixCompletion_emission : mxEmitOp.emitting = true ∧ mxEmitOp.desc.dest = false ∧ (∀ l ∈ mxEmitOp.rest, l.length = 32) ∧
    mxEmitOp.rest.length ≤ 2 * mxEmitOp.desc.m ∧ 256 ≤ mxEmitOp.desc.outPitch ∧ mxEmitOp.lineAt = mxEmitOp.desc.outBase + 128 := by decide
theorem witness_MatrixCompletion_push :
    (match mxCompute 0 { mxOp with desc := { mxOp.desc with dest := true } } mxRunState with
      | .ok (x, _) => decide (chunks 1024 x.rows.flatten = [List.replicate 64 0]) | .error _ => false) = true := by decide +kernel

theorem witness_VectorBinding : CanIssue 0 [5] baseState ∧ Accessible 0 0x2000 1 baseState ∧ CleanRange (devOf 0 0x2000) 16 baseState ∧
    0x2000 + 16 ≤ (baseState.tile 0).regionBase + (baseState.tile 0).regionSize ∧ (baseState.tile 0).vec.queue = [] ∧
    (baseState.tile 0).depth 2 < 16 ∧ (StreamDesc.ofNat (readNat baseState.mem (devOf 0 0x2000) 16)).ok = true ∧
    ((baseState.tile 0).execSlot 0).usedDst = false := by decide
theorem witness_VectorBinding_bad : CanIssue 0 [5] badStreamState ∧ Accessible 0 0x2000 1 badStreamState ∧
    (StreamDesc.ofNat (readNat badStreamState.mem (devOf 0 0x2000) 16)).ok = false := by decide
theorem witness_VectorBinding_full : CanIssue 0 [5] fullVecState ∧ 16 ≤ (fullVecState.tile 0).depth 2 := by decide
theorem witness_VectorBinding_behind : CanIssue 0 [5] vecRunState ∧ (vecRunState.tile 0).vec.queue = [.op vecOp] ∧ vecOp.vlen ≠ 0 ∧
    (vecRunState.tile 0).depth 2 < 16 ∧ Accessible 0 0x2000 1 vecRunState := by decide

theorem witness_VectorIssue : CanIssue 0 [] vecState ∧ (vecState.tile 0).tahrMode = false ∧
    (vecState.tile 0).depth 2 < 16 ∧ (vecState.tile 0).vec.vlen ≠ 0 ∧ (vecState.tile 0).vec.queue = [] ∧
    vopFieldsOk .add 1 2 0 0 false false = false ∧
    ((vecState.tile 0).vopUse .add 1 2 6 0 false false).fault 0 (vecState.tile 0) = some ⟨Code.vxOperand, 0⟩ := by decide
/-- With these selectors the operation is legal and faults nothing. -/
def vopGoes (s : State) (v : Vop) (sb sc : BitVec 4) : Bool :=
  vopFieldsOk v 1 2 sb.toNat sc.toNat false false && ((s.tile 0).vopUse v 1 2 sb sc false false).fault 0 (s.tile 0) == none
theorem witness_VectorIssue_all : ∀ v ∈ vopList, vopGoes vecState v 3 3 || vopGoes vecState v 3 0 || vopGoes vecState v 0 0 := by decide +kernel
theorem witness_VectorIssue_special : CanIssue 0 [] segState ∧ CanIssue 0 [] selState ∧ vopGoes segState .segr 3 0 ∧ vopGoes selState .sel24 3 0 ∧
    vopGoes selState .sel24q 3 0 ∧ (segState.tile 0).vec.vlen ≠ 0 ∧ (selState.tile 0).vec.vlen ≠ 0 := by decide +kernel
theorem witness_VectorIssue_full : CanIssue 0 [] fullVecState ∧ 16 ≤ (fullVecState.tile 0).depth 2 := by decide

theorem witness_VectorCompletion : VecReady 0 [vecOp] vecRunState ∧ vecOp.Rolled 0 [] vecRunState ∧ vecOp.vop.isReduce = false ∧
    vecOp.vop.isSel24 = false ∧ vecOp.vop ≠ .segr ∧ vecOp.dst = .slot 0 f32Stream 0 ∧ vecOp.sa = .slot 1 f32Stream 8 ∧
    vecOp.sb = .slot 2 f32Stream 16 ∧ vecOp.sc = .none ∧ f32Stream.fmt ≠ 0 ∧ f32Stream.Placed 0 vecOp.vlen := by decide
theorem witness_VectorCompletion_block : VecReady 0 [blockVecOp] (vecStateOf [blockVecOp]) ∧ blockVecOp.Rolled 0 [] (vecStateOf [blockVecOp]) ∧
    blockVecOp.dst = .slot 0 e2Stream 0 ∧ e2Stream.fmt = 0 ∧ blockVecOp.blk 0 = some e8Stream ∧ e8Stream.fmt = 7 := by decide
theorem witness_VectorCompletion_blocksApart : e2Stream.BlocksApart e8Stream 0 40 := by decide +kernel
theorem witness_VectorCompletion_chain : VecReady 0 [chainFirst, chainSecond] (vecStateOf [chainFirst, chainSecond]) ∧
    chainFirst.chain = chainSecond.chain ∧ chainFirst.vlen = chainSecond.vlen ∧ chainFirst.dst = .relay 1 ∧ chainSecond.sa = .relay 1 ∧
    chainSecond.dst = .slot 0 f32Stream 0 ∧ fmtE4M3.top < fmtE4M3.roundMag .nearest 1000 0 := by decide
theorem witness_VectorCompletion_ftqClr : (baseState.tile 0).run = .running ∧ (baseState.tile 0).vec.queue = [] := by decide

theorem witness_VectorReductionsAndRecords : VecReady 0 [sumOp] (vecStateOf [sumOp]) ∧ sumOp.Rolled 0 [] (vecStateOf [sumOp]) ∧
    sumOp.vop.isReduce = true ∧ 0 < sumOp.vlen ∧ sumOp.dst = .slot 0 f32Stream 0 ∧ f32Stream.fmt = 4 ∧
    selOp.vlen % 1024 = 0 := by decide
theorem witness_VectorReductionsAndRecords_sel : VecReady 0 [selOp] (vecStateOf [selOp]) ∧ selOp.vop.isSel24 = true ∧ selOp.vlen % 1024 = 0 ∧
    selOp.sb = .slot 2 { f32Stream with fmt := 8, base := 0xE000 } 0 ∧ selOp.dst = .slot 0 f32Stream 0 := by decide
theorem witness_VectorReductionsAndRecords_segr : VecReady 0 [segrOp] segrState ∧ segrOp.vop = .segr ∧ segrOp.vlen = 1 ∧
    segrOp.dst = .slot 0 { f32Stream with rowLen := 4, rowPitch := 16 } 0 ∧
    readNat segrState.mem 0x8004 2 = 2 ∧ readNat (vecStateOf [segrOp]).mem 0x8004 2 = 0 := by decide
theorem witness_VectorReductionsAndRecords_record : VecReady 0 [rollOp] rollState ∧ (0, e4Stream) ∈ rollOp.slots ∧ e4Stream.recordUsed = true ∧
    rollOp.Rolled 0 [0] rollState ∧ rollOp.step < 2 ^ 32 ∧ ScaleRec.wellFormed (rollState.record 0 e4Stream) = true ∧
    ScaleRec.fmt (rollState.record 0 e4Stream) = e4Stream.fmt ∧ rollOp.dst = .slot 0 e4Stream 0 ∧
    ScaleRec.fmt ((vecStateOf [rollOp]).record 0 e4Stream) ≠ e4Stream.fmt := by decide +kernel

theorem witness_ArithmeticRules : mxOp.desc.skip = false ∧ mxOp.desc.fmtA = 1 ∧ mxOp.desc.fmtW ≤ 3 ∧ 0 < mxOp.desc.m ∧
    readNat mxRunState.mem (devOf 0 mxOp.desc.wBase) 1 = 2 ∧ mxOp.desc.kt = 1 ∧
    (match mxCompute 0 mxOp mxRunState with | .ok _ => true | .error _ => false) = true ∧ (comEntry.rule ≤ 2) := by decide +kernel

theorem witness_BlockUnit_fill : CanIssue 0 [5, 11, 4] baseState ∧ (baseState.tile 0).blocks.length < 4 ∧ (baseState.tile 0).tahrMode = false ∧
    ((baseState.tile 0).reg 5).toNat = 0x2000 ∧ ((baseState.tile 0).reg 11).toNat = 0x40 ∧ NotCode 0 0x2000 0x40 baseState ∧
    ((baseState.tile 0).reg 12).toNat = 0x2004 ∧ (baseState.tile 0).regionSize = 0x10000 ∧ (baseState.tile 0).regionBase = 0 := by decide
theorem witness_BlockUnit_full : CanIssue 0 [5, 11, 4] (tileState { baseTile with blocks := List.replicate 4 ⟨1, 0, false, 0x2000, 0, 8, 0⟩ }) ∧
    4 ≤ ((tileState { baseTile with blocks := List.replicate 4 ⟨1, 0, false, 0x2000, 0, 8, 0⟩ }).tile 0).blocks.length ∧
    CanIssue 0 [5, 4, 4] baseState ∧ 0x1000000 < ((baseState.tile 0).reg 4).toNat ∧ ((baseState.tile 0).reg 5).toNat < 0x1000000 ∧
    (baseState.tile 0).regionBase + (baseState.tile 0).regionSize < 0x2000 + ((baseState.tile 0).reg 4).toNat := by decide
theorem witness_BlockUnit_long : CanIssue 0 [5, 4, 4] (tileState { baseTile with regionSize := 0x20000000 }) ∧
    NotCode 0 0x2000 0x12345678 (tileState { baseTile with regionSize := 0x20000000 }) ∧
    0x2000 + ((baseState.tile 0).reg 4).toNat ≤ ((tileState { baseTile with regionSize := 0x20000000 }).tile 0).regionSize := by decide
theorem witness_BlockUnit_complete : 0 < busyState.tileCount ∧ (busyState.tile 0).blocks = [⟨1, 0, false, 0x2000, 0, 8, 0⟩] ∧
    busyState.eccBad = [] ∧ busyState.eccSoft = [] ∧ (busyState.tile 0).run = .running := by decide
theorem witness_BlockUnit_wakes : (parkedState.tile 0).run = .parked ∧ (parkedState.tile 0).park = .token 3 1 ∧
    (parkedState.tile 0).hold = false ∧ (parkedState.tile 0).tahr.waiting = [] ∧
    (parkedState.tile 0).blocks = [⟨1, 0, false, 0x2000, 0, 8, 0⟩] := by decide

theorem witness_WindowControl_open : CanIssue 0 [] (winState false 0) ∧ (((winState false 0).tile 0).window 2).opened = false ∧
    windowBad 0 2 (winState false 0) = false ∧ windowBad 0 3 (winState false 0) = true ∧
    (((winState false 0).tile 0).window 3).wend.toNat ≤ (((winState false 0).tile 0).window 3).base.toNat := by decide
theorem witness_WindowControl_close : CanIssue 0 [] (winState true 0) ∧ (((winState true 0).tile 0).window 2).opened = true ∧
    ((winState true 0).tile 0).tahrMode = false ∧ (((winState true 0).tile 0).window 2).inFlight = 0 ∧
    CanIssue 0 [] (winState true 1) ∧ (((winState true 1).tile 0).window 2).inFlight ≠ 0 := by decide
theorem witness_WindowControl_drain : 0 < drainState.tileCount ∧ (drainState.tile 0).run = .parked ∧ (drainState.tile 0).park = .drain 2 ∧
    ((drainState.tile 0).window 2).inFlight = 0 ∧ (drainState.tile 0).hold = false ∧ (drainState.tile 0).tahr.waiting = [] := by decide

theorem witness_PutIssue : CanIssue 0 [5, 13] putState ∧ (putState.tile 0).port.queue.length < 16 ∧ Accessible 0 0x2000 16 putState ∧
    Accessible 0 0x3000 8 putState ∧ NotCode 0 0x3000 8 putState ∧
    (PutDesc.ofNat (readNat putState.mem (devOf 0 0x2000) 16)).ok putState = true ∧
    (PutDesc.ofNat (readNat putState.mem (devOf 0 0x2000) 16)).src + (PutDesc.ofNat (readNat putState.mem (devOf 0 0x2000) 16)).len ≤ 0x10000 ∧
    (PutDesc.ofNat (readNat baseState.mem (devOf 0 0x2000) 16)).ok baseState = false ∧ CanIssue 0 [5, 13] baseState := by decide +kernel

theorem witness_RemoteWrites : (flightState 0 .inNet).put 0 = some (flight 0 .inNet) ∧ (flight 0 .inNet).row = none ∧ (flight 0 .inNet).sum = false ∧
    (((flightState 0 .inNet).tile 32).window 2).opened = true ∧ ((0x2000 : Word).toNat ≤ 0x2000 ∧ 0x2000 + 16 ≤ (0x2000 : Word).toNat + ((flightState 0 .inNet).tile 32 |>.window 2).len) ∧
    (flightState 0 .inNet).hitsSum 32 0x2000 16 = false ∧ bit ((flightState 0 .inNet).tile 32 |>.window 2).sender.toNat 31 = true ∧
    (flightState 0 .inNet).samePart 0 32 = true ∧ (flight 0 .inNet).ansResends < 3 ∧ (flight 0 .inNet).job = ((flightState 0 .inNet).tile 32).port.job ∧
    ((flightState 0 .inNet).tile 32).tahrMode = false := by decide
theorem witness_RemoteWrites_refused : (flightState 1 .inNet).put 0 = some (flight 1 .inNet) ∧
    (((flightState 1 .inNet).tile 32).window 1).opened = false ∧
    (((flightState 3 .inNet).tile 32).window 3).opened = true ∧ (((flightState 3 .inNet).tile 32).window 3).base.toNat = 0x4000 ∧
    (((flightState 4 .inNet).tile 32).window 4).opened = true ∧ bit (((flightState 4 .inNet).tile 32).window 4).sender.toNat 31 = false ∧
    (((flightState 4 .inNet).tile 32).window 4).lo = 5 ∧ (flightState 0 .inNet).samePart 0 4000 = false := by decide
theorem witness_RemoteWrites_commit : (flightState 0 .accepted).put 0 = some (flight 0 .accepted) ∧ (flightState 0 .accepted).eccBad = [] ∧
    (flightState 0 .accepted).eccSoft = [] ∧ (flight 0 .accepted).resends < 3 ∧
    (flightState 0 (.answered 1)).put 0 = some (flight 0 (.answered 1)) ∧ (flightState 0 (.answered 1)).msg 0 = none ∧
    ((flightState 0 (.answered 1)).tile 0).run = .running ∧ (flight 0 (.answered 1)).live = true ∧ (flight 0 .accepted).sum = false := by decide
theorem witness_RemoteWrites_row : (rowState .inNet).put 0 = some (rowFlight .inNet) ∧ (rowFlight .inNet).row ≠ none ∧
    (rowFlight .inNet).data.length = (rowFlight .inNet).len ∧ bit (((rowState .inNet).tile 32).window 6).sender.toNat 30 = true ∧
    (((rowState .inNet).tile 32).window 6).opened = true ∧ checkWrite (rowFlight .inNet) (rowState .inNet) = none ∧
    (rowState (.answered 0xA)).put 0 = some (rowFlight (.answered 0xA)) ∧ (rowState (.answered 0xA)).msg 0 = none ∧
    ((rowState (.answered 0xA)).tile 0).tahrMode = false := by decide

theorem witness_InFlightSums_more :
    checkSum (sumFrom 0) none (sumMore 0 0x00000000 []) = none ∧ (((sumMore 0 0x00000000 []).tile 32).window 7).contribs = 1 ∧
    checkSum (sumFrom 2) (some ⟨32, 7, 0x2000, 16, 3, [0, 1], [(1, 0)], true⟩) (sumMore 2 0x00020000 [⟨32, 7, 0x2000, 16, 3, [0, 1], [(1, 0)], true⟩]) = none ∧
    (((sumMore 2 0x00020000 []).tile 32).window 7).contribs = 3 ∧
    checkSum (sumFrom 3) (some ⟨32, 7, 0x2000, 16, 4, [0, 1, 2], [(0, 2), (1, 0)], false⟩)
      (sumMore 3 0x00030000 [⟨32, 7, 0x2000, 16, 4, [0, 1, 2], [(0, 2), (1, 0)], false⟩]) = none ∧
    (((sumMore 3 0x00030000 []).tile 32).window 7).contribs = 4 ∧ (sumMore 3 0x00030000 []).put 0 = some (sumFrom 3) := by decide
theorem witness_InFlightSums : (sumState []).put 0 = some sumFlight ∧ sumFlight.row = none ∧ sumFlight.sum = true ∧ sumFlight.phase = .inNet ∧
    (((sumState []).tile 32).window 5).contribs = 2 ∧ sumFlight.sender - (((sumState []).tile 32).window 5).lo = 0 ∧
    sumFlight.len % 8 = 0 ∧ ((sumState []).tile 32).tahrMode = false ∧ (sumState []).sums = [] ∧ checkSum sumFlight none (sumState []) = none ∧
    checkSum sumFlight (some ⟨32, 5, 0x2000, 16, 2, [1], [(0, 1)], false⟩) (sumState [⟨32, 5, 0x2000, 16, 2, [1], [(0, 1)], false⟩]) = none := by decide

theorem witness_MessageSending_send : CanIssue 0 [5, 13, 14] sendState ∧ (sendState.tile 0).port.queue.length < 16 ∧
    Accessible 0 0x2000 16 sendState ∧ Accessible 0 0x3800 8 sendState ∧ NotCode 0 0x3800 8 sendState ∧
    headerOk (readNat sendState.mem (devOf 0 0x2000) 16) sendState = true ∧
    sendState.samePart 0 (readNat sendState.mem (devOf 0 0x2000) 16 % 2 ^ 14) = true ∧ sendState.requestAhead 0 32 = false ∧
    readNat sendState.mem (devOf 0 0x2000) 16 / 2 ^ 32 % 2 ^ 16 = 8 := by decide +kernel
theorem witness_MessageSending_answers : (msgState .requested .idle [.grant]).msg 0 = some (message .requested .idle [.grant]) ∧
    (msgState .requested .idle [.retry]).msg 0 = some (message .requested .idle [.retry]) ∧
    (msgState .retryWait .idle []).msg 0 = some (message .retryWait .idle []) ∧
    (msgState .packet .rewound []).msg 0 = some (message .packet .rewound []) ∧
    (∀ e ∈ (msgState .requested .idle [.grant]).msgs, e.2.send = .unsent → e.2.sender ≠ 0) ∧
    (msgState .packet .closed [.outcome 1 0x8000 false]).msg 0 = some (message .packet .closed [.outcome 1 0x8000 false]) ∧
    ((msgState .packet .closed []).tile 0).run = .running ∧
    ((msgState .packet .closed []).tile 0).port.queue.any (fun o => o.id == 0) = true := by decide

theorem witness_MessageReceiving : (recvState .request .opened []).msg 0 = some (message .requested .request []) ∧
    (message .requested .request []).job = ((recvState .request .opened []).tile 32).port.job ∧
    ((recvState .request .opened []).tile 32).port.state = .opened ∧ ((recvState .request .opened []).tile 32).port.ring = [] ∧
    handlerDirect (Sparse.get 0 ((recvState .request .opened []).tile 32).port.handlers (message .requested .request []).index) = false ∧
    (message .requested .request []).footprint ≤ ((recvState .request .opened []).tile 32).ringSize ∧
    ((recvState .request .closed []).tile 32).port.state = .closed ∧ ((recvState .request .reset []).tile 32).port.state = .reset ∧
    (message .requested .request []).job ≠ 9 := by decide
theorem witness_MessageReceiving_packet : (recvState .packet .opened [.msg 0 0x8000 32 false]).msg 0 = some (message .requested .packet []) ∧
    ((recvState .packet .opened [.msg 0 0x8000 32 false]).tile 32).port.ring.any (RingRec.isMsg 0) = true ∧
    (message .requested .packet []).direct = false ∧ (message .requested .packet []).length % 8 = 0 ∧
    (message .requested .packet []).resends < 3 ∧ (message .requested .packet []).hdr < 2 ^ 128 ∧
    (recvState .landed .opened [.msg 0 0x8000 32 false]).msg 0 = some (message .requested .landed []) := by decide
theorem witness_MessageReceiving_discard : (recvState .packet .closed [.msg 0 0x8000 32 false]).msg 0 = some (message .requested .packet []) ∧
    ((recvState .packet .closed [.msg 0 0x8000 32 false]).tile 32).port.state = .closed ∧
    ((recvState .packet .closed [.msg 0 0x8000 32 false]).tile 32).port.waitList = [] ∧
    ((recvState .packet .closed [.msg 0 0x8000 32 false]).tile 32).port.ring = [.msg 0 0x8000 32 false] ∧
    ((recvState .packet .reset []).tile 32).port.state = .reset ∧ ((recvState .packet .reset []).tile 32).port.ring = [] := by decide
theorem witness_MessageReceiving_direct : (directState .request).msg 0 = some (directMsg .request) ∧
    handlerDirect (Sparse.get 0 ((directState .request).tile 32).port.handlers 0) = true ∧ (directMsg .request).index = 0 ∧
    0 ∉ ((directState .request).tile 32).port.busy ∧ landSize (Sparse.get 0 ((directState .request).tile 32).port.handlers 0) < 16 + 0xFFF8 ∧
    16 + (directMsg .request).length ≤ landSize (Sparse.get 0 ((directState .request).tile 32).port.handlers 0) ∧
    (directMsg .request).resends < 3 ∧ (directState .packet).msg 0 = some (directMsg .packet) ∧ (directMsg .packet).direct = true ∧
    (directMsg .packet).job = ((directState .packet).tile 32).port.job ∧ ((directState .packet).tile 32).port.state = .opened ∧
    (directState .landed).msg 0 = some (directMsg .landed) ∧ ((directState .landed).tile 32).tahrMode = false := by decide
theorem witness_MessageReceiving_skip :
    let w (x n : Nat) : Tile := (fillState x n).tile 32
    (w 0x8020 0x20).port.ring ≠ [] ∧ (w 0x8020 0x20).port.writePos < (w 0x8020 0x20).ringBase + (w 0x8020 0x20).ringSize ∧
    (message .requested .request []).footprint ≤ (w 0x8020 0x20).ringFree ∧
    (w 0x8FF0 0x20).ringBase + (w 0x8FF0 0x20).ringSize - (w 0x8FF0 0x20).port.writePos < (message .requested .request []).footprint ∧
    (message .requested .request []).footprint + 0x10 ≤ (w 0x8FF0 0x20).ringFree ∧
    (w 0x8FF0 0xFF0).ringFree < (message .requested .request []).footprint + 0x10 := by decide
theorem witness_MessageReceiving_waiting : (waitListState 1).msg 0 = some (message .requested .request []) ∧ ((waitListState 1).tile 32).port.waitList ≠ [] ∧
    ((waitListState 1).tile 32).port.waitList.length < 32 ∧ 32 ≤ ((waitListState 32).tile 32).port.waitList.length ∧
    withdrawState.msg 0 = some { message .closed .waitListed [] with withdrawal := true } ∧ (withdrawState.tile 32).port.waitList = [0] ∧
    (withdrawState.tile 32).port.ring = [] := by decide

theorem witness_HandlersAndRing : CanIssue 0 [9, 0] baseState ∧ ((baseState.tile 0).reg 9).toNat = 1 ∧ handlerOk (baseState.tile 0) ((baseState.tile 0).reg 0) = true ∧
    CanIssue 0 [4, 2] baseState ∧ 255 < ((baseState.tile 0).reg 4).toNat ∧ handlerOk (baseState.tile 0) ((baseState.tile 0).reg 2) = false ∧
    (baseState.tile 0).ringHead = none ∧ CanIssue 0 [15, 0] baseState ∧ ((baseState.tile 0).reg 15).toNat = 2 ∧ ((baseState.tile 0).reg 4).toNat ≠ 1 := by decide
theorem witness_HandlersAndRing_pop : CanIssue 0 [9, 0] ringState ∧ (ringState.tile 0).port.ring = [.msg 7 0x8000 32 true] ∧
    (ringState.tile 0).port.waitList = [] := by decide
theorem witness_HandlersAndRing_more :
    (longRing []).tile 0 = recvTile .opened [.msg 7 0x8FE0 16 true, .marker 0x8FF0 16, .msg 8 0x8000 32 false] [] ∧
    CanIssue 0 [9, 0] (longRing []) ∧ waitRing.msg 0 = some (message .requested .waitListed []) ∧
    (waitRing.tile 0).port.waitList = [0] ∧ (waitRing.tile 0).port.ring = [.msg 7 0x8000 32 true] ∧
    (message .requested .waitListed []).footprint ≤ (waitRing.tile 0).ringSize ∧
    (fullRing.tile 0).port.ring = [.msg 7 0x8000 16 true, .msg 8 0x8010 0xFF0 false] ∧ (fullRing.tile 0).port.waitList = [0] ∧
    (fullRing.tile 0).ringFree + 16 < (message .requested .waitListed []).footprint := by decide

theorem witness_SyncInstructions : CanIssue 0 [9, 1] baseState ∧ baseState.refObj (baseState.partOf 0) ((baseState.tile 0).reg 9) = some 1 ∧
    (baseState.tile 0).arrivals.find? (fun e => e.2.ref == (baseState.tile 0).reg 9) = none ∧ (baseState.tile 0).freeArrival = some 0 ∧
    ((baseState.tile 0).reg 1).toNat / 2 ^ 16 < 3 ∧ (baseState.sync 1).waiters = 0 ∧ (baseState.sync 1).early = 0 ∧
    CanIssue 0 [9, 2] baseState ∧ 3 ≤ ((baseState.tile 0).reg 2).toNat / 2 ^ 16 ∧
    CanIssue 0 [2, 1] baseState ∧ baseState.refObj (baseState.partOf 0) ((baseState.tile 0).reg 2) = none := by decide
theorem witness_SyncInstructions_table : CanIssue 0 [9, 1] tableState ∧ (tableState.tile 0).arrivals.find? (fun e => e.2.ref == (tableState.tile 0).reg 9) = none ∧
    (tableState.tile 0).freeArrival = none ∧ CanIssue 0 [5, 1] tableState ∧
    (tableState.tile 0).arrivals.find? (fun e => e.2.ref == (tableState.tile 0).reg 16) = some (0, { ref := 0x10, waiting := true }) := by decide
/-- As `baseState`, with a live entry of round 4 at object 1, whose GEN is 5. -/
def liveState : State := { tileState { baseTile with arrivals := [(0, { ref := 1, live := true, round := 4 })] } with
  syncs := [(1, { gen := 5, target := 2, value := 3 })] }
theorem witness_SyncInstructions_live : CanIssue 0 [9, 1] liveState ∧
    liveState.refObj (liveState.partOf 0) ((liveState.tile 0).reg 9) = some 1 ∧
    (liveState.tile 0).arrivals.find? (fun e => e.2.ref == (liveState.tile 0).reg 9) = some (0, { ref := 1, live := true, round := 4 }) ∧
    (liveState.sync 1).mode = 0 ∧ (liveState.sync 1).target ≤ (liveState.sync 1).value ∧ objRef 1 = 1 ∧
    newer 8 (liveState.sync 1).gen 4 = true ∧ ¬ (liveState.sync 1).target = 0 ∧ (baseState.sync 1).value < (baseState.sync 1).target + 1 := by decide

theorem witness_SyncObjects : (syncNet (.signal 1 3 1 0 (0, 0))).syncMsg 0 = some (.signal 1 3 1 0 (0, 0)) ∧ ((syncNet (.signal 1 3 1 0 (0, 0))).sync 1).target = 4 ∧
    ((syncNet (.signal 1 3 1 0 (0, 0))).sync 1).mode = 0 ∧ ((syncNet (.signal 1 3 1 0 (0, 0))).sync 1).value = 2 ∧
    ((syncNet (.signal 3 2 1 0 (0, 0))).sync 3).mode = 2 ∧ ((syncNet (.signal 3 2 1 0 (0, 0))).sync 3).value < 4 ∧
    ((syncNet (.signal 3 2 1 0 (0, 0))).sync 3).target = 4 ∧ ((syncNet (.signal 3 2 1 0 (0, 0))).sync 3).parked = [(0, 4)] ∧ ((2 : Int) + 1 < 4 ∧ 4 ≤ (2 : Int) + 3 ∧ (2 : Int) + 3 < 2 * 4) := by decide
theorem witness_SyncObjects_arrive : (syncNet (.arrival 0 2 2 3 0 true 0)).syncMsg 0 = some (.arrival 0 2 2 3 0 true 0) ∧
    ((syncNet (.arrival 0 2 2 3 0 true 0)).sync 2).mode = 1 ∧ ((syncNet (.arrival 0 2 2 3 0 true 0)).sync 2).value + 1 < 4 ∧
    ((syncNet (.arrival 0 1 1 3 0 true 0)).sync 1).mode ≠ 1 ∧ ((syncNet (.arrival 0 4 4 3 0 false 9)).sync 4).gen = 9 ∧
    ((syncNet (.arrival 0 4 4 3 0 false 9)).sync 4).mode = 1 ∧ ((syncNet (.arrival 0 4 4 3 0 false 9)).sync 4).value + 1 = 4 ∧
    ((syncNet (.arrival 0 4 4 3 0 false 9)).sync 4).target = 4 ∧ ((syncNet (.arrival 0 4 4 3 0 false 9)).sync 4).early = 1 ∧
    ((syncNet (.arrival 0 4 4 3 0 false 10)).syncMsg 0 = some (.arrival 0 4 4 3 0 false 10)) := by decide
theorem witness_SyncObjects_answer : (syncNet (.answer 0 2 2 3 0 (.round 5))).syncMsg 0 = some (.answer 0 2 2 3 0 (.round 5)) ∧
    ((syncNet (.answer 0 2 2 3 0 (.round 5))).tile 0).run = .running ∧ ({ reg := 3, id := 0 } : Await) ∈ ((syncNet (.answer 0 2 2 3 0 (.round 5))).tile 0).awaits ∧
    (syncNet (.answer 0 2 2 3 0 (.round 5))).closes 0 2 = false ∧ ((syncNet (.answer 0 2 2 3 0 .modeFault)).tile 0).run ≠ .faulted ∧
    (syncNet (.answer 0 2 2 3 0 .misuse)).syncMsg 0 = some (.answer 0 2 2 3 0 .misuse) := by decide
theorem witness_SyncObjects_wait : (syncNet (.wait 0 1 0)).syncMsg 0 = some (.wait 0 1 0) ∧ ((syncNet (.wait 0 1 0)).tile 0).syncTravel = true ∧
    newer 8 ((syncNet (.wait 0 1 0)).sync 1).gen 0 = true ∧ newer 8 ((syncNet (.wait 0 1 7)).sync 1).gen 7 = false ∧
    (resumeState.tile 0).hold = false ∧ (resumeState.tile 0).tahr.waiting = [] ∧ (resumeState.tile 0).syncResends < 3 ∧
    (resumeState.tile 0).run = .parked ∧ (resumeState.tile 0).park = .sync 1 0 ∧ (resumeState.tile 0).syncReady = some 1 ∧
    ((syncNet (.wait 0 1 0)).sync 1).value < ((syncNet (.wait 0 1 0)).sync 1).target ∧
    Sparse.find (syncNet (.wait 0 1 0)).syncMsgs 0 = some { job := 0, op := .wait 0 1 0 } := by decide

theorem witness_TileRunControl : 0 < stoppedState.tileCount ∧ (stoppedState.tile 0).run = .stopped ∧ 0 < (stoppedState.tile 0).regionSize ∧
    (baseState.tile 0).run ≠ .stopped := by decide

theorem witness_MoveIssue : CanIssue 0 [5] (moveState 0) ∧ ((moveState 0).tile 0).mover.length < 8 ∧ Accessible 0 0x2000 64 (moveState 0) ∧
    checkExts 0 ((moveState 0).tile 0) (moveDesc (moveState 0)).herdExts = none ∧ (moveDesc (moveState 0)).ok (moveState 0) = true ∧
    (moveDesc (moveState 0)).refused 0 (moveState 0) = false ∧ (moveDesc (moveState 0)).sig = false ∧
    (moveDesc (moveState 0)).kind = 0 := by decide +kernel
theorem witness_MoveIssue_link : (moveDesc (moveState 4)).kind = 4 ∧ (moveDesc (moveState 4)).ok (moveState 4) = true ∧
    (moveDesc (moveState 4)).refused 0 (moveState 4) = false ∧ ((moveState 4).link 1).run = .up ∧ ((moveState 4).link 1).miscabled = false ∧ ((moveState 4).link 1).waiting = [] ∧
    ((moveDesc (moveState 4)).blocks + 3) / 4 ≤ 31 ∧ (∀ e ∈ (moveState 4).tiles, ∀ o ∈ e.2.mover, o.nextBlock = none) ∧
    NoLinkToPlace (moveState 0) ∧
    checkExts 0 ((moveState 4).tile 0) (moveDesc (moveState 4)).herdExts = none ∧ (moveDesc (moveState 4)).link = 1 ∧
    startedMoves [] ((moveState 4).tile 0).mover = ((moveState 4).tile 0).mover ∧
    (∀ i, i < (moveDesc (moveState 4)).blocks → CleanRange (devOf 0 ((moveDesc (moveState 4)).locAt i)) 64 (moveState 4)) ∧
    (moveDesc downState).kind = 4 ∧ (moveDesc downState).refused 0 downState = false ∧ (downState.link 1).run = .disabled := by decide +kernel
theorem witness_MoveIssue_faults : (moveDesc (moveState 5)).ok (moveState 5) = false ∧
    (moveDesc (moveState 1)).ok { moveState 1 with jobs := [] } = true ∧
    (moveDesc (moveState 1)).refused 0 { moveState 1 with jobs := [] } = true ∧
    (moveDesc (moveState 16)).sig = true ∧ (moveDesc (moveState 16)).ok (moveState 16) = true ∧
    (moveDesc (moveState 16)).refused 0 (moveState 16) = false ∧
    (moveState 16).refObj ((moveState 16).partOf 0) (moveDesc (moveState 16)).syncRef = none := by decide +kernel
theorem test_MoveIssue_conflict : mvRead.conflicts mvRead = true ∧ { mvRead with kind := 1 }.conflicts { mvRead with kind := 1 } = true := by decide

theorem witness_MoverMemoryBlocks_request : (atUnitState 0).atUnit 0 (placedOp 0) 0 = some ⟨0, 1, 0, 0x10000000000, false⟩ ∧
    NoLinkToPlace (atUnitState 0) ∧ (atUnitState 0).asks ⟨0, 1, 0, 0x10000000000, false⟩ = false ∧
    ((atUnitState 0).tile 0).moverOp 1 = some (placedOp 0) ∧ ((atUnitState 0).tile 0).alive = true ∧ (placedOp 0).desc.memAt 0 = 0x10000000000 ∧
    (atUnitState 0).tierOf 0x10000000000 64 ≠ some .host ∧ ((atUnitState 0).mc ((atUnitState 0).unitOf 0x10000000000)).run = .enabled ∧
    ((atUnitState 0).crossing ((atUnitState 0).unitOf 0x10000000000)).back.length < 32 ∧ (0x10000000000 : Nat) ∉ (atUnitState 0).badBlocks ∧
    (({ atUnitState 0 with mcs := [] } : State).mc 0).run ≠ .enabled := by decide +kernel
theorem witness_MoverMemoryBlocks_write : (atUnitState 1).atUnit 0 (placedOp 1) 0 = some ⟨0, 1, 0, 0x10000000000, true⟩ ∧
    ((atUnitState 1).tile 0).moverOp 1 = some (placedOp 1) ∧ CleanRange 0x4000 64 (atUnitState 1) ∧
    Sparse.get 0 (placedOp 1).retries 0 < 3 ∧ (atUnitState 2).atUnit 0 (placedOp 2) 0 = some ⟨0, 1, 0, 0x10000000000, false⟩ := by decide +kernel
theorem witness_MoverMemoryBlocks_answer : Sparse.find (mvAnswered 0).answers 0 = some (List.replicate 64 (7 : Byte)) ∧
    ((moverState 0 (mvAnswered 0)).tile 0).moverOp 1 = some (mvAnswered 0) ∧ ((moverState 2 (mvAnswered 2)).tile 0).moverOp 1 = some (mvAnswered 2) ∧
    ((moverState 0 (mvAnswered 0)).mc ((moverState 0 (mvAnswered 0)).unitOf 0x10000000000)).run = .enabled ∧ (atUnitState 1).isRequest 0x10000000000 = false ∧
    (mvAnswered 2).rowsSent < (mvAnswered 2).desc.rows ∧ Sparse.get 0 (mvAnswered 0).retries 0 < 3 ∧
    3 ≤ Sparse.get 0 { mvAnswered 0 with retries := [(0, 3)] }.retries 0 := by decide +kernel

theorem witness_MoverHostBlocksAndCompletion_host : (atHostState 1).atUnit 0 (hostPlaced 1) 0 = some ⟨0, 1, 0, 0x8000000000000, true⟩ ∧
    ((atHostState 1).tile 0).moverOp 1 = some (hostPlaced 1) ∧ (atHostState 1).tierOf 0x8000000000000 64 = some .host ∧
    CleanRange 0x4000 64 (atHostState 1) ∧ (atHostState 0).atUnit 0 (hostPlaced 0) 0 = some ⟨0, 1, 0, 0x8000000000000, false⟩ ∧
    (hostPlaced 1).desc.memAt 0 = 0x8000000000000 ∧ (atHostState 0).power.reaches = true ∧ (atHostState 1).power.reaches = true := by decide +kernel
theorem witness_MoverHostBlocksAndCompletion_end : (mvOp 0 { mvBlank with done := [(0, true)] }).finished = true ∧
    ((moverState 0 { mvBlank with done := [(0, true)] }).tile 0).moverStarted (mvOp 0 { mvBlank with done := [(0, true)] }) = true ∧
    ((moverState 0 mvBlank).tile 0).run = .running ∧ (mvOp 2 { mvBlank with rowsAnswered := 1 }).finished = true ∧
    (moverState 0 mvBlank).refObj ((moverState 0 mvBlank).partOf 0) 3 = some 3 := by decide +kernel

theorem witness_MemoryControllers : cxlState.cxl.exposed = true ∧ 64 < cxlState.cxl.size ∧
    (cxlState.mc (cxlState.unitOf (ddrBase + cxlState.cxl.base + 64))).run = .enabled ∧ (cxlState.mc 1).run ≠ .enabled ∧
    cxlState.badBlocks = [] ∧ cxlState.power.reaches = true ∧ cxlState.underRetry (ddrBase + cxlState.cxl.base + 64) = false ∧
    { cxlState with power := {} }.power.reaches = false := by decide +kernel

theorem witness_Contributions : ((accState [] 0).tile 0).moverOp 1 = some (accOp 0) ∧
    (accState [] 0).atUnit 0 (accOp 0) 0 = some ⟨0, 1, 0, 0x10000000000, true⟩ ∧
    (accOp 0).desc.redEntry < 64 ∧ ((accState [] 0).mc 0).run = .enabled ∧ (accState [] 0).unitOf 0x10000000000 = 0 ∧
    ((accState [] 0).red 0).state = .opened ∧ ((accState [] 0).red 0).job = ((accState [] 0).tile 0).port.job ∧
    ((accState [] 0).red 0).heldBlocks < ((accState [] 0).red 0).pool ∧ CleanRange 0x4000 64 (accState [] 0) ∧
    (accState [] 0).badBlocks = [] ∧ KudusServe (accState [] 0) ∧ Sparse.get 0 (accOp 0).retries 0 < 3 := by decide +kernel
theorem witness_Contributions_wait : ((accState [] 9).red 0).stageBlocks = 9 ∧
    (placeContribution ((accState [] 9).red 0) ⟨0, 1, 0, 0, 0, []⟩).root = false ∧
    (({ accState [] 0 with reds := [(0, { accEntry [] with contribs := 0 })] } : State).red 0).contribs ≤ 0 ∧
    (({ accState [⟨0, 1, 7, 0, 3, []⟩] 0 with reds := [(0, accEntry [⟨0, 1, 7, 0, 0, []⟩])] } : State).red 0).waiting.any
      (fun y => y.contrib == 0 && y.index == 0) = true ∧ ((accState [⟨0, 1, 7, 0, 3, []⟩] 0).red 0).state = .opened ∧
    ((accState [⟨0, 1, 7, 0, 3, []⟩] 0).red 0).waiting.find?
      (fun w => !((accState [⟨0, 1, 7, 0, 3, []⟩] 0).red 0).lacksRoom w) = some ⟨0, 1, 7, 0, 3, []⟩ := by decide +kernel

theorem witness_RingStage : ((ringRed .opened).red 0).ringTag = 9 ∧ ((ringRed .opened).red 0).hopOf 0 = 1 ∧ ((ringRed .opened).red 0).hopOf 1 = 0 ∧
    (List.range 64).find? (fun e => ((ringRed .ring).red (entryKey 0 e)).ringTag == 9 && decide (1 < ((ringRed .ring).red (entryKey 0 e)).ringLen) &&
      (((ringRed .ring).red (entryKey 0 e)).state == .opened || ((ringRed .ring).red (entryKey 0 e)).inRing ||
        ((ringRed .ring).red (entryKey 0 e)).state == .complete)) = some 0 ∧ ((ringRed .ring).red 0).nfReady = false ∧
    ((ringRed .ring).red 0).inRing = true ∧ ((ringRed .ring).red 0).scatterIn = none ∧ (ringRed .ring).badBlocks = [] ∧
    KudusServe (ringRed .ring) ∧ ((ringRed .ring).link 1).miscabled = false ∧ (({ ringRed .ring with links := [(1, { run := .up, miscabled := true })] } : State).link 1).miscabled = true ∧
    (((ringRed .ring).red 0).segBlocks 0).length = 32 := by decide +kernel
theorem witness_RingStage_flag : ((flagState).job 1).result 0 (flagState.redStep 1) = some 1 ∧ flagState.lastRounds 1 = true ∧
    (flagState.job 1).nfRelease = true ∧ flagState.redsOf 1 = [0] ∧ KudusServe flagState ∧ ((ringRed .closing).red 0).closed = true ∧
    ((ringRed .ring).red 0).closed = false ∧
    flagState.jobUsed (flagState.jobOfLink 1) = true ∧ (flagState.job 1).ctxFault = none := by decide +kernel

theorem witness_CommitRequests : KudusServe (comState {}) ∧ NoLinkToPlace (comState {}) ∧ (comState {}).badBlocks = [] ∧ KudusServe heldComState ∧
    (comState {}).com 0 = { comEntry with request := true } ∧ ((comState {}).red 0).state = .complete ∧
    Req.reserved ((comState {}).request 0) = 0 ∧ Req.step ((comState {}).request 0) = ((comState {}).red 0).step ∧
    Stat.accStep ((comState {}).status 0) ≠ ((comState {}).red 0).step ∧ ((comState {}).job 1).health.on = false ∧
    ((comState {}).job 1).health.run = none ∧ ((comState { ckptEvery := 1 }).job 1).health.on = true ∧
    ((comState { ckptEvery := 1, swept := some 5 }).job 1).health.swept = some 5 ∧ ((accState [] 0).red 0).state ≠ .complete := by
  decide +kernel
theorem witness_CommitRequests_resume : (heldComState.com 0).held = true ∧ (heldComState.com 0).busy = false ∧
    (heldComState.com 0).state = .ready ∧ (heldComState.com 0).askers = [] ∧ heldComState.requestWaits 0 (heldComState.red 0).step = false ∧
    (heldComState.red 0).state = .complete ∧ Req.step (heldComState.request 0) = (heldComState.red 0).step ∧
    Req.reserved (heldComState.request 0) = 0 ∧ Stat.accStep (heldComState.status 0) ≠ (heldComState.red 0).step := by decide +kernel

theorem witness_CommitEffects : (busyCom.com 0).busy = true ∧ Stat.accSkip (busyCom.status 0) = false ∧ (busyCom.red 0).state = .complete ∧
    (busyCom.com 0).state ≠ .off ∧ Stat.accSkip (skipCom.status 0) = true ∧ (skipCom.com 0).busy = true ∧
    (busyCom.red 0).ringHeld = [] ∧ (busyCom.com 0).digestIn = [] ∧ busyCom.badBlocks = [] ∧ KudusServe busyCom ∧ KudusServe skipCom ∧
    (busyCom.link 1).miscabled = false ∧ busyCom.refObj (busyCom.job 1).part (busyCom.com 0).commitRef = some 0 ∧
    commitReads busyCom 0 ≠ [] := by decide +kernel

theorem witness_LinkBlocks : ((linkState {}).link 1).run = .up ∧ bits (0 : BitVec 128).toNat 112 16 = ((linkState {}).link 1).rxSeq ∧
    (RxBlock.ofBits 0 []).lane = 0 ∧ (RxBlock.ofBits 0 []).kind = 0 ∧ (RxBlock.ofBits 0 []).foreignTo ((linkState {}).link 1) = false ∧
    stepCompare (RxBlock.ofBits 0 []).step ((linkState {}).link 1).rxStep = .same ∧
    stepCompare (RxBlock.ofBits (2 ^ 80) []).step 0 = .ahead ∧ stepCompare (RxBlock.ofBits (2 ^ 81) []).step 0 = .skew ∧
    (RxBlock.ofBits (2 ^ 48 + 2 ^ 32) []).foreignTo ((linkState {}).link 1) = true ∧ (RxBlock.ofBits (2 ^ 48 + 2 ^ 32) []).kind = 1 ∧
    (RxBlock.ofBits (3 * 2 ^ 36) []).lane = 3 ∧ (RxBlock.ofBits (2 ^ 36) []).lane = 1 ∧ (RxBlock.ofBits (2 * 2 ^ 36) []).lane = 2 ∧
    ((linkState {}).link 1).miscabled = false ∧ NoneRetried (linkState {}) ∧ NoMoverRuns 1 (linkState {}) ∧ ((linkState { miscabled := true }).link 1).miscabled = true ∧
    ((linkState {}).link 1).landing.find? (fun l => l.xfer == 0) = none ∧ ((linkState { landing := [⟨0, 0x10000000000, 64, 1, 64, 0, false, false⟩] }).link 1).landing.find?
      (fun l => l.xfer == 0) = some ⟨0, 0x10000000000, 64, 1, 64, 0, false, false⟩ ∧ (RxBlock.ofBits (2 * 2 ^ 32) []).kind = 2 := by decide +kernel
theorem witness_LinkBlocks_crc : crc64 (leBytes 16 (0 : BitVec 128).toNat ++ []) = (0 : DWord).toNat := by decide +kernel

theorem witness_LinkStates : ((linkState {}).link 1).run = .up ∧ ((linkState {}).link 1).light ≠ 15 ∧ ((linkState { run := .retraining }).link 1).run = .retraining ∧
    ((linkState { run := .down }).link 1).run = .down ∧ ((linkState { run := .training }).link 1).run = .training ∧
    ((linkState { run := .training }).link 1).waiting = [] ∧ NoMoverRuns 1 (linkState { run := .training }) ∧
    ((linkState {}).laser 1).usable = true ∧ (linkState {}).engineLit 0 = true ∧ ((linkState { run := .retraining, light := 15 }).link 1).light = 15 ∧
    ((linkState {}).job 1).faceWait = [] ∧ ((linkState {}).job 1).bound = false ∧ ({ linkState {} with lasers := [(1, { present := false })] } : State).laser 1 = { present := false } ∧
    ({ present := false } : Laser).usable = false ∧ ({ linkState {} with power := {} } : State).power.lasers = false ∧
    (linkState {}).power.lasers = true ∧ (linkState {}).power.optics = true ∧ (linkState {}).jobOfLink 1 = 1 ∧
    (State.reset.link 1).run = .disabled ∧ ((linkState { run := .closing, darkClose := true, light := 15 }).link 1).darkClose = true ∧
    ((linkState { run := .closing }).link 1).darkClose = false := by decide +kernel

theorem witness_LinkTransfers : ((linkState { delivered := [header] }).link 1).delivered = [header] ∧ header.kind = 1 ∧
    (linkState { delivered := [header], landBase := 0x10000000000, landSize := 1 }).mayLand 1 0x10000000000 64 1 64 = true ∧
    (linkState { delivered := [header] }).mayLand 1 0x10000000000 64 1 64 = false ∧ ((linkState { landed := 1, landSync := 3 }).link 1).landed ≠ 0 ∧
    (linkState { landed := 1, landSync := 3 }).refObj ((linkState { landed := 1, landSync := 3 }).partOfLink 1) 3 = some 3 := by decide +kernel
theorem witness_LinkTransfers_answer : answerState.tiles.findSome? (fun e => (e.2.mover.find? (fun o => o.desc.kind == 4 &&
      o.desc.link == 1 && o.sentAll && o.xfer == 3)).map (fun o => (e.1, o))) = some (0, linkOp) ∧ (answerState.link 1).answers = [3] ∧
    (answerState.tile 0).moverOp 1 = some linkOp ∧ (answerState.tile 0).alive = true ∧
    stepState.jobUsed 1 = true ∧ stepState.comsOf 1 = [0] ∧ (stepState.job 1).concord = none ∧ Stat.lastStep (stepState.status 0) = (stepState.job 1).linkStep := by decide +kernel

theorem witness_SweepsAndConcord : spanState.jobOfLink 0 = 1 ∧ spanState.jobUsed 1 = true ∧ (spanState.job 1).faceOf 0 = some 0 ∧
    1 ≤ (spanState.job 1).hops 0 ∧ stepCompare 0 (spanState.job 1).linkStep = .same ∧ stepCompare 2 (spanState.job 1).linkStep = .skew ∧
    (spanState.job 1).results = [] ∧ (spanState.job 1).concord = none ∧ (spanState.job 1).bound = true ∧
    (spanState.job 1).abortSent = false ∧ (spanState.link 0).miscabled = false ∧ stepCompare 1 (spanState.job 1).linkStep = .ahead ∧ (spanState.job 1).ctxFault = none := by decide +kernel
theorem witness_SweepsAndConcord_check : (concordState.job 1).concord = some ⟨0, 1, [], []⟩ ∧ (concordState.job 1).faces = [0, 1] ∧
    concordState.jobOfLink 0 = 1 ∧ (concordState.job 1).hops 0 ≠ 0 ∧ (concordState.job 1).faceOf 0 = some 0 := by decide +kernel
theorem witness_SweepsAndConcord_run : ((sweepState 0 2 [(false, 1)] [0]).job 1).sweeps = [{ kind := 0, step := 0, value := 1, axes := [0], got := [(false, 1)] }] ∧
    ((sweepState 0 2 [(false, 1)] [0]).job 1).hops 0 = 1 ∧ (sweepState 0 2 [(false, 1)] [0]).jobOfLink 0 = 1 ∧ ((sweepState 0 2 [] [0]).job 1).faceOf 0 = some 0 ∧
    ({ kind := 0, step := 0, value := 1, axes := [0], got := [(false, 1), (true, 1)] } : SweepRun).axisDone ((sweepState 0 2 [] [0]).job 1) = true ∧
    ({ kind := 3, step := 0, value := 1, axes := [0], got := [(false, 1), (true, 1)] } : SweepRun).axisDone ((sweepState 3 5 [] [0]).job 1) = false ∧
    0 < ((sweepState 0 2 [] [0, 1]).job 1).hops 1 ∧ stepCompare 65534 (spanState.job 1).linkStep = .skew ∧
    newer 16 65534 (spanState.job 1).linkStep = false := by decide +kernel

theorem witness_RailsAndHardwareFaults : 0 < baseState.quadCount ∧ (0 : Nat) ≠ 128 ∧ baseState.spineStep ≤
      ((List.range baseState.quadCount).map (fun q => (baseState.quad q).step)).foldl max 0 ∧
    coreState.power.core = true ∧ coreState.fw ≠ .rom ∧ coreState.fw ≠ .loading ∧ loadingState.fw = .loading ∧ loadingState.boot.loading ≠ none ∧ coreState.liveParts = [1] ∧ (baseState.power.core = false ∨ baseState.fw = .rom) ∧
    coreState.jobUsed (coreState.part 1).holding = true ∧ (coreState.job (coreState.part 1).holding).ctxFault = none ∧
    (coreState.job (coreState.part 1).holding).part = 1 ∧ coreState.partOfHerd 0 = 1 ∧
    (newJob.part 1).incoming = 0 ∧ 2 ∈ twoJobs.jobsOf 1 ∧ (twoJobs.job 2).ctxFault = none := by decide +kernel
theorem witness_RailsAndHardwareFaults_report : (twoJobs.job 1).reports = [{ obj := 0x20000, gen := 1 }] ∧ (twoJobs.part 1).holding = 1 ∧
    (twoJobs.part 1).armed = false ∧ (twoJobs.job 1).weight * 1000000 ≤ (twoJobs.job 1).sliceNs ∧ 2 ∈ twoJobs.jobsOf 1 ∧
    (twoJobs.job 2).state = .ready ∧ (twoJobs.job 1).td = .none := by decide +kernel

theorem witness_FlagsAndQuiesce : (faultedJob.part 1).fault = true ∧ faultedJob.jobsOf 1 = [1] ∧ (faultedJob.part 1).holding = 1 ∧
    (faultedJob.job 1).ctxFault ≠ none ∧ (faultedJob.part 1).halt = true ∧ (faultedJob.part 1).nonfin = true ∧
    (baseState.part 1).fault = false ∧ (faultedJob.job 1).td = .none ∧ (faultedJob.job 1).state ≠ .tornDown := by decide +kernel
theorem witness_FlagsAndQuiesce_jobs : (savedFault.part 1).fault = true ∧ (savedFault.part 1).incoming = 0 ∧ (savedFault.part 1).holding = 1 ∧
    savedFault.jobsOf 1 = [1, 2, 3] ∧ (savedFault.job 1).ctxFault ≠ none ∧ (savedFault.job 2).ctxFault ≠ none ∧ (savedFault.job 2).ctx.isSome = true ∧
    (savedFault.job 3).ctxFault = none ∧ (savedFault.job 2).td = .none ∧ (savedFault.job 2).state = .ready := by decide +kernel
theorem witness_FlagsAndQuiesce_barrier : (armedState []).partOfHerd 0 = 1 ∧ (armedState []).barrierOut 1 = true ∧ 0 < baseState.herdCount ∧
    (∃ g ∈ ((armedState [0]).part 1).herds, g ≠ 0 ∧ g ∉ ((armedState [0]).job 1).answered) ∧ 0 ∈ ((armedState [0]).part 1).asked ∧
    (∀ t ∈ ((armedState [0]).job 1).tilesIn 0, ((armedState [0]).tile t).quiet true = true) ∧ baseState.partOfHerd 4 = 0 := by decide +kernel
theorem witness_FlagsAndQuiesce_last : (∀ g ∈ ((lastAnswer .none).part 1).herds, g = 0 ∨ g ∈ ((lastAnswer .none).job 1).answered) ∧
    (lastAnswer .none).barrierOut 1 = true ∧ (lastAnswer .quiesce).barrierOut 1 = true ∧ ((lastAnswer .quiesce).job 1).td ≠ .none ∧
    0 ∈ ((lastAnswer .quiesce).part 1).asked ∧ 0 ∉ ((lastAnswer .quiesce).job 1).answered := by decide +kernel

theorem witness_TeardownAndSwitches : ((tdState .quiesce).job 1).td = .quiesce ∧ ((tdState .quiesce).part 1).holding = 1 ∧
    ((tdState .quiesce).part 1).leaving = false ∧ ((tdState .clean).job 1).td = .clean ∧ ((tdState .clean).part 1).holding = 1 := by decide +kernel
theorem witness_TeardownAndSwitches_out : (outState {}).drained 1 = true ∧ ((outState {}).part 1).leaving = true ∧ ((outState {}).job 1).everHeld = true ∧
    ((outState {}).part 1).resident = 1 ∧ (outState { inFlight := 1 }).drained 1 = false ∧ ((outState {}).job 1).td = .none ∧
    (outState {}).jobUsed 1 = true ∧ (∀ t ∈ (outState {}).usedTiles 1, ((outState {}).tile t).run ≠ .faulted) ∧
    ((outState {}).job 1).ctxFault = none ∧ (outState {}).eccBad = [] ∧ ((outState {}).part 1).incoming ≠ 1 ∧
    ({ outState {} with jobs := [(1, { part := 1, state := .holding, ctxFault := some (0, 0) })] } : State).drained 1 = true := by decide +kernel
theorem witness_TeardownAndSwitches_in : ((inState false).part 1).incoming = 1 ∧ ((inState false).job 1).everHeld = false ∧
    ((inState false).part 1).resident = 1 ∧ (0 ∈ (inState false).usedTiles 1) ∧ ((inState false).tile 0).run = .stopped ∧
    ((inState true).job 1).ctx = some {} ∧ ((inState true).job 1).everHeld = true ∧ (inState true).fw ≠ .stopped := by decide +kernel

/-- Booted, with a finding of the ledger. -/
def ledgerState (bad : Bool) : State := { coreState with boot := { booted := true }, hwFaulted := bad }
def badTerm : LedgerFinding := { term := 9, unit := 0, expected := 1, found := 2 }
theorem witness_ChamoisAndPeriods : coreState.fw = .ready ∧ baseState.fw ≠ .ready ∧ baseState.fw ≠ .stopped ∧ coreState.liveParts = [1] ∧
    coreState.power.tripped = false ∧ coreState.power.control = true ∧ baseState.boot.booted = false ∧
    ({ coreState with power := { tripped := true } } : State).power.tripped = true ∧
    ({ coreState with quads := [(0, { dayLow := some 1300 })] } : State).partOfQuad 0 = 1 ∧
    (({ coreState with quads := [(0, { dayLow := some 1300 })] } : State).quad 0).dayLow = some 1300 ∧
    0 < (({ coreState with quads := [(0, { dayLow := some 1300 })] } : State).quad 0).margin ∧ baseState.partOfQuad 1 = 0 := by decide +kernel
theorem witness_ChamoisAndPeriods_ledger : (ledgerState false).boot.booted = true ∧ (ledgerState false).hwFaulted = false ∧
    (passTime ((ledgerState false).period.start + (ledgerState false).period.length - (ledgerState false).time) (ledgerState false)).ledgerTerms = [] ∧
    (ledgerState true).hwFaulted = true ∧ badTerm.program = none ∧ (∀ e ∈ (ledgerState false).jobs, e.2.tahr = false) ∧
    (ledgerState false).jobUsed 1 = true := by decide +kernel
theorem witness_ChamoisAndPeriods_load : (loadingState.boot.loading = some 3 ∧ loadingState.fw ≠ .rom ∧ (loadingState.cmd 0 3).isSome = true ∧
    loadingState.power.tripped = false ∧ loadingState.power.control = true) ∧ (ckptState []).mc 16 = { run := .enabled } := by decide +kernel

theorem witness_Checkpoints_copy : ((ckptState [0, 1]).job 1).health.run = some ⟨0, 5, 2, [0, 1], {}, none, false⟩ ∧
    ((ckptState [0]).job 1).health.run = some ⟨0, 5, 2, [0], {}, none, false⟩ ∧ ((ckptState [0]).job 1).lx ≤ 1 ∧ ((ckptState [0]).job 1).results = [] ∧
    (∀ x ∈ (ckptState [0]).copyReads 1 0 0 ++ (ckptState [0]).copyWrites ddrBase [] 0, (ckptState [0]).refusedIn x.1 x.2 = none) ∧
    (ckptState [0]).rangesWait ((ckptState [0]).copyReads 1 0 0 ++ (ckptState [0]).copyWrites ddrBase [] 0) = false ∧ (ckptState [0]).badBlocks = [] ∧
    (¬ ∀ x ∈ (shutState.copyReads 1 0 0 ++ shutState.copyWrites ddrBase [] 0), shutState.refusedIn x.1 x.2 = none) ∧ shutState.jobUsed 1 = true ∧
    (shutState.job 1).ctxFault = none := by
  decide +kernel
theorem witness_Checkpoints_buddy : (askState.job (askState.jobOfLink 1)).health.areas ≠ [] ∧ (askState.job (askState.jobOfLink 1)).bound = true ∧
    selectSlot (askState.job (askState.jobOfLink 1)).health.buddy0 (askState.job (askState.jobOfLink 1)).health.buddy1 = some 1 ∧
    askState.refusedIn (ddrBase + 0x3000) 0x1000 = none ∧ (askState.link 1).miscabled = false ∧
    stepCompare 0 (askState.job 1).linkStep = .same ∧ stepCompare 1 (askState.job 1).linkStep = .ahead ∧
    stepCompare 2 (askState.job 1).linkStep = .skew ∧ askState.jobUsed (askState.jobOfLink 1) = true ∧
    (baseState.job (baseState.jobOfLink 1)).health.areas = [] := by decide +kernel
theorem test_Checkpoints_complete : ∃ t, exec (.checkpointCopyEnd 1 0 0 []) (ckptState [0]) = .next t ∧ ((t.job 1).health.slot 0).complete = true :=
  ⟨_, rfl, by decide +kernel⟩
theorem witness_Checkpoints_take : Acts 1 3 (cmdOf Op.checkpoint 7 1 [(1, 1)]) Op.checkpoint (cmdState (cmdOf Op.checkpoint 7 1 [(1, 1)]) (ckptState [0])) ∧
    ((ckptState [0]).job 1).state ≠ .tornDown ∧ ((ckptState [0]).job 1).health.areas ≠ [] ∧
    Acts 1 3 (cmdOf Op.checkpoint 7 1 [(1, 2)]) Op.checkpoint (cmdState (cmdOf Op.checkpoint 7 1 [(1, 2)]) (tornState true)) ∧
    ((tornState true).job 1).state = .tornDown ∧ selectSlot ((tornState true).job 1).health.local0 ((tornState true).job 1).health.local1 = some 0 ∧
    selectSlot ((tornState false).job 1).health.local0 ((tornState false).job 1).health.local1 = none ∧
    (∀ x ∈ (ddrBase, 0x5000) :: (tornState true).rollWrites [0] (readBytes (tornState true).mem ddrBase 0x5000), (tornState true).refusedIn x.1 x.2 = none) := by decide +kernel

theorem witness_Mailboxes : coreState.power.reaches = true ∧ ringMb.power.reaches = true ∧
    ({ ringMb with power := {} } : State).power.reaches = false ∧ (1 : BitVec 16).toNat = ((coreState.mb 1).taken + 1) % 65536 ∧
    (coreState.mb 1).doorbell = none ∧ coreState.fw ≠ .rom ∧ (bellState .ready).cmd 1 1 = none ∧ ((bellState .ready).mb 1).doorbell = some 1 ∧
    (bellState .ready).turnOf = some 1 ∧
    opInfo (Cmd.ofBytes 1 0 (fun o => Sparse.get 0 ((bellState .ready).mb 1).buffer o)).opcode = none ∧
    stoppedOp (Cmd.ofBytes 1 0 (fun o => Sparse.get 0 ((bellState .stopped).mb 1).buffer o)).opcode = false ∧
    checkCmd (bellState .loading) 1 (Cmd.ofBytes 1 0 (fun o => Sparse.get 0 ((bellState .loading).mb 1).buffer o)) = some .rejectedState := by
  decide +kernel
theorem witness_Mailboxes_ring : (ringMb.mb 1).held = [{}] ∧ (ringMb.mb 1).enable = true ∧ (ringMb.mb 1).room = true ∧
    (ringMb.mb 1).crBase % 4096 = 0 ∧ 6 ≤ (ringMb.mb 1).crSize ∧ (ringMb.mb 1).crSize ≤ 15 ∧ (coreState.mb 1).enable = false ∧
    (coreState.mb 1).crSize < 6 ∧ (coreState.mb 1).held = [] := by decide +kernel
theorem test_Record_phase : (({ seq := 2, opcode := 1 } : Record).bytes 1).getD 0 0 = 7 ∧
    (({ seq := 2, opcode := 1 } : Record).bytes 1).getD 16 0 = 2 := by decide +kernel

theorem witness_ReadingCommands_ready : Acts 1 3 (cmdOf Op.identity 0 0 []) Op.identity (cmdState (cmdOf Op.identity 0 0 []) coreState) ∧
    Acts 1 3 (cmdOf Op.syncRead 0 0 [(1, 3)]) Op.syncRead (cmdState (cmdOf Op.syncRead 0 0 [(1, 3)]) coreState) ∧
    coreState.anyObj 3 = some 3 ∧ coreState.refObj 1 (word 3) ≠ none ∧ coreState.anyObj (2 ^ 30) = none ∧
    Acts 1 3 (cmdOf Op.readBlock 8 0 [(1, 1), (2, 0), (3, 16)]) Op.readBlock (cmdState (cmdOf Op.readBlock 8 0 [(1, 1), (2, 0), (3, 16)]) coreState) ∧
    spaceOk 1 (cmdOf Op.readBlock 8 0 []) = true ∧
    Acts 1 3 (cmdOf Op.countersRead 0 0 [(1, 9)]) Op.countersRead (cmdState (cmdOf Op.countersRead 0 0 [(1, 9)]) coreState) ∧
    classCount 9 ≠ 0 ∧ scopeIndexOk coreState 9 0 = true ∧ scopeIn coreState 1 9 0 = true := by decide +kernel
theorem witness_ReadingCommands_objects :
    Acts 1 3 (cmdOf Op.accountRead 7 1 []) Op.accountRead (cmdState (cmdOf Op.accountRead 7 1 []) coreState) ∧ coreState.jobUsed 1 = true ∧
    Acts 1 3 (cmdOf Op.linkStatus 2 1 []) Op.linkStatus (cmdState (cmdOf Op.linkStatus 2 1 []) coreState) ∧
    Acts 1 3 (cmdOf Op.tileDebug 8 0 [(1, 1)]) Op.tileDebug (cmdState (cmdOf Op.tileDebug 8 0 [(1, 1)]) coreState) ∧
    (coreState.tile 0).run = .running ∧
    Acts 0 3 (cmdOf Op.moduleConfig 0 0 [(2, 5000)]) Op.moduleConfig (mgmtState (cmdOf Op.moduleConfig 0 0 [(2, 5000)]) coreState) ∧
    RingApart 1 0x2000 128 coreState ∧ coreState.power.reaches = true := by decide +kernel
theorem witness_ReadingCommands_rom :
    Acts 0 3 (cmdOf Op.romStatus 0 0 []) Op.romStatus (mgmtState (cmdOf Op.romStatus 0 0 []) baseState) := by decide +kernel

/-- A DISABLE of link 1 in STOPPING, an enable of mailbox 1 pending. -/
def pendingState : State :=
  { lifeState .stopping with
    lives := [(lifeKey 2 1, { run := .stopping, pend := some (1, 4) }), (lifeKey 3 0, { run := .on })]
    mailboxes := [(0, { taken := 3, cmds := [cmdOf Op.disable 2 1 []] }),
      (1, { taken := 4, cmds := [{ cmdOf Op.enable 2 1 [] with seq := 4, phase := .deferred }] })] }
theorem witness_LifecycleCommands : Acts 0 3 (cmdOf Op.enable 2 1 []) Op.enable (mgmtState (cmdOf Op.enable 2 1 []) (lifeState .off)) ∧
    dependsOk (lifeState .off) 2 1 true = true ∧ dependsOk coreState 2 1 true = false ∧ ((lifeState .on).life 2 1).run = .on ∧
    Acts 0 3 (cmdOf Op.disable 2 1 []) Op.disable (mgmtState (cmdOf Op.disable 2 1 []) (lifeState .on)) ∧
    ((lifeState .stopping).life 2 1).pend = none ∧ (pendingState.life 2 1).pend = some (1, 4) ∧ (pendingState.cmd 1 4).isSome = true ∧
    Acts 0 3 (cmdOf Op.disable 2 1 []) Op.disable pendingState ∧ dependsOk pendingState 2 1 false = true ∧ ((lifeState .starting).life 2 1).run = .starting ∧
    enableItemOk 2 1 3 {} = true ∧ enableItemOk 2 1 9 {} = false ∧ enableItems 2 = 1 ∧ dependsOk (lifeState .on) 2 1 false = true ∧
    Acts 0 3 (cmdOf Op.enable 2 1 [(1, 3)]) Op.enable (mgmtState (cmdOf Op.enable 2 1 [(1, 3)]) (lifeState .off)) := by decide +kernel
theorem witness_LifecycleCommands_partition :
    Acts 0 3 (cmdOf Op.disable 1 2 []) Op.disable (mgmtState (cmdOf Op.disable 1 2 []) (lifeState .on)) ∧
    ((lifeState .on).life 1 2).run = .on ∧ (lifeState .on).jobsOf 2 = [] ∧ dependsOk (lifeState .on) 3 0 false = false := by decide +kernel

theorem witness_LifecycleEnds : ((lifeState .starting).life 2 1).run = .starting ∧ ((lifeState .starting).life 2 1).disables = [] ∧
    ((lifeState .starting).life 2 1).pend = none ∧ ((lifeState .stopping).life 2 1).run = .stopping ∧ ((lifeState .stopping).link 1).drained = true ∧
    ((lifeState .stopping).tile 0).run = .running ∧ ((lifeState .on).life 2 1).run ≠ .starting ∧ ((lifeState .stopping).life 1 2).run = .stopping ∧
    (lifeState .stopping).jobsOf 2 = [] ∧ (({ lifeState .stopping with links := [(1, { waiting := [{ lane := 0 }] })] } : State).link 1).drained = false ∧
    (lifeState .starting).jobOpenTo 0 0 = false := by decide +kernel
theorem witness_LifecycleEnds_channel : ((lifeState .starting).life 4 0).run = .starting ∧
    ∃ st, startEnd 4 0 0 false [] (lifeState .starting) = .error st := ⟨by decide +kernel, (.faulted, lifeState .starting), rfl⟩
theorem witness_LifecycleEnds_commit : (match startEnd 6 0 0 true [] (initCom 1) with | .ok t => decide ((t.com 0).state = .ready) | .error _ => false) = true ∧
    (initCom 1).comStartWaits 0 = false ∧ (initCom 1).jobOpenTo 0 1 = true ∧ ((initCom 1).life 5 0).run = .on ∧
    comOk (initCom 1) 0 ((initCom 1).red 0) (comOfConfig {}) = false := by decide +kernel
theorem witness_LifecycleEnds_reduction : redState.jobOpenTo 0 (redOfConfig (redState.life 5 0)).job = true ∧
    redOk redState 0 (redOfConfig (redState.life 5 0)) = true ∧
    redOk { redState with jobs := [(1, { part := 1 })] } 0 (redOfConfig (redState.life 5 0)) = false := by decide +kernel

theorem witness_JobCommands_load : Acts 1 3 (cmdOf Op.jobLoad 1 1 [(1, 0), (2, 1152)]) Op.jobLoad loadState ∧ loadImage.length = 1152 ∧
    (loadState.life 1 1).run = .on ∧ loadState.spansLoaded 1 = false ∧ loadState.freeJob = some 1 ∧
    Acts 1 3 (cmdOf Op.jobLoad 1 1 [(1, 0), (2, 1152)]) Op.jobLoad (cmdState (cmdOf Op.jobLoad 1 1 [(1, 0), (2, 1152)]) coreState) ∧
    (coreState.life 1 1).run ≠ .on ∧ Img.ofBytes [] = none := by decide +kernel
/-- An image that JOB_LOAD accepts. -/
def acceptsImage (s : State) (p : Nat) (b : List Byte) : Bool :=
  match Img.ofBytes b with
  | none => false
  | some g =>
    match imageFault s p g, s.grants p g with
    | none, some r => (check10 g (loadEnv s p g r)).isNone
    | _, _ => false
theorem acceptsImage_spec {s : State} {p : Nat} {b : List Byte} (h : acceptsImage s p b = true) :
    ∃ g r, Img.ofBytes b = some g ∧ imageFault s p g = none ∧ s.grants p g = some r ∧ check10 g (loadEnv s p g r) = none := by
  unfold acceptsImage at h
  split at h
  · cases h
  · split at h
    · exact ⟨_, _, ‹_›, ‹_›, ‹_›, by simpa using h⟩
    · cases h
theorem witness_JobCommands_image : ∃ g r, Img.ofBytes loadImage = some g ∧ imageFault loadState 1 g = none ∧
    loadState.grants 1 g = some r ∧ check10 g (loadEnv loadState 1 g r) = none := acceptsImage_spec (by decide +kernel)
theorem witness_JobCommands_noImage : (Img.ofBytes (List.replicate 1088 0)).map (imageFault loadState 1) =
    some (some (3, .rejectedArg, 0)) := by decide +kernel
theorem witness_JobCommands_start : Acts 1 3 (cmdOf Op.jobStart 7 1 []) Op.jobStart (cmdState (cmdOf Op.jobStart 7 1 []) coreState) ∧
    (coreState.job 1).state ≠ .loaded ∧ (newJob.job 1).state = .loaded ∧ (newJob.job 1).started = false ∧ (newJob.job 1).td = .none ∧
    (newJob.job 1).concord = none ∧ newJob.redsOf 1 = [] ∧ newJob.comsOf 1 = [] ∧ 2 ∈ newJob.jobsOf (newJob.job 1).part ∧
    Acts 1 3 (cmdOf Op.jobStart 7 1 [(1, 5), (2, 0x010101), (3, 0), (4, 0), (5, 6), (6, 7)]) Op.jobStart
      (cmdState (cmdOf Op.jobStart 7 1 [(1, 5), (2, 0x010101), (3, 0), (4, 0), (5, 6), (6, 7)]) newJob) := by decide +kernel
theorem witness_JobCommands_abort : Acts 1 3 (cmdOf Op.jobAbort 7 1 []) Op.jobAbort (cmdState (cmdOf Op.jobAbort 7 1 []) coreState) ∧
    (coreState.job 1).td = .none ∧ (coreState.part (coreState.job 1).part).holding = 1 ∧ ((tornState true).job 1).state = .tornDown ∧
    (newJob.part (newJob.job 1).part).holding ≠ 1 ∧ (newJob.part (newJob.job 1).part).incoming ≠ 1 ∧
    (((newJob.updPart (newJob.job 1).part (fun P => { P with incoming := 1 })).part (newJob.job 1).part).incoming = 1) ∧ (newJob.job 1).aborts = [] ∧
    (newJob.job 1).health.run = none ∧ (newJob.job 1).health.asked = [] ∧ (newJob.job 1).health.taking = [] := by decide +kernel
theorem witness_JobCommands_unload : Acts 1 3 (cmdOf Op.jobUnload 7 1 []) Op.jobUnload (cmdState (cmdOf Op.jobUnload 7 1 []) coreState) ∧
    coreState.jobRuns 1 = true ∧ newJob.jobRuns 1 = false := by decide +kernel

theorem witness_ConfigCommands_rearm : Acts 1 3 (cmdOf Op.redRearm 5 0 []) Op.redRearm (cmdState (cmdOf Op.redRearm 5 0 []) doneReds) ∧
    (∀ k ∈ sharesOf 0, (doneReds.red k).state = .complete ∧ (doneReds.red k).ringHeld = []) ∧ (∃ k ∈ sharesOf 1, (doneReds.red k).state ≠ .complete) := by decide +kernel
theorem witness_ConfigCommands_commit :
    Acts 1 3 (cmdOf Op.commitConfig 6 0 [(8, 5)]) Op.commitConfig (cmdState (cmdOf Op.commitConfig 6 0 [(8, 5)]) comLife) ∧
    configOk 8 5 = true ∧ configOk 8 65536 = false ∧ (comLife.life 6 0).run = .on ∧ (coreState.life 6 0).run = .off ∧
    (∀ k ∈ sharesOf 0, (comLife.com k).busy = false) := by decide +kernel
theorem witness_ConfigCommands_recover :
    Acts 1 3 (cmdOf Op.commitRecover 7 1 []) Op.commitRecover (cmdState (cmdOf Op.commitRecover 7 1 []) keptState) ∧
    keptState.comsKept 1 = [0] ∧ keptState.comEntriesKept 1 = [0] ∧
    RingApart 1 0x2000 8 keptState ∧ keptState.power.reaches = true ∧ keptState.badBlocks = [] ∧ (∀ k ∈ sharesOf 0, Stat.momTag (keptState.status k) = Stat.wTag (keptState.status k) ∧
      Stat.accStep (keptState.status k) = 0 ∧ Stat.lastStep (keptState.status k) = 0) := by decide +kernel
theorem witness_ConfigCommands_range :
    Acts 0 3 (cmdOf Op.cxlmemSet 0 0 [(1, 1), (2, 2)]) Op.cxlmemSet (mgmtState (cmdOf Op.cxlmemSet 0 0 [(1, 1), (2, 2)]) (rangeState 0)) ∧
    (rangeState 0).cxl.owner = 0 ∧ (rangeState 0).ddrTaken gib (2 * gib) = false ∧ (rangeState 0).ddrTaken (64 * gib) gib = true ∧
    1 * gib + 2 * gib ≤ (rangeState 0).ddrSize ∧
    Acts 0 3 (cmdOf Op.cxlmemHandover 0 0 [(1, 0)]) Op.cxlmemHandover (mgmtState (cmdOf Op.cxlmemHandover 0 0 [(1, 0)]) (rangeState 1)) ∧
    (rangeState 1).cxl.size ≠ 0 ∧ 0 ∈ (rangeState 1).partTiles 1 ∧
    ((rangeState 1).tile 0).movesIn (ddrBase + (rangeState 1).cxl.base) (rangeState 1).cxl.size = true ∧
    (∀ t ∈ coreState.partTiles 1, (coreState.tile t).movesIn ddrBase 0 = false) := by decide +kernel
theorem witness_ConfigCommands_health :
    Acts 1 3 (cmdOf Op.healthConfig 7 1 [(3, 5)]) Op.healthConfig (cmdState (cmdOf Op.healthConfig 7 1 [(3, 5)]) coreState) ∧
    (coreState.job 1).health.ckptEvery = 0 ∧ (reserveAreas 1 (rangeState 0)).isSome = true := by decide +kernel

/-- FW is LOADING, the flash records valid. -/
def wholeFlash : State := { loadingState with flash := { identity := .made [1], certificate := .made [2] } }
theorem witness_BootAndAttestation_load :
    Acts 0 3 (cmdOf Op.fwLoad 0 0 [(1, 0), (2, 0)]) Op.fwLoad (mgmtState (cmdOf Op.fwLoad 0 0 [(1, 0), (2, 0)]) baseState) ∧
    baseState.power.tripped = false ∧ fwFormOk [] = false ∧ fwFormOk fwImage = true ∧ loadingState.boot.loading = some 3 ∧
    (loadingState.cmd 0 3).isSome = true ∧ loadingState.power.tripped = false ∧ baseState.boot.loading = none ∧
    dimmOk { channel := 3, gib := 64 } = true ∧ dimmOk { channel := 3, gib := 24 } = false ∧
    dimmOk { channel := 3, gib := 64, speed := 5600 } = false ∧ wholeFlash.flash.invalid = none ∧ wholeFlash.boot.loading = some 3 ∧
    ({ wholeFlash with flash := { wholeFlash.flash with identity := ⟨.torn 1 [], .torn 2 []⟩ } } : State).flash.invalid ≠ none := by decide +kernel
theorem witness_BootAndAttestation_attest :
    Acts 1 3 (cmdOf Op.attest 0 0 [(1, 5), (2, 6), (3, 7), (4, 8)]) Op.attest (cmdState (cmdOf Op.attest 0 0 [(1, 5), (2, 6), (3, 7), (4, 8)]) coreState) ∧
    (cmdState (cmdOf Op.attest 0 0 []) coreState).attestWaits (cmdOf Op.attest 0 0 []) = false ∧
    (cmdState (cmdOf Op.attest 0 0 []) coreState).attestWaits { cmdOf Op.attest 0 0 [] with order := 1 } = true ∧
    coreState.flash.debugLock = true ∧ coreState.boot.block = none ∧ coreState.flash.nextBlock = some 0 ∧
    RingApart 1 0x2000 9280 coreState ∧ coreState.power.reaches = true := by decide +kernel

theorem witness_PowerResetAndPorts : coreState.power.input = .inRange ∧ ({ coreState with power := { input := .over } } : State).power.input ≠ .inRange ∧
    coreState.power.control = true ∧ coreState.power.reaches = true ∧ baseState.power.cxlWidth = 0 ∧ baseState.power.cxlDown = false ∧ baseState.power.control = true ∧ baseState.power.reaches = false ∧ coreState.MemSound ∧
    ({ coreState with power := { dimms := true } } : State).power.dimms = true ∧ 3 ∉ coreState.power.openDimms ∧ coreState.power.mgmt = true ∧
    coreState.power.mgmtShort = false ∧ coreState.fw ≠ .loading ∧ coreState.fw ≠ .rom ∧ coreState.hasRail 5 = true ∧
    5 ∉ coreState.power.localSense ∧ coreState.power.answers = true := by decide +kernel
theorem witness_PowerResetAndPorts_registers : (coreState.mb 3).enable = false ∧ (ringMb.mb 1).enable = true ∧ 0 < coreState.tileCount ∧
    (stoppedState.tile 0).run = .stopped ∧ stoppedState.power.control = true ∧ (baseState.tile 0).run ≠ .stopped ∧
    coreState.carriesJob 1 = false ∧ spanState.carriesJob 0 = true ∧ 5 < coreState.herdCount ∧ coreState.herdCount ≤ 512 ∧
    stoppedState.partQuiet (stoppedState.partOfObj (herdObj 0 3)) = true ∧
    State.reset.partQuiet (State.reset.partOfObj (devObj 5)) = true ∧
    ownedObj.partQuiet (ownedObj.partOfObj (devObj 5)) = false := by decide +kernel

theorem witness_StepKeepsMemSound : State.reset.MemSound ∧ step State.reset = .next (tick State.reset) ∧
    ({ State.reset with mem := [(3, 1), (9, 2)] } : State).MemSound := ⟨by decide, rfl, by decide⟩

theorem witness_StepKeepsQueues : busyState.QueuesFit ∧ (busyState.tile 0).blocks ≠ [] ∧ step busyState = .next (tick busyState) ∧
    (tileState { baseTile with blocks := List.replicate 4 ⟨1, 0, false, 0x2000, 0, 8, 0⟩ }).QueuesFit := ⟨by decide, by decide, rfl, by decide⟩

/-! ## Ill-formed commands are refused (Table 0-1, R20, R398, R418, R555, R558) -/

theorem test_wf_accepts : (Instr.add 12287 1 2 3).wf = true ∧ (Instr.droop 128).wf = true ∧ (Instr.quiesceAnswer 383).wf = true ∧
    (Instr.smbusRead 252 4).wf = true := by decide
theorem test_wf_tile : (Instr.add 12288 1 2 3).wf = false ∧ (Instr.vectorOpComplete 12288).wf = false := by decide
theorem test_wf_domain : (Instr.droop 96).wf = false ∧ (Instr.undervoltage 129 480).wf = false ∧ (Instr.railSettled 127).wf = false := by decide
theorem test_wf_scrub : (Instr.patrolScrub 0 false .crcFail 0).wf = false := by decide
theorem test_wf_hostAccess : (Instr.cxlmemHostAccess 0 true [1] .ok).wf = false ∧ (Instr.cxlmemHostAccess 0 false [1] .ok).wf = false := by decide
theorem test_wf_ringPacket : (Instr.ringPacket 0 0 65536 0 0 0 false false [] []).wf = false ∧
    (Instr.ringPacket 0 0 1 0 16 0 false false [] []).wf = false ∧ (Instr.ringPacket 0 0 1 0 0 16 false false [] []).wf = false := by decide
theorem test_wf_digest : (Instr.digestReceived 0 0 0 4294967296 0 0).wf = false := by decide
theorem test_wf_linkWrite : (Instr.linkWriteArrival 0 32 0 1 64).wf = false ∧ (Instr.linkWriteArrival 0 64 0 0 64).wf = false := by decide
theorem test_wf_stall : (Instr.handshakeStall 384 0 []).wf = false := by decide
theorem test_wf_sensor : (Instr.hardThermalTrip 80 0).wf = false := by decide
theorem test_wf_quiesce : (Instr.quiesceRequest 384).wf = false ∧ (Instr.quiesceAnswer 384).wf = false := by decide
theorem test_wf_register : (Instr.registerWrite false 2 0 []).wf = false := by decide
theorem test_wf_sweep : (Instr.sweepHop 0 4 0 1 0).wf = false ∧ (Instr.sweepHop 0 0 0 0 0).wf = false ∧ (Instr.sweepHop 0 0 0 9 0).wf = false := by decide
theorem test_wf_concord : (Instr.concordExchange 0 16 0 0 0 (List.replicate 64 0)).wf = false ∧ (Instr.concordExchange 0 0 0 0 0 []).wf = false := by decide
theorem test_wf_lifecycle : (Instr.lifecycleStartupEnd 0 0 true []).wf = false ∧ (Instr.lifecycleShutdownEnd 0 0).wf = false := by decide
theorem test_wf_boot : (Instr.bootEnd [{ channel := 16, gib := 64 }] none).wf = false ∧
    (Instr.bootEnd [{ channel := 3, gib := 64 }, { channel := 3, gib := 64 }] none).wf = false := by decide
theorem test_wf_smbus : (Instr.smbusRead 256 4).wf = false ∧ (Instr.smbusWrite 256 []).wf = false := by decide

/-! ## Instruction words (spec/04 Tables 4-1, 4-2, 4-4; spec/07 Table 7-3; words of the spec's examples) -/

theorem test_word_addi : tileInstr 5 0x08000000 = some (.addi 5 0 0 0) := by decide
theorem test_word_setvl : tileInstr 5 0xC98C0000 = some (.setvl 5 12 12) := by decide
theorem test_word_vstr : tileInstr 5 0xC8140010 = some (.vstr 5 0 20) ∧ tileInstr 5 0xC8150011 = some (.vstr 5 1 21) := by decide
theorem test_word_vop : tileInstr 5 0xC40A1C40 = some (.vadd 5 8 7 1 0 false false) ∧
    tileInstr 5 0xC4326000 = some (.vrelu 5 9 8 0 0 false false) ∧ tileInstr 5 0xC404A400 = some (.vmov 5 2 9 0 0 false false) := by decide
/-- SUB s3, s4, s5: OP 0x01, RD 3, RA 4, RB 5, FN 1. -/
theorem test_word_sub : tileInstr 5 (1 * 2 ^ 26 + 3 * 2 ^ 21 + 4 * 2 ^ 16 + 5 * 2 ^ 11 + 1) = some (.sub 5 3 4 5) := by decide
/-- STW s3 to 8(s4): OP 0x1A. -/
theorem test_word_stw : tileInstr 5 (0x1A * 2 ^ 26 + 3 * 2 ^ 21 + 4 * 2 ^ 16 + 8) = some (.stw 5 3 4 8) := by decide
/-- BNE s1, s2 two words back: OP 0x21, DISP 0xFFFE. -/
theorem test_word_bne : tileInstr 5 (0x21 * 2 ^ 26 + 1 * 2 ^ 21 + 2 * 2 ^ 16 + 0xFFFE) = some (.bne 5 1 2 0xFFFE) := by decide
/-- An OP that Table 4-2 does not list. -/
theorem test_word_illegal : tileInstr 5 0xFC000000 = none ∧ wordLegal 0xFC000000 = false := by decide
/-- No row of the table has bits. -/
theorem test_decodeTableWord : decodeTableWord 32 0x08000000 = none := by decide

end Sys2Proof.Tests
end

section
/-! SUPPORT. Words in memory: a number's little-endian bytes read back, and a line of words read word by word (spec/00 R7). -/

namespace Sys2Proof.Machine

theorem leNat_leBytes (n v : Nat) : leNat (leBytes n v) = v % 256 ^ n := by
  induction n generalizing v with
  | zero => simp [leBytes, leNat, Nat.mod_one]
  | succ n ih =>
    rw [leBytes, leNat, ih, Nat.pow_succ', Nat.mod_mul]
    simp

theorem readBytes_add (m : Memory) (a j k : Nat) : readBytes m a (j + k) = readBytes m a j ++ readBytes m (a + j) k := by
  induction j generalizing a with
  | zero => simp [readBytes]
  | succ j ih => rw [Nat.succ_add, readBytes, ih, readBytes, List.cons_append, Nat.add_assoc, Nat.add_comm 1 j]

/-- A written range reads as what was written. -/
theorem readBytes_writeBytes (bs : List Byte) (m : Memory) (a : Nat) : readBytes (writeBytes m a bs) a bs.length = bs := by
  induction bs generalizing m a with
  | nil => rfl
  | cons b r ih =>
    rw [writeBytes, List.length_cons, readBytes, ih, readByte_writeBytes_outside _ _ _ _ (by omega), readByte_writeByte,
      if_pos rfl]

@[simp] theorem lineBytes_length (l : List Word) : (lineBytes l).length = 4 * l.length := by
  induction l with
  | nil => rfl
  | cons w l ih =>
    rw [lineBytes, List.flatMap_cons, List.length_append, leBytes_length, ← lineBytes, ih, List.length_cons]
    omega

/-- Where memory holds the bytes of a line, each word of it reads as its value. -/
theorem readNat_of_lineBytes {m : Memory} (l : List Word) (a n : Nat) (h : readBytes m a (4 * l.length) = lineBytes l)
    (hn : n < l.length) : readNat m (a + 4 * n) 4 = (l.getD n 0).toNat := by
  induction l generalizing a n with
  | nil => simp at hn
  | cons w l ih =>
    rw [List.length_cons, Nat.mul_add, Nat.mul_one, Nat.add_comm, readBytes_add, lineBytes, List.flatMap_cons] at h
    obtain ⟨hw, hl⟩ := List.append_inj h (by simp)
    cases n with
    | zero =>
      rw [Nat.mul_zero, Nat.add_zero, readNat, hw, leNat_leBytes]
      exact Nat.mod_eq_of_lt w.isLt
    | succ n =>
      rw [List.length_cons] at hn
      rw [List.getD_cons_succ, ← ih (a + 4) n hl (by omega)]
      congr 1
      omega

end Sys2Proof.Machine
end

section
/-! SUPPORT. Cutting a list into pieces, and the rows of a matrix operation's outputs as lines of 32 words (R154). -/

namespace Sys2Proof.Machine

/-- The fuel of the cut does not matter once it reaches the list's length. -/
theorem chunksAux_fuel {α : Type} {n : Nat} (hn : 0 < n) (f g : Nat) (l : List α) (hf : l.length ≤ f) (hg : l.length ≤ g) :
    chunksAux n f l = chunksAux n g l := by
  induction f generalizing g l with
  | zero =>
    obtain rfl : l = [] := List.eq_nil_of_length_eq_zero (by omega)
    cases g <;> rfl
  | succ f ih =>
    cases l with
    | nil => cases g <;> rfl
    | cons x r =>
      rw [List.length_cons] at hf hg
      obtain ⟨g, rfl⟩ : ∃ k, g = k + 1 := ⟨g - 1, by omega⟩
      rw [chunksAux, chunksAux, ih g _ (by simp; omega) (by simp; omega)]

@[simp] theorem chunks_nil {α : Type} (n : Nat) : chunks n ([] : List α) = [] := rfl

/-- The first piece of a list is its first `n` elements. -/
theorem chunks_cons {α : Type} {n : Nat} {l : List α} (hn : 0 < n) (hl : l ≠ []) : chunks n l = l.take n :: chunks n (l.drop n) := by
  cases l with
  | nil => contradiction
  | cons x r =>
    rw [chunks, List.length_cons, chunksAux, if_neg (by simp)]
    exact congrArg _ (chunksAux_fuel hn _ _ _ (by simp; omega) (Nat.le_refl _))

/-- A row of 64 words is two lines. -/
theorem chunks_row {row : List Word} (l : List Word) (h : row.length = 64) :
    chunks 32 (row ++ l) = row.take 32 :: row.drop 32 :: chunks 32 l := by
  have hfirst : row ++ l ≠ [] := List.ne_nil_of_length_pos (by simp; omega)
  have hsecond : (row ++ l).drop 32 ≠ [] := List.ne_nil_of_length_pos (by simp; omega)
  rw [chunks_cons (by decide) hfirst, chunks_cons (by decide) hsecond]
  simp [List.take_append, List.drop_append, h]

/-- The lines of rows of 64 words: two for each row. -/
theorem rowLines_length {rows : List (List Word)} (h : ∀ r ∈ rows, r.length = 64) :
    (chunks 32 rows.flatten).length = 2 * rows.length := by
  induction rows with
  | nil => rfl
  | cons r rows ih =>
    obtain ⟨hr, hrows⟩ := List.forall_mem_cons.mp h
    rw [List.flatten_cons, chunks_row _ hr, List.length_cons, List.length_cons, ih hrows, List.length_cons]
    omega

theorem rowLines_line {rows : List (List Word)} (h : ∀ r ∈ rows, r.length = 64) : ∀ l ∈ chunks 32 rows.flatten, l.length = 32 := by
  induction rows with
  | nil => simp
  | cons r rows ih =>
    obtain ⟨hr, hrows⟩ := List.forall_mem_cons.mp h
    rw [List.flatten_cons, chunks_row _ hr]
    simpa [hr] using ih hrows

/-- A row or a line that the list reaches has the length that all have. -/
theorem length_getD {rows : List (List Word)} {k n : Nat} (h : ∀ r ∈ rows, r.length = n) (hk : k < rows.length) :
    (rows.getD k []).length = n := by
  rw [List.getD_eq_getElem?_getD, List.getElem?_eq_getElem hk, Option.getD_some]
  exact h _ (List.getElem_mem hk)

/-- Word `n` of a row stands in its first or its second line. -/
theorem rowLines_word {rows : List (List Word)} (h : ∀ r ∈ rows, r.length = 64) {k n : Nat} (hk : k < rows.length) (hn : n < 64) :
    ((chunks 32 rows.flatten).getD (2 * k + n / 32) []).getD (n % 32) 0 = (rows.getD k []).getD n 0 := by
  induction rows generalizing k with
  | nil => simp at hk
  | cons r rows ih =>
    obtain ⟨hr, hrows⟩ := List.forall_mem_cons.mp h
    rw [List.flatten_cons, chunks_row _ hr]
    cases k with
    | zero =>
      obtain hlow | hhigh := Nat.lt_or_ge n 32
      · simp [Nat.div_eq_of_lt hlow, Nat.mod_eq_of_lt hlow, hlow]
      · obtain ⟨q, rfl⟩ : ∃ q, n = 32 + q := ⟨n - 32, by omega⟩
        have hline : (32 + q) / 32 = 1 := by omega
        have hplace : (32 + q) % 32 = q := by omega
        rw [hline, hplace]
        simp
    | succ k =>
      rw [List.length_cons] at hk
      rw [show 2 * (k + 1) + n / 32 = 2 * k + n / 32 + 1 + 1 by omega]
      simpa only [List.getD_cons_succ] using ih hrows (by omega)

end Sys2Proof.Machine
end

section
/-! SUPPORT. What the reads of a matrix operation leave as it was (R72, R146), and the shape of its outputs (R150). -/

namespace Sys2Proof.Machine

/-- What the reads of an operation of tile `t` may change: of the tile ECC_SEEN and the skip counters, of the module no other
tile, no byte and no partition. -/
structure ReadsOnly (t : Nat) (s u : State) : Prop where
  tile : ∃ e k, u.tile t = { s.tile t with eccSeen := e, skips := k }
  others : ∀ v, v ≠ t → u.tile v = s.tile v
  mem : u.mem = s.mem
  parts : u.parts = s.parts

/-- Reads of tile `t` from `s` have answered: `Q` holds of the answer, and up to a fault they only read. -/
def ReadsTo {α : Type} (t : Nat) (s : State) (Q : α → Prop) : Except (TileFault × State) α → Prop
  | .error e => ReadsOnly t s e.2
  | .ok a => Q a

theorem ReadsTo.of_eq {α : Type} {t : Nat} {s : State} {Q : α → Prop} {a b : Except (TileFault × State) α} (h : ReadsTo t s Q a)
    (e : a = b) : ReadsTo t s Q b := e ▸ h

namespace ReadsOnly
variable {t : Nat} {s u v : State}

theorem refl (t : Nat) (s : State) : ReadsOnly t s s := ⟨⟨_, _, rfl⟩, fun _ _ => rfl, rfl, rfl⟩

theorem trans (h : ReadsOnly t s u) (g : ReadsOnly t u v) : ReadsOnly t s v where
  tile := by
    obtain ⟨e, k, hu⟩ := h.tile
    obtain ⟨e', k', hv⟩ := g.tile
    exact ⟨e', k', by rw [hv, hu]⟩
  others w hw := (g.others w hw).trans (h.others w hw)
  mem := g.mem.trans h.mem
  parts := g.parts.trans h.parts

/-- A change of the skip counters is one that reads may make. -/
theorem updTile_skips (t : Nat) (s : State) (f : Tile → Tile) (hf : ∀ T : Tile, f T = { T with skips := (f T).skips }) :
    ReadsOnly t s (s.updTile t f) where
  tile := ⟨_, _, by rw [tile_updTile_same, hf]⟩
  others _ h := tile_updTile_other _ _ h
  mem := rfl
  parts := rfl

theorem run (h : ReadsOnly t s u) : (u.tile t).run = (s.tile t).run := by obtain ⟨_, _, e⟩ := h.tile; rw [e]
theorem regs (h : ReadsOnly t s u) : (u.tile t).regs = (s.tile t).regs := by obtain ⟨_, _, e⟩ := h.tile; rw [e]
theorem pc (h : ReadsOnly t s u) : (u.tile t).pc = (s.tile t).pc := by obtain ⟨_, _, e⟩ := h.tile; rw [e]
theorem mx (h : ReadsOnly t s u) : (u.tile t).mx = (s.tile t).mx := by obtain ⟨_, _, e⟩ := h.tile; rw [e]
theorem ftq (h : ReadsOnly t s u) : (u.tile t).ftq = (s.tile t).ftq := by obtain ⟨_, _, e⟩ := h.tile; rw [e]
theorem vec (h : ReadsOnly t s u) : (u.tile t).vec = (s.tile t).vec := by obtain ⟨_, _, e⟩ := h.tile; rw [e]
theorem partOf (h : ReadsOnly t s u) : u.partOf t = s.partOf t := by
  simp [State.partOf, State.partOfHerd, State.part, h.parts]

/-- Reads, and then reads from there on. -/
theorem readsTo {α : Type} {P Q : α → Prop} {r : Except (TileFault × State) α} (h : ReadsOnly t s u) (g : ReadsTo t u P r)
    (hPQ : ∀ a, P a → Q a) : ReadsTo t s Q r := by
  cases r with
  | error e => exact h.trans g
  | ok a => exact hPQ a g

/-- A fault after reads is a fault of the tile as it stood before them. -/
theorem faulted {unit code addr : Nat} {pc : Word} {s' : State} (h : ReadsOnly t s u) (g : Faulted t unit code pc addr u s') :
    Faulted t unit code pc addr s s' where
  run := g.run
  record := g.record
  regs := ⟨g.regs.1.trans h.regs, g.regs.2.trans h.pc⟩
  ended := g.ended
  others v hv := (g.others v hv).trans (h.others v hv)
  bytes a := (g.bytes a).trans (by rw [h.mem])
  flag := h.partOf ▸ g.flag

end ReadsOnly

theorem eccCorrect_readsOnly (t a n : Nat) (s : State) : ReadsOnly t s (eccCorrect t a n s) := by
  unfold eccCorrect
  dsimp only
  split
  · exact .refl t s
  · exact ⟨⟨true, _, tile_updTile_same _ t _⟩, fun _ h => tile_updTile_other _ _ h, rfl, rfl⟩

theorem readCheck_reads (t off n : Nat) (s : State) : ReadsTo t s (ReadsOnly t s) (readCheck t off n s) := by
  unfold readCheck
  dsimp only
  split <;> exact eccCorrect_readsOnly ..

theorem readChecks_reads (t : Nat) (l : List (Nat × Nat)) (s : State) : ReadsTo t s (ReadsOnly t s) (readChecks t l s) := by
  induction l generalizing s with
  | nil => exact .refl t s
  | cons e l ih =>
    rw [readChecks]
    split
    · next h => exact (readCheck_reads ..).of_eq h
    · next u h =>
      have hhead : ReadsOnly t s u := (readCheck_reads ..).of_eq h
      exact hhead.readsTo (ih u) fun _ => hhead.trans

theorem mxReadRecord_reads (t : Nat) (d : MxDesc) (k : MxSkip) (kt : Nat) (p : MxPath) (s : State) :
    ReadsTo t s (ReadsOnly t s) (mxReadRecord t d k kt p s) := by
  cases p with
  | zero => exact .refl t s
  | dense => exact readChecks_reads ..
  | pair =>
    rw [mxReadRecord]
    split
    · next h => exact (readCheck_reads ..).of_eq h
    · next u h =>
      have hrecord : ReadsOnly t s u := (readCheck_reads ..).of_eq h
      split
      · exact hrecord
      · exact hrecord.readsTo (readChecks_reads ..) fun _ => hrecord.trans

theorem mxPaths_reads (t : Nat) (d : MxDesc) (k : MxSkip) (fuel kt : Nat) (s : State) :
    ReadsTo t s (fun x => ReadsOnly t s x.2) (mxPaths t d k fuel kt s) := by
  induction fuel generalizing kt s with
  | zero => exact .refl t s
  | succ fuel ih =>
    rw [mxPaths]
    split
    · exact .refl t s
    · dsimp only
      split
      · next h => exact (readCheck_reads ..).of_eq h
      · next u h =>
        have hhead : ReadsOnly t s u := (readCheck_reads ..).of_eq h
        split
        · exact hhead
        · split
          · next h => exact hhead.trans ((mxReadRecord_reads ..).of_eq h)
          · next v h =>
            have hrecord : ReadsOnly t s v := hhead.trans ((mxReadRecord_reads ..).of_eq h)
            split
            · next h => exact hrecord.trans ((ih ..).of_eq h)
            · next h => exact hrecord.trans ((ih ..).of_eq h)

/-- An operation's outputs: what forms them only reads, and they are M rows of 64 words (R148, R150). -/
theorem mxCompute_reads (t : Nat) (o : MxOp) (s : State) :
    ReadsTo t s (fun x => ReadsOnly t s x.2 ∧ x.1.rows.length = o.desc.m ∧ ∀ r ∈ x.1.rows, r.length = 64) (mxCompute t o s) := by
  unfold mxCompute
  dsimp only
  split
  · next h => exact (readChecks_reads ..).of_eq h
  · next u h =>
    have hmasks : ReadsOnly t s u := (readChecks_reads ..).of_eq h
    split
    · next h => exact hmasks.trans ((readChecks_reads ..).of_eq h)
    · next v h =>
      have hinit : ReadsOnly t s v := hmasks.trans ((readChecks_reads ..).of_eq h)
      split
      · next h => exact hinit.trans ((mxPaths_reads ..).of_eq h)
      · next w h =>
        have hpaths : ReadsOnly t s w := hinit.trans ((mxPaths_reads ..).of_eq h)
        refine ⟨?_, by simp, by simp⟩
        dsimp only
        split
        · exact hpaths.trans (ReadsOnly.updTile_skips _ _ _ fun _ => rfl)
        · exact hpaths

variable {t : Nat} {o : MxOp} {s u : State}

theorem mxCompute_ok {x : MxResult} (h : mxCompute t o s = .ok (x, u)) :
    ReadsOnly t s u ∧ x.rows.length = o.desc.m ∧ ∀ r ∈ x.rows, r.length = 64 := by
  have := mxCompute_reads t o s
  rwa [h] at this

theorem mxCompute_error {f : TileFault} (h : mxCompute t o s = .error (f, u)) : ReadsOnly t s u := by
  have := mxCompute_reads t o s
  rwa [h] at this

end Sys2Proof.Machine
end

section
/-! SUPPORT. The emission of a matrix operation with DEST = 0: where its lines lie, and what committing them leaves in memory
(R154). -/

namespace Sys2Proof.Machine

/-- The offset of the `i`-th line that an operation has still to commit. -/
def MxOp.lineOff (o : MxOp) (i : Nat) : Nat := ({ o with rest := o.rest.drop i } : MxOp).lineAt

/-- Line `i` of those left is one of a row's two lines. -/
theorem lineOff_eq (o : MxOp) (i : Nat) : o.lineOff i =
    o.desc.outBase + (2 * o.desc.m - (o.rest.length - i)) / 2 * o.desc.outPitch + (2 * o.desc.m - (o.rest.length - i)) % 2 * 128 := by
  simp [MxOp.lineOff, MxOp.lineAt]

/-- With every line left, line `i` lies in row `i / 2`. -/
theorem lineOff_of_full {o : MxOp} {i : Nat} (hm : o.rest.length = 2 * o.desc.m) (hi : i < o.rest.length) :
    o.lineOff i = o.desc.outBase + i / 2 * o.desc.outPitch + i % 2 * 128 := by
  rw [lineOff_eq, show 2 * o.desc.m - (o.rest.length - i) = i by omega]

/-- A line ends before a later one begins where rows do not overlap. -/
theorem lineOff_apart {o : MxOp} {i k : Nat} (hm : o.rest.length ≤ 2 * o.desc.m) (hp : 256 ≤ o.desc.outPitch) (hik : i < k)
    (hk : k < o.rest.length) : o.lineOff i + 128 ≤ o.lineOff k := by
  rw [lineOff_eq, lineOff_eq]
  generalize ha : 2 * o.desc.m - (o.rest.length - i) = a
  generalize hb : 2 * o.desc.m - (o.rest.length - k) = b
  obtain hrow | hrow : a / 2 = b / 2 ∨ a / 2 + 1 ≤ b / 2 := by omega
  · rw [hrow]
    omega
  · have := Nat.mul_le_mul_right o.desc.outPitch hrow
    rw [Nat.add_mul] at this
    omega

section
variable {o : MxOp} {l : List Word} {r : List (List Word)}

theorem lineOff_zero (o : MxOp) : o.lineOff 0 = o.lineAt := rfl

theorem lineOff_tail (h : o.rest = l :: r) (i : Nat) : ({ o with rest := r } : MxOp).lineOff i = o.lineOff (i + 1) := by
  rw [MxOp.lineOff, MxOp.lineOff, h]
  rfl

theorem mxEmit_nil (h : o.rest = []) (t n : Nat) (s : State) : mxEmit t n o s = (o, s) := by
  cases n with
  | zero => rfl
  | succ n => rw [mxEmit, h]

theorem mxEmit_cons (h : o.rest = l :: r) (t n : Nat) (s : State) :
    mxEmit t (n + 1) o s = mxEmit t n { o with rest := r } (s.writeMem (devAddr t o.lineAt) (lineBytes l)) := by
  rw [mxEmit, h]

end

/-- Committing lines changes no tile. -/
theorem mxEmit_tile (t n : Nat) (o : MxOp) (s : State) (v : Nat) : (mxEmit t n o s).2.tile v = s.tile v := by
  induction n generalizing o s with
  | zero => rfl
  | succ n ih =>
    cases h : o.rest with
    | nil => rw [mxEmit_nil h]
    | cons l r => rw [mxEmit_cons h, ih, writeMem_tile]

variable {t : Nat} {o : MxOp} {s : State}

/-- A byte outside the lines left is as it was. -/
theorem mxEmit_outside {a : Nat} (hl : ∀ l ∈ o.rest, l.length = 32)
    (ha : ∀ i < o.rest.length, a < devAddr t (o.lineOff i) ∨ devAddr t (o.lineOff i) + 128 ≤ a) (n : Nat) :
    readByte (mxEmit t n o s).2.mem a = readByte s.mem a := by
  induction n generalizing o s with
  | zero => rfl
  | succ n ih =>
    cases h : o.rest with
    | nil => rw [mxEmit_nil h]
    | cons l r =>
      rw [h, List.length_cons] at ha
      obtain ⟨hlen, hr⟩ := List.forall_mem_cons.mp (h ▸ hl)
      have hfirst := ha 0 (by omega)
      have hothers : ∀ i < r.length, _ := fun i hi => lineOff_tail h i ▸ ha (i + 1) (by omega)
      rw [mxEmit_cons h, ih hr hothers]
      exact readByte_writeBytes_outside _ _ _ _ (by rwa [lineBytes_length, hlen])

/-- Where the lines do not overlap, each line left stands in memory once all are committed. -/
theorem mxEmit_line {i : Nat} (hl : ∀ l ∈ o.rest, l.length = 32) (hm : o.rest.length ≤ 2 * o.desc.m)
    (hp : 256 ≤ o.desc.outPitch) (hi : i < o.rest.length) :
    readBytes (mxEmit t o.rest.length o s).2.mem (devAddr t (o.lineOff i)) 128 = lineBytes (o.rest.getD i []) := by
  generalize hrest : o.rest = rest at *
  induction rest generalizing o s i with
  | nil => simp at hi
  | cons l r ih =>
    obtain ⟨hlen, hr⟩ := List.forall_mem_cons.mp hl
    rw [List.length_cons] at hm hi
    rw [List.length_cons, mxEmit_cons hrest]
    cases i with
    | zero =>
      have hwritten := readBytes_writeBytes (lineBytes l) s.mem (devAddr t o.lineAt)
      rw [lineBytes_length, hlen] at hwritten
      rw [List.getD_cons_zero, lineOff_zero]
      refine (readBytes_congr fun a h1 h2 => mxEmit_outside hr (fun k hk => .inl ?_) _).trans hwritten
      have hlater := lineOff_apart (k := k + 1) (by rwa [hrest]) hp k.succ_pos (by rw [hrest]; exact Nat.succ_lt_succ hk)
      rw [← lineOff_tail hrest, lineOff_zero] at hlater
      simp only [devAddr] at h2 ⊢
      omega
    | succ i =>
      rw [List.getD_cons_succ, ← lineOff_tail hrest]
      exact ih (o := { o with rest := r }) hp rfl hr (Nat.le_of_succ_le hm) (Nat.lt_of_succ_lt_succ hi)

/-- Where the lines do not overlap, each word of each line left stands in memory once all are committed. -/
theorem mxEmit_word {i n : Nat} (hl : ∀ l ∈ o.rest, l.length = 32) (hm : o.rest.length ≤ 2 * o.desc.m)
    (hp : 256 ≤ o.desc.outPitch) (hi : i < o.rest.length) (hn : n < 32) :
    readNat (mxEmit t o.rest.length o s).2.mem (devAddr t (o.lineOff i) + 4 * n) 4 = ((o.rest.getD i []).getD n 0).toNat := by
  have hlen := length_getD hl hi
  refine readNat_of_lineBytes _ _ n ?_ (by omega)
  rw [hlen]
  exact mxEmit_line hl hm hp hi

end Sys2Proof.Machine
end

section
/-! SUPPORT. How a matrix operation comes to its emission and how it ends (R146, R153, R154). -/

namespace Sys2Proof.Machine

variable {t : Nat} {o : MxOp} {s u : State}

/-- The operation as its emission begins, its outputs formed. -/
def MxOp.begun (o : MxOp) (x : MxResult) : MxOp :=
  { o with emitting := true, beats := x.beats, idle := x.idle, rest := chunks (if o.desc.dest then 1024 else 32) x.rows.flatten }

theorem mxBegin_emitting (h : o.emitting = true) : mxBegin t o s = .ok (o, s) := if_pos h

/-- Where its outputs form, an operation comes to its emission: it stands first in the queue as begun, and up to that, and to
what the reads may change, everything is as it was. -/
theorem mxBegin_forms {x : MxResult} {r : List MxOp} (hmx : (s.tile t).mx = o :: r) (h : o.emitting = false)
    (hx : mxCompute t o s = .ok (x, u)) : ∃ v, mxBegin t o s = .ok (o.begun x, v) ∧ v.mem = s.mem ∧
      (v.tile t).run = (s.tile t).run ∧ (v.tile t).mx = o.begun x :: r ∧ (v.tile t).ftq = (s.tile t).ftq ∧
      (v.tile t).vec = (s.tile t).vec := by
  obtain ⟨hreads, -⟩ := mxCompute_ok hx
  have hb : mxBegin t o s = .ok (o.begun x, u.updTile t (fun T => { T.setMx (o.begun x) with mxStore := x.store })) := by
    rw [mxBegin, h, hx]
    rfl
  refine ⟨_, hb, hreads.mem, ?_⟩
  rw [tile_updTile_same]
  refine ⟨hreads.run, ?_, hreads.ftq, hreads.vec⟩
  show o.begun x :: (u.tile t).mx.drop 1 = _
  rw [hreads.mx, hmx, List.drop_one, List.tail_cons]

theorem mxBegin_error {f : TileFault} (h : o.emitting = false) (hx : mxCompute t o s = .error (f, u)) :
    mxBegin t o s = .error (f, u) := by
  rw [mxBegin, h, hx]
  rfl

/-- A charge changes nothing but the free counter, the activity counts and the jobs' accounts. -/
theorem chargeMx_rest (t fmt least : Nat) (lowered : Bool) (s : State) :
    ∃ free chamois jobs, chargeMx t fmt least lowered s = { s with free := free, chamois := chamois, jobs := jobs } := by
  unfold chargeMx
  extract_lets j n act u
  split <;> exact ⟨_, _, _, rfl⟩

theorem chargeMx_tile (t fmt least : Nat) (lowered : Bool) (s : State) (v : Nat) :
    (chargeMx t fmt least lowered s).tile v = s.tile v := by
  obtain ⟨_, _, _, h⟩ := chargeMx_rest t fmt least lowered s
  rw [h]
  rfl

theorem chargeMx_mem (t fmt least : Nat) (lowered : Bool) (s : State) : (chargeMx t fmt least lowered s).mem = s.mem := by
  obtain ⟨_, _, _, h⟩ := chargeMx_rest t fmt least lowered s
  rw [h]

/-- The oldest operation of a running tile ends: it leaves the queue, and nothing waits to be woken. -/
theorem mxPop_running (least : Nat) (idle : Bool) (h : (s.tile t).run = .running) :
    (mxPop t least idle s).mem = s.mem ∧ (mxPop t least idle s).tile t = { s.tile t with mx := (s.tile t).mx.drop 1, mxStore := {} } := by
  rw [mxPop, wake_notParked (by rw [chargeMx_tile, tile_updTile_same]; simp [h])]
  exact ⟨chargeMx_mem .., by rw [chargeMx_tile, tile_updTile_same]⟩

/-- With nothing in the vector queue of a running tile, nothing moves on. -/
theorem vecAdvance_idle (hq : (s.tile t).vec.queue = []) (h : (s.tile t).run = .running) : vecAdvance t s = s := by
  rw [vecAdvance, hq, List.length_nil, vecSteps, hq]
  exact wake_notParked (by simp [h])

end Sys2Proof.Machine
end

section
/-! SUPPORT. MATRIX_OP_COMPLETE and FTQ_PUSH by what the oldest operation comes to (R154, R157, R158). -/

namespace Sys2Proof.Machine

variable {t : Nat} {o : MxOp} {r : List MxOp} {s u : State}

theorem exec_matrixOpComplete (t : Nat) (s : State) : exec (.matrixOpComplete t) s = execMatrixOpComplete t s := rfl
theorem exec_ftqPush (t : Nat) (s : State) : exec (.ftqPush t) s = execFtqPush t s := rfl

section
variable {o' : MxOp} (ht : t < s.tileCount) (hmx : (s.tile t).mx = o :: r)
include ht hmx

/-- An operation with DEST = 0 commits every line left and ends. -/
theorem exec_matrixOpComplete_lines (hb : mxBegin t o s = .ok (o', u)) (hd : o'.desc.dest = false) :
    exec (.matrixOpComplete t) s = .next (mxPop t (mxEmit t o'.rest.length o' u).1.beats (mxEmit t o'.rest.length o' u).1.idle
      (mxEmit t o'.rest.length o' u).2) := by
  rw [exec_matrixOpComplete, execMatrixOpComplete, onTile_in _ ht]
  simp only [hmx, hb, hd, Bool.false_eq_true, if_false]

/-- An operation with DEST = 1 whose entries are all pushed ends. -/
theorem exec_matrixOpComplete_pushed (hb : mxBegin t o s = .ok (o', u)) (hd : o'.desc.dest = true) (hr : o'.rest = []) :
    exec (.matrixOpComplete t) s = .next (mxPop t o'.beats o'.idle u) := by
  rw [exec_matrixOpComplete, execMatrixOpComplete, onTile_in _ ht]
  simp only [hmx, hb, hd, hr]
  rfl

theorem exec_matrixOpComplete_faults {f : TileFault} (hb : mxBegin t o s = .error (f, u)) :
    exec (.matrixOpComplete t) s = .next (faultTile t 1 f.code o.pc f.addr u) := by
  rw [exec_matrixOpComplete, execMatrixOpComplete, onTile_in _ ht]
  simp only [hmx, hb]

/-- An operation with DEST = 1 pushes its next entry where the queue has room. -/
theorem exec_ftqPush_pushes {e : List Word} {rest : List (List Word)} (hd : o.desc.dest = true) (hb : mxBegin t o s = .ok (o', u))
    (hr : o'.rest = e :: rest) (hroom : (u.tile t).ftq.entries.length < 8) :
    exec (.ftqPush t) s = .next (vecAdvance t (u.updTile t (fun T =>
      { T.setMx { o' with rest := rest } with ftq := { T.ftq with entries := T.ftq.entries ++ [e] } }))) := by
  rw [exec_ftqPush, execFtqPush, onTile_in _ ht]
  simp only [hmx, hb, hd, hr, if_neg (Nat.not_le.mpr hroom)]
  rfl

theorem exec_ftqPush_faults {f : TileFault} (hd : o.desc.dest = true) (hb : mxBegin t o s = .error (f, u)) :
    exec (.ftqPush t) s = .next (faultTile t 1 f.code o.pc f.addr u) := by
  rw [exec_ftqPush, execFtqPush, onTile_in _ ht]
  simp only [hmx, hb, hd]
  rfl

end

/-- The outcome of an emission with DEST = 0: the operation has left the queue, and memory is as the lines left it. -/
theorem matrixOpComplete_emits {o' : MxOp} (ht : t < s.tileCount) (hmx : (s.tile t).mx = o :: r) (hb : mxBegin t o s = .ok (o', u))
    (hd : o'.desc.dest = false) (hrun : (u.tile t).run = .running) (hux : (u.tile t).mx = o' :: r) :
    Does (.matrixOpComplete t) s (fun s' => (s'.tile t).mx = r ∧ s'.mem = (mxEmit t o'.rest.length o' u).2.mem) := by
  obtain ⟨hmem, htile⟩ := mxPop_running (s := (mxEmit t o'.rest.length o' u).2) (mxEmit t o'.rest.length o' u).1.beats
    (mxEmit t o'.rest.length o' u).1.idle (by rwa [mxEmit_tile])
  exact ⟨_, exec_matrixOpComplete_lines ht hmx hb hd, by rw [htile, mxEmit_tile, hux]; rfl, hmem⟩

/-- The outcome of a push: the entry stands last in the finished-tile queue, and the operation keeps the rest. -/
theorem ftqPush_pushes {o' : MxOp} {e : List Word} {rest : List (List Word)} (ht : t < s.tileCount) (hmx : (s.tile t).mx = o :: r)
    (hd : o.desc.dest = true) (hb : mxBegin t o s = .ok (o', u)) (hr : o'.rest = e :: rest) (hrun : (u.tile t).run = .running)
    (hux : (u.tile t).mx = o' :: r) (hroom : (u.tile t).ftq.entries.length < 8) (hq : (u.tile t).vec.queue = []) :
    Does (.ftqPush t) s (fun s' => (s'.tile t).ftq = { (u.tile t).ftq with entries := (u.tile t).ftq.entries ++ [e] } ∧
      (s'.tile t).mx = { o' with rest := rest } :: r ∧ TileOnly t u s') := by
  refine ⟨_, exec_ftqPush_pushes ht hmx hd hb hr hroom, ?_⟩
  rw [vecAdvance_idle (by rw [tile_updTile_same]; exact hq) (by rw [tile_updTile_same]; exact hrun)]
  have htile := tile_updTile_same u t (fun T =>
    { T.setMx { o' with rest := rest } with ftq := { T.ftq with entries := T.ftq.entries ++ [e] } })
  exact ⟨congrArg Tile.ftq htile, (congrArg Tile.mx htile).trans (by rw [Tile.setMx, hux]; rfl),
    fun _ h => tile_updTile_other _ _ h, fun _ => rfl, rfl⟩

end Sys2Proof.Machine
end

section
/-! PROOFS. The completion of matrix operations (spec/05 R148 to R157). -/

namespace Sys2Proof.Machine

variable {t : Nat} {o : MxOp} {r : List MxOp} {s u : State}

/-- The device address of row `m` of an operation's outputs (R154). -/
def MxDesc.rowAddr (t : Nat) (d : MxDesc) (m : Nat) : Nat := devOf t (d.outBase + m * d.outPitch)

section
variable {x : MxResult} (hd : o.desc.dest = false)
include hd

theorem begun_rest : (o.begun x).rest = chunks 32 x.rows.flatten := by
  simp [MxOp.begun, hd]

/-- An operation with DEST = 0 begins its emission with two lines of 32 words for each of its rows. -/
theorem begun_lines (hx : mxCompute t o s = .ok (x, u)) :
    (o.begun x).rest.length = 2 * o.desc.m ∧ ∀ l ∈ (o.begun x).rest, l.length = 32 := by
  obtain ⟨-, hrows, h64⟩ := mxCompute_ok hx
  rw [begun_rest hd, ← hrows]
  exact ⟨rowLines_length h64, rowLines_line h64⟩

/-- Each of those lines is a half of a row. -/
theorem begun_lineAddr (hx : mxCompute t o s = .ok (x, u)) {i : Nat} (hi : i < (o.begun x).rest.length) :
    devAddr t ((o.begun x).lineOff i) = o.desc.rowAddr t (i / 2) + i % 2 * 128 := by
  rw [lineOff_of_full (begun_lines hd hx).1 hi]
  exact (Nat.add_assoc ..).symm

end

/-- An operation with DEST = 0 whose outputs form writes their rows. -/
theorem matrixOpComplete_rows {x : MxResult} (ht : t < s.tileCount) (hrun : (s.tile t).run = .running)
    (hmx : (s.tile t).mx = o :: r) (he : o.emitting = false) (hd : o.desc.dest = false) (hx : mxCompute t o s = .ok (x, u)) :
    Does (.matrixOpComplete t) s (fun s' => (s'.tile t).mx = r ∧
      (∀ a, (∀ m < x.rows.length, a < o.desc.rowAddr t m ∨ o.desc.rowAddr t m + 4 * (x.rows.getD m []).length ≤ a) →
        readByte s'.mem a = readByte s.mem a) ∧
      ((∀ m < x.rows.length, 4 * (x.rows.getD m []).length ≤ o.desc.outPitch) → ∀ m < x.rows.length, ∀ n < (x.rows.getD m []).length,
        readNat s'.mem (o.desc.rowAddr t m + 4 * n) 4 = ((x.rows.getD m []).getD n 0).toNat)) := by
  obtain ⟨-, hrows, h64⟩ := mxCompute_ok hx
  obtain ⟨v, hb, hvmem, hvrun, hvmx, -⟩ := mxBegin_forms hmx he hx
  obtain ⟨hcount, hlines⟩ := begun_lines hd hx
  obtain ⟨s', hs', hmx', hmem'⟩ := matrixOpComplete_emits ht hmx hb hd (hvrun.trans hrun) hvmx
  refine ⟨s', hs', hmx', fun a ha => ?_, fun hp m hm n hn => ?_⟩
  · rw [hmem', ← hvmem]
    refine mxEmit_outside hlines (fun i hi => ?_) _
    have hm : i / 2 < x.rows.length := by omega
    have hrow := ha _ hm
    rw [length_getD h64 hm] at hrow
    rw [begun_lineAddr hd hx hi]
    omega
  · have hpitch := hp m hm
    rw [length_getD h64 hm] at hn hpitch
    have hi : 2 * m + n / 32 < (o.begun x).rest.length := by omega
    have haddr : devAddr t ((o.begun x).lineOff (2 * m + n / 32)) + 4 * (n % 32) = o.desc.rowAddr t m + 4 * n := by
      rw [begun_lineAddr hd hx hi, show (2 * m + n / 32) / 2 = m by omega]
      omega
    rw [hmem', ← haddr, mxEmit_word hlines (Nat.le_of_eq hcount) hpitch hi (Nat.mod_lt n (by decide)), begun_rest hd, rowLines_word h64 hm hn]

/-- An operation with DEST = 0 in emission writes the lines that are left. -/
theorem matrixOpComplete_lines (ht : t < s.tileCount) (hrun : (s.tile t).run = .running) (hmx : (s.tile t).mx = o :: r)
    (he : o.emitting = true) (hd : o.desc.dest = false) (hl : ∀ l ∈ o.rest, l.length = 32) (hm : o.rest.length ≤ 2 * o.desc.m)
    (hp : 256 ≤ o.desc.outPitch) :
    Does (.matrixOpComplete t) s (fun s' => (s'.tile t).mx = r ∧
      (∀ i < o.rest.length, ∀ n < 32, readNat s'.mem (devAddr t (o.lineOff i) + 4 * n) 4 = ((o.rest.getD i []).getD n 0).toNat) ∧
      ∀ a, (∀ i < o.rest.length, a < devAddr t (o.lineOff i) ∨ devAddr t (o.lineOff i) + 128 ≤ a) →
        readByte s'.mem a = readByte s.mem a) := by
  obtain ⟨s', hs', hmx', hmem'⟩ := matrixOpComplete_emits ht hmx (mxBegin_emitting he) hd hrun hmx
  refine ⟨s', hs', hmx', ?_⟩
  rw [hmem']
  exact ⟨fun _ hi _ hn => mxEmit_word hl hm hp hi hn, fun _ ha => mxEmit_outside hl ha _⟩

/-- A fault of the outputs faults the tile, whichever of the two commands comes. -/
theorem matrixFault_faults {f : TileFault} (ht : t < s.tileCount) (hrun : (s.tile t).run = .running)
    (hmx : (s.tile t).mx = o :: r) (he : o.emitting = false) (hx : mxCompute t o s = .error (f, u)) :
    Does (.matrixOpComplete t) s (Faulted t 1 f.code o.pc f.addr s) ∧
      (o.desc.dest = true → Does (.ftqPush t) s (Faulted t 1 f.code o.pc f.addr s)) := by
  have hreads := mxCompute_error hx
  have hb := mxBegin_error he hx
  have hfault : Faulted t 1 f.code o.pc f.addr s (faultTile t 1 f.code o.pc f.addr u) :=
    hreads.faulted (faultTile_faulted (by simp [Tile.alive, hreads.run, hrun]))
  exact ⟨⟨_, exec_matrixOpComplete_faults ht hmx hb, hfault⟩, fun hd => ⟨_, exec_ftqPush_faults ht hmx hd hb, hfault⟩⟩

/-- Settles O16: each command by whether the operation is in emission, and by what its outputs come to where it is not. -/
theorem matrixCompletion : Obligations.MatrixCompletion := by
  intro s t o r ht hrun hmx T row
  refine ⟨fun he => ⟨fun x s1 hd hx => ?_, fun x s1 e rest hd hx hc hroom hq => ?_, fun f s1 hx => ?_⟩,
    fun he hd hl hm hp => ?_, fun hd he => ⟨fun hr => ?_, fun e rest hr hroom hq => ?_⟩⟩
  · exact matrixOpComplete_rows ht hrun hmx he hd hx
  · obtain ⟨v, hb, hvmem, hvrun, hvmx, hvftq, hvvec⟩ := mxBegin_forms hmx he hx
    have hr : (o.begun x).rest = e :: rest := by simpa [MxOp.begun, hd] using hc
    obtain ⟨s', hs', hftq', hmx', honly⟩ := ftqPush_pushes ht hmx hd hb hr (hvrun.trans hrun) hvmx (hvftq ▸ hroom) (hvvec ▸ hq)
    exact ⟨s', hs', hvftq ▸ hftq', hmx', (congrArg State.mem honly.rest).trans hvmem⟩
  · exact matrixFault_faults ht hrun hmx he hx
  · exact matrixOpComplete_lines ht hrun hmx he hd hl hm hp
  · obtain ⟨hmem, htile⟩ := mxPop_running o.beats o.idle hrun
    exact ⟨_, exec_matrixOpComplete_pushed ht hmx (mxBegin_emitting he) hd hr, by rw [htile, hmx]; rfl, by rw [htile], hmem⟩
  · exact ftqPush_pushes ht hmx hd (mxBegin_emitting he) hr hrun hmx hroom hq

end Sys2Proof.Machine
end

section
/-! PROOFS. Reductions, selections and record updates at completion (spec/07 R197 to R211): the statement fails, because it says
nothing of SC. -/

namespace Sys2Proof.Machine

theorem exec_vectorOpComplete (t : Nat) (s : State) : exec (.vectorOpComplete t) s = execVectorOpComplete t s := rfl

/-- While a relay value of the oldest operation's chain lacks its writer or its reader, VECTOR_OP_COMPLETE changes nothing
(R199, R200). -/
theorem vectorOpComplete_waits {t : Nat} {s : State} {o : VecOp} {r : List VecEntry} (ht : t < s.tileCount)
    (hq : (s.tile t).vec.queue = .op o :: r) (hd : o.done = false)
    (hc : chainClosed (opsOf (chainPrefix o.chain (.op o :: r))) = false) : exec (.vectorOpComplete t) s = .next s := by
  rw [exec_vectorOpComplete, execVectorOpComplete, onTile_in _ ht]
  simp [hq, hd, hc]

/-- A VSUM64 of one binary32 element whose SC names relay slot 0, which no operation has written. No VOP issues so: R100 asks for
an SC of 0 in a VSUM64. -/
def relaySumOp : VecOp where
  num := 1
  pc := 0
  vop := .sum64
  dst := .slot 0 ⟨0, 0, 0, 0, 0, 0, 4, false, 0x4000, true⟩ 0
  sa := .slot 1 ⟨0, 0, 0, 0, 0, 0, 4, false, 0x5000, true⟩ 0
  sb := .none
  sc := .relay 0
  pred := .none
  z := false
  vlen := 1
  step := 0
  seed := 0
  chain := 0
  scales := []
  done := false

/-- The module after reset, but that tile 0 runs and has that operation in its vector queue. -/
def relaySumState : State :=
  { State.reset with tiles := [(0, { Tile.reset with
      run := .running, vec := { Tile.reset.vec with queue := [.op relaySumOp] } })] }

theorem relaySumState_ready : VecReady 0 [relaySumOp] relaySumState ∧ relaySumOp.Rolled 0 [] relaySumState := by decide

/-- Refutes O20: its clause on reductions asks of SA and SB that they be no relay slot, and nothing of SC. A VSUM64 whose SC is a
relay slot that no operation has written meets its hypotheses, and waits for that relay value: the command leaves it in the
queue. -/
theorem not_vectorReductionsAndRecords : ¬ Obligations.VectorReductionsAndRecords := by
  intro h
  obtain ⟨hreduce, -⟩ := h
  obtain ⟨hready, hrolled⟩ := relaySumState_ready
  obtain ⟨s', hexec, hempty, -⟩ := hreduce relaySumState 0 relaySumOp hready hrolled rfl (by decide) nofun nofun 0 _ 0 rfl
    (.inl rfl)
  have hstays : exec (.vectorOpComplete 0) relaySumState = .next relaySumState :=
    vectorOpComplete_waits (by decide) rfl rfl (by decide)
  obtain rfl : relaySumState = s' := Host.Outcome.next.inj (hstays.symm.trans hexec)
  exact absurd hempty (by decide)

end Sys2Proof.Machine
end

section
/-! SUPPORT. NaN, zeros and infinities in the vector engine's arithmetic (spec/07 R205, R206). -/

namespace Sys2Proof.Machine

namespace FVal

@[simp] theorem nan_add (x : FVal) : FVal.add .nan x = .nan := rfl
@[simp] theorem add_nan (x : FVal) : FVal.add x .nan = .nan := by cases x <;> rfl
@[simp] theorem nan_mul (x : FVal) : FVal.mul .nan x = .nan := rfl
@[simp] theorem mul_nan (x : FVal) : FVal.mul x .nan = .nan := by cases x <;> rfl
@[simp] theorem nan_div (x : FVal) : FVal.div .nan x = .nan := rfl
@[simp] theorem div_nan (x : FVal) : FVal.div x .nan = .nan := by cases x <;> rfl
@[simp] theorem neg_nan : FVal.neg .nan = .nan := rfl
@[simp] theorem nan_fmin (x : FVal) : FVal.fmin .nan x = .nan := rfl
@[simp] theorem fmin_nan (x : FVal) : FVal.fmin x .nan = .nan := by cases x <;> rfl
@[simp] theorem nan_fmax (x : FVal) : FVal.fmax .nan x = .nan := rfl
@[simp] theorem fmax_nan (x : FVal) : FVal.fmax x .nan = .nan := by cases x <;> rfl
@[simp] theorem nan_lt (z : Bool) (x : FVal) : FVal.lt z .nan x = false := rfl
@[simp] theorem lt_nan (z : Bool) (x : FVal) : FVal.lt z x .nan = false := by cases x <;> rfl
@[simp] theorem nan_eq (x : FVal) : FVal.eq .nan x = false := rfl
@[simp] theorem eq_nan (x : FVal) : FVal.eq x .nan = false := by cases x <;> rfl

/-! Of two zeros of any exponents, −0 is the smaller one (R205). -/

@[simp] theorem fmin_zeros (n k : Bool) (e f : Int) :
    FVal.fmin (.fin n 0 e) (.fin k 0 f) = if k && !n then .fin k 0 f else .fin n 0 e := rfl
@[simp] theorem fmax_zeros (n k : Bool) (e f : Int) :
    FVal.fmax (.fin n 0 e) (.fin k 0 f) = if n && !k then .fin k 0 f else .fin n 0 e := rfl

end FVal

@[simp] theorem widen_nan : widen .nan = .nan := by decide
@[simp] theorem special_nan (v : Nat) : special v .nan = .nan := by simp [special, specialLimit]
@[simp] theorem special_inf (v : Nat) (n : Bool) : special v (.inf n) = specialLimit v (.inf n) := rfl
@[simp] theorem special_fin_zero (v : Nat) (n : Bool) (e : Int) : special v (.fin n 0 e) = specialLimit v (.fin n 0 e) := rfl

/-- The logarithm of a negative number is NaN (R206). -/
theorem special_log_negative {m : Nat} (h : m ≠ 0) (e : Int) : special 0x12 (.fin true m e) = .nan := by
  simp [special, specialExact, h]

/-- The code of a result that is written as binary32. -/
def bits32 (v : FVal) : Nat := (fmtF32.convert .nearest v).1

theorem apply_nan_unary (x y : FVal) :
    ∀ v ∈ ([.mov, .abs, .neg, .sqrt, .relu, .exp, .exp2, .log, .rcp, .rsqrt, .tanh, .sigm, .gelu, .silu] : List Vop),
      v.apply .nan x y = .nan := by
  simp [Vop.apply, Vop.specialCode, FVal.abs, FVal.sqrt]

theorem apply_nan_binary (x y : FVal) :
    ∀ v ∈ ([.add, .sub, .mul, .div, .min, .max] : List Vop), v.apply .nan x y = .nan ∧ v.apply x .nan y = .nan := by
  simp [Vop.apply]

theorem apply_nan_ternary (x y : FVal) :
    ∀ v ∈ ([.fma, .clamp] : List Vop), v.apply .nan x y = .nan ∧ v.apply x .nan y = .nan ∧ v.apply x y .nan = .nan := by
  simp [Vop.apply]

theorem apply_nan_compare (x y : FVal) :
    ∀ v ∈ ([.cmpgt, .cmpge, .cmpeq] : List Vop), v.apply .nan x y = fzero ∧ v.apply x .nan y = fzero := by
  simp [Vop.apply, fbool]

/-- VMIN, VMAX, VCLAMP and VRELU of zeros (R205). -/
theorem apply_zeros (e f : Int) (c : FVal) :
    let pos := FVal.fin false 0 e
    let neg := FVal.fin true 0 f
    Vop.apply .min pos neg c = neg ∧ Vop.apply .min neg pos c = neg ∧ Vop.apply .max pos neg c = pos ∧ Vop.apply .max neg pos c = pos ∧
      Vop.apply .clamp neg pos pos = pos ∧ Vop.apply .clamp pos neg neg = neg ∧ bits32 (Vop.apply .relu neg c c) = 0 := by
  have hrelu : bits32 (.fin false 0 0) = 0 := by decide
  simp [Vop.apply, fzero, hrelu]

/-- What each special function's result at a limit of R206 reads as in binary32. -/
theorem apply_limits (b c : FVal) :
    let at_ (v : Vop) (x : FVal) : Nat := bits32 (v.apply x b c)
    at_ .exp (.inf true) = 0 ∧ at_ .exp2 (.inf true) = 0 ∧ at_ .log fzero = 0xFF800000 ∧ at_ .log (.inf true) = 0x7FC00000 ∧
      at_ .rcp fzero = 0x7F800000 ∧ at_ .rcp (.fin true 0 0) = 0xFF800000 ∧ at_ .tanh (.inf false) = 0x3F800000 ∧
      at_ .tanh (.inf true) = 0xBF800000 ∧ at_ .sigm (.inf true) = 0 ∧ at_ .sigm (.inf false) = 0x3F800000 ∧
      at_ .gelu (.inf false) = 0x7F800000 ∧ at_ .silu (.inf false) = 0x7F800000 ∧ at_ .gelu (.inf true) = 0x80000000 ∧
      at_ .silu (.inf true) = 0x80000000 ∧ ∀ m e, m ≠ 0 → at_ .log (.fin true m e) = 0x7FC00000 := by
  simp only [Vop.apply, Vop.specialCode, special_inf, fzero, special_fin_zero]
  refine ⟨rfl, rfl, rfl, rfl, rfl, rfl, rfl, rfl, rfl, rfl, rfl, rfl, rfl, rfl, fun m e hm => ?_⟩
  rw [special_log_negative hm]
  rfl

end Sys2Proof.Machine
end

section
/-! SUPPORT. The exact sum of a group (spec/05 R149, R151). -/

namespace Sys2Proof.Machine

theorem foldl_add_nan (l : List FVal) : l.foldl FVal.add .nan = .nan := by
  induction l with
  | nil => rfl
  | cons x l ih => exact ih

theorem foldl_add_of_nan_mem {l : List FVal} (h : .nan ∈ l) (a : FVal) : l.foldl FVal.add a = .nan := by
  obtain ⟨l₁, l₂, rfl⟩ := List.append_of_mem h
  rw [List.foldl_append, List.foldl_cons, FVal.add_nan, foldl_add_nan]

theorem FVal.add_inf (a : FVal) (n : Bool) : a.add (.inf n) = .nan ∨ a.add (.inf n) = .inf n := by
  cases a with
  | nan => exact .inl rfl
  | fin => exact .inr rfl
  | inf k =>
    by_cases h : k = n
    · exact .inr (by simp [FVal.add, h])
    · exact .inl (by simp [FVal.add, h])

theorem FVal.inf_add (n : Bool) (x : FVal) : FVal.add (.inf n) x = .nan ∨ FVal.add (.inf n) x = .inf n := by
  cases x with
  | nan => exact .inl rfl
  | fin => exact .inr rfl
  | inf k =>
    by_cases h : n = k
    · exact .inr (by simp [FVal.add, h])
    · exact .inl (by simp [FVal.add, h])

/-- An infinity and one of the other sign later sum to NaN. -/
theorem foldl_add_inf {l : List FVal} {n : Bool} (h : .inf (!n) ∈ l) : l.foldl FVal.add (.inf n) = .nan := by
  induction l with
  | nil => simp at h
  | cons x l ih =>
    rw [List.foldl_cons]
    rcases List.mem_cons.mp h with rfl | hl
    · rw [show FVal.add (.inf n) (.inf (!n)) = .nan by simp [FVal.add], foldl_add_nan]
    · rcases FVal.inf_add n x with hx | hx <;> rw [hx]
      · exact foldl_add_nan l
      · exact ih hl

theorem foldl_add_of_inf_mem {l : List FVal} (h : ∀ n, .inf n ∈ l) (a : FVal) : l.foldl FVal.add a = .nan := by
  induction l generalizing a with
  | nil => simpa using h true
  | cons x l ih =>
    by_cases hx : ∃ n, x = .inf n
    · obtain ⟨n, rfl⟩ := hx
      have hl : .inf (!n) ∈ l := by simpa using h (!n)
      rw [List.foldl_cons]
      rcases a.add_inf n with ha | ha <;> rw [ha]
      · exact foldl_add_nan l
      · exact foldl_add_inf hl
    · exact ih (fun n => (List.mem_cons.mp (h n)).resolve_left fun e => hx ⟨n, e.symm⟩) _

/-- A group with a NaN product, or with infinities of both signs, sums to NaN (R151). -/
theorem exactSum_nan {l : List FVal} (h : .nan ∈ l ∨ (.inf true ∈ l ∧ .inf false ∈ l)) : exactSum l = .nan := by
  have hsum : l.foldl FVal.add fzero = .nan := by
    rcases h with h | ⟨ht, hf⟩
    · exact foldl_add_of_nan_mem h _
    · exact foldl_add_of_inf_mem (Bool.forall_bool.mpr ⟨hf, ht⟩) _
  rw [exactSum, hsum]

/-- The sum of two finite values of which the second is no zero: their units at the smaller exponent add. -/
theorem FVal.add_fin (n₁ n₂ : Bool) (m₁ : Nat) {m₂ : Nat} (h : m₂ ≠ 0) (e₁ e₂ : Int) :
    FVal.add (.fin n₁ m₁ e₁) (.fin n₂ m₂ e₂) =
      let u := min e₁ e₂
      let k := units n₁ m₁ e₁ u + units n₂ m₂ e₂ u
      .fin (decide (k < 0)) k.natAbs u := by
  have hz : (m₁ == 0 && m₂ == 0) = false := by rw [beq_false_of_ne h, Bool.and_false]
  exact if_neg (ne_true_of_eq_false hz)

theorem FVal.units_zero (n : Bool) (e u : Int) : units n 0 e u = 0 := by
  rw [units, Nat.zero_shiftLeft]
  cases n <;> rfl

/-- A magnitude brought to exponent `u` counts as many units there as it did before. -/
theorem FVal.units_shifted (n : Bool) (m : Nat) (e u : Int) : units n (m <<< (e - u).toNat) u u = units n m e u := by
  rw [units, units, Int.sub_self, Int.toNat_zero, Nat.shiftLeft_zero]

theorem FVal.units_opposite (m : Nat) (e u : Int) : units false m e u + units true m e u = 0 := Int.add_right_neg _

theorem FVal.zero_add_positive {m : Nat} (hm : m ≠ 0) (e : Int) :
    fzero.add (.fin false m e) = .fin false (m <<< (e - min 0 e).toNat) (min 0 e) := by
  have hk : units false 0 0 (min 0 e) + units false m e (min 0 e) = (m <<< (e - min 0 e).toNat : Nat) := by
    rw [units_zero, Int.zero_add]
    rfl
  have hpos : decide (((m <<< (e - min 0 e).toNat : Nat) : Int) < 0) = false :=
    decide_eq_false (Int.not_lt.mpr (Int.natCast_nonneg _))
  rw [fzero, add_fin false false 0 hm]
  dsimp only
  rw [hk, hpos, Int.natAbs_natCast]

/-- Two values of one magnitude and opposite signs sum to a zero. -/
theorem FVal.add_opposite (m : Nat) (e : Int) :
    ∃ n u, (fzero.add (.fin false m e)).add (.fin true m e) = .fin n 0 u := by
  by_cases hm : m = 0
  · subst hm
    exact ⟨_, _, rfl⟩
  · have hmin : min (min 0 e) e = min 0 e := Int.min_eq_left (Int.min_le_right 0 e)
    have hk : units false (m <<< (e - min 0 e).toNat) (min 0 e) (min 0 e) + units true m e (min 0 e) = 0 := by
      rw [units_shifted, units_opposite]
    refine ⟨decide ((0 : Int) < 0), min 0 e, ?_⟩
    rw [zero_add_positive hm, add_fin false true _ hm]
    dsimp only
    rw [hmin, hk, Int.natAbs_zero]

theorem rne32_exactSum_opposite (m : Nat) (e : Int) : rne32 (exactSum [.fin false m e, .fin true m e]) = 0 := by
  obtain ⟨n, u, h⟩ := FVal.add_opposite m e
  rw [exactSum, List.foldl_cons, List.foldl_cons, List.foldl_nil, h]
  rfl

end Sys2Proof.Machine
end

section
/-! SUPPORT. The outputs of a matrix operation over dense and all-zero records (spec/05 R142, R149, R150, R165). -/

namespace Sys2Proof.Machine

theorem bits_eq (n lo len : Nat) : bits n lo len = n / 2 ^ lo % 2 ^ len := by rw [bits, Nat.shiftRight_eq_div_pow]

/-- Nibble `i` of a byte, the low one for an even `i` (log 26). -/
theorem bits_nibble (b i : Nat) : bits b (i % 2 * 4) 4 = b / 16 ^ (i % 2) % 16 := by
  have hbits : bits b (i % 2 * 4) 4 = b / 2 ^ (i % 2 * 4) % 16 := bits_eq ..
  have hpow : 2 ^ (i % 2 * 4) = 16 ^ (i % 2) := (congrArg (2 ^ ·) (Nat.mul_comm ..)).trans (Nat.pow_mul ..)
  rw [hbits, hpow]

/-- Element `i` of the matrix elements of format `fmt` from offset `off` (Table 5-1). -/
def mxElem (t fmt off : Nat) (s : State) (i : Nat) : FVal :=
  if fmt = 0 then fmtE2M1.decode (s.herdNat t (off + i / 2) 1 / 16 ^ (i % 2) % 16)
  else if fmt = 3 then fmtBf16.decode (s.herdNat t (off + 2 * i) 2)
  else (if fmt = 1 then fmtE4M3 else fmtE5M2).decode (s.herdNat t (off + i) 1)

variable {t : Nat} {d : MxDesc} {o : MxOp} {s u : State} {x : MxResult}

theorem mxInput_eq (h : d.fmtA ≤ 3) (m kt k : Nat) :
    mxInput t d s m kt k = mxElem t d.fmtA (d.aBase + kt * d.aKtPitch + m * d.aRowPitch) s k := by
  have hf : d.fmtA = 0 ∨ d.fmtA = 1 ∨ d.fmtA = 2 ∨ d.fmtA = 3 := by omega
  rcases hf with hf | hf | hf | hf <;> simp [mxInput, mxElem, hf, bits_nibble, mxVal, streamFmt]

theorem mxWeight_eq (h : d.fmtW ≤ 3) (body k n : Nat) : mxWeight t d s body k n = mxElem t d.fmtW body s (64 * k + n) := by
  have hhalf : (64 * k + n) / 2 = 32 * k + n / 2 := by omega
  have hside : (64 * k + n) % 2 = n % 2 := by omega
  have hf : d.fmtW = 0 ∨ d.fmtW = 1 ∨ d.fmtW = 2 ∨ d.fmtW = 3 := by omega
  rcases hf with hf | hf | hf | hf <;>
    simp [mxWeight, mxElem, hf, bits_nibble, mxVal, streamFmt, hhalf, hside, Nat.mul_add, Nat.add_assoc, ← Nat.mul_assoc]

/-- The record of k-tile `kt`, and its header byte (R147). -/
def MxDesc.recordOff (d : MxDesc) (kt : Nat) : Nat := d.wBase + kt * d.wPitch
def MxDesc.header (t : Nat) (d : MxDesc) (s : State) (kt : Nat) : Nat := s.herdNat t (d.recordOff kt) 1

/-- The exact sum of group `g` of k-tile `kt` for output (m, n), scaled in the 4-bit class (R149). -/
def MxDesc.groupSum (t : Nat) (d : MxDesc) (s : State) (m n kt g : Nat) : FVal :=
  let sum := exactSum ((List.range 16).map (fun j =>
    (mxElem t d.fmtA (d.aBase + kt * d.aKtPitch + m * d.aRowPitch) s (16 * g + j)).mul
      (mxElem t d.fmtW (d.recordOff kt + 128) s (64 * (16 * g + j) + n))))
  if d.fmtA = 0 then
    (sum.mul (e8m0 (s.herdNat t (d.asBase + kt * d.asKtPitch + m) 1))).mul (e8m0 (s.herdNat t (d.recordOff kt + 64 + n) 1))
  else sum

/-- What k-tile `kt` adds to the accumulator of (m, n): nothing where its record is all zero (R150, R165). -/
def MxDesc.tileAdd (t : Nat) (d : MxDesc) (s : State) (m n acc kt : Nat) : Nat :=
  if d.header t s kt = 2 then acc
  else (List.range (if d.fmtA = 0 then 2 else 1)).foldl (fun acc g => add32 acc (rne32 (d.groupSum t s m n kt g))) acc

/-- The path of k-tile `kt` where its record is dense or all zero (Table 5-8). -/
def MxDesc.flatPath (t : Nat) (d : MxDesc) (s : State) (kt : Nat) : MxPath := if d.header t s kt = 2 then .zero else .dense

theorem mxAdd_flatPath (ha : d.fmtA ≤ 3) (hw : d.fmtW ≤ 3) (m n acc kt : Nat) :
    mxAdd t d s m n acc kt (d.flatPath t s kt) = d.tileAdd t s m n acc kt := by
  unfold MxDesc.flatPath MxDesc.tileAdd
  split
  · rfl
  · by_cases hf : d.fmtA = 0 <;>
      simp [mxAdd, mxGroups, mxGroup, MxDesc.groupSum, MxDesc.recordOff, mxInput_eq ha, mxWeight_eq hw, hf]

theorem header_congr (h : u.mem = s.mem) (kt : Nat) : d.header t u kt = d.header t s kt := by
  rw [MxDesc.header, MxDesc.header, State.herdNat, State.herdNat, h]

theorem flatPath_congr (h : u.mem = s.mem) (kt : Nat) : d.flatPath t u kt = d.flatPath t s kt := by
  rw [MxDesc.flatPath, MxDesc.flatPath, header_congr h]

/-- The record of a k-tile whose header says dense or all zero is one record on that path, and the reads go on at the next
k-tile with no byte changed. -/
theorem mxPaths_step {k : MxSkip} {fuel kt : Nat} {l : List (Nat × MxPath)} (hkt : kt < d.kt)
    (hh : d.header t s kt = 0 ∨ d.header t s kt = 2) (h : mxPaths t d k (fuel + 1) kt s = .ok (l, u)) :
    ∃ v rest, v.mem = s.mem ∧ mxPaths t d k fuel (kt + 1) v = .ok (rest, u) ∧ l = (kt, d.flatPath t s kt) :: rest := by
  rw [mxPaths, if_neg (Nat.not_le.mpr hkt)] at h
  dsimp only at h
  split at h
  · simp at h
  · next v hv =>
    have hmem : v.mem = s.mem := ReadsOnly.mem ((readCheck_reads ..).of_eq hv)
    have hheader : v.herdNat t (d.wBase + kt * d.wPitch) 1 = d.header t s kt := header_congr hmem kt
    rw [hheader] at h
    split at h
    · simp at h
    · next p hpath =>
      have hp : p = d.flatPath t s kt := by
        rcases hh with hh | hh <;> simp [hh, MxDesc.flatPath] at hpath ⊢ <;> exact hpath.symm
      have hne : p ≠ .pair := by rw [hp, MxDesc.flatPath]; split <;> simp
      split at h
      · simp at h
      · next w hw =>
        have hmem' : w.mem = v.mem := ReadsOnly.mem ((mxReadRecord_reads ..).of_eq hw)
        rw [if_neg hne] at h
        split at h
        · simp at h
        · next rest u' hrest =>
          obtain ⟨rfl, rfl⟩ : (kt, p) :: rest = l ∧ u' = u := by simpa using h
          exact ⟨w, rest, hmem'.trans hmem, hrest, by rw [hp]⟩

/-- With every header dense or all zero, the records from k-tile `kt` on are those of the k-tiles left, one each. -/
theorem mxPaths_flat {k : MxSkip} {fuel kt : Nat} {l : List (Nat × MxPath)}
    (hh : ∀ i < d.kt, d.header t s i = 0 ∨ d.header t s i = 2) (hfuel : d.kt ≤ kt + fuel)
    (h : mxPaths t d k fuel kt s = .ok (l, u)) : l = (List.range' kt (d.kt - kt)).map (fun i => (i, d.flatPath t s i)) := by
  induction fuel generalizing kt s l with
  | zero =>
    obtain ⟨rfl, -⟩ : [] = l ∧ s = u := by simpa [mxPaths] using h
    rw [Nat.sub_eq_zero_of_le (by omega), List.range'_zero, List.map_nil]
  | succ fuel ih =>
    by_cases hkt : kt < d.kt
    · obtain ⟨v, rest, hmem, hrest, rfl⟩ := mxPaths_step hkt (hh kt hkt) h
      have hv (i : Nat) : d.header t v i = d.header t s i := header_congr hmem i
      rw [ih (by simpa only [hv] using hh) (by omega) hrest, show d.kt - kt = d.kt - (kt + 1) + 1 by omega, List.range'_succ,
        List.map_cons]
      simp only [flatPath_congr hmem]
    · obtain ⟨rfl, -⟩ : [] = l ∧ s = u := by simpa [mxPaths, Nat.not_lt.mp hkt] using h
      rw [Nat.sub_eq_zero_of_le (Nat.not_lt.mp hkt), List.range'_zero, List.map_nil]

/-- Without skip, the outputs of an operation that forms are R150's over the records that it read. -/
theorem mxCompute_rows (hs : o.desc.skip = false) (h : mxCompute t o s = .ok (x, u)) :
    ∃ v w k paths, v.mem = s.mem ∧ w.mem = s.mem ∧ mxPaths t o.desc k (o.desc.kt + 1) 0 v = .ok (paths, w) ∧
      x.rows = (List.range o.desc.m).map fun m => (List.range 64).map fun n => word (mxOut t o.desc w paths m n) := by
  unfold mxCompute at h
  dsimp only at h
  split at h
  · simp at h
  · next v₁ h₁ =>
    have hmem₁ : v₁.mem = s.mem := ReadsOnly.mem ((readChecks_reads ..).of_eq h₁)
    split at h
    · simp at h
    · next v hv =>
      have hmem : v.mem = v₁.mem := ReadsOnly.mem ((readChecks_reads ..).of_eq hv)
      split at h
      · simp at h
      · next paths w hw =>
        have hmem' : w.mem = v.mem := ReadsOnly.mem ((mxPaths_reads ..).of_eq hw)
        have hoff : (mxSkip t o v₁).on = false := by simp [mxSkip, hs]
        rw [Except.ok.injEq, Prod.mk.injEq] at h
        obtain ⟨rfl, -⟩ := h
        exact ⟨v, w, _, paths, hmem.trans hmem₁, hmem'.trans (hmem.trans hmem₁), hw, by simp [hoff]⟩

/-- The accumulator of (m, n) after the last k-tile (R150). -/
def MxDesc.accumulated (t : Nat) (d : MxDesc) (s : State) (m n : Nat) : Nat :=
  (List.range d.kt).foldl (d.tileAdd t s m n) (if d.init then s.herdNat t (d.cBase + m * d.outPitch + 4 * n) 4 else 0)

theorem tileAdd_congr (h : u.mem = s.mem) (m n : Nat) : d.tileAdd t u m n = d.tileAdd t s m n := by
  funext acc kt
  unfold MxDesc.tileAdd MxDesc.groupSum MxDesc.header mxElem State.herdNat
  rw [h]

theorem accumulated_congr (h : u.mem = s.mem) (m n : Nat) : d.accumulated t u m n = d.accumulated t s m n := by
  rw [MxDesc.accumulated, MxDesc.accumulated, tileAdd_congr h, State.herdNat, State.herdNat, h]

theorem mxAcc_flat (ha : d.fmtA ≤ 3) (hw : d.fmtW ≤ 3) (m n : Nat) :
    mxAcc t d s ((List.range d.kt).map fun i => (i, d.flatPath t s i)) m n = d.accumulated t s m n := by
  simp only [mxAcc, List.foldl_map, mxAdd_flatPath ha hw]
  rfl

/-- Output (m, n) of an operation without skip over dense and all-zero records (R150). -/
theorem mxCompute_output (hs : o.desc.skip = false) (ha : o.desc.fmtA ≤ 3) (hw : o.desc.fmtW ≤ 3)
    (hh : ∀ kt < o.desc.kt, o.desc.header t s kt = 0 ∨ o.desc.header t s kt = 2) (h : mxCompute t o s = .ok (x, u))
    {m n : Nat} (hm : m < o.desc.m) (hn : n < 64) :
    (x.rows.getD m []).getD n 0 = word (mul32 (o.desc.accumulated t s m n) o.desc.descale) := by
  obtain ⟨v, w, k, paths, hv, hmem, hpaths, hrows⟩ := mxCompute_rows hs h
  have hflat := mxPaths_flat (by simpa only [header_congr hv] using hh) (by omega) hpaths
  have hvw : v.mem = w.mem := hv.trans hmem.symm
  rw [Nat.sub_zero, ← List.range_eq_range'] at hflat
  simp only [flatPath_congr hvw] at hflat
  have hout : mxOut t o.desc w paths m n = mul32 (o.desc.accumulated t s m n) o.desc.descale := by
    rw [mxOut, hflat, mxAcc_flat ha hw, accumulated_congr hmem]
  simp [hrows, hm, hn, hout]

end Sys2Proof.Machine
end

section
/-! SUPPORT. The commit's update of one element, rule by rule (spec/14 R379, R381). -/

namespace Sys2Proof.Machine

theorem req_lr (rq : Nat) : Req.lr rq = rq / 2 ^ 32 % 2 ^ 32 := bits_eq ..
theorem req_c1 (rq : Nat) : Req.c1 rq = rq / 2 ^ 64 % 2 ^ 32 := bits_eq ..
theorem req_c2 (rq : Nat) : Req.c2 rq = rq / 2 ^ 96 % 2 ^ 32 := bits_eq ..

/-- The new master of a step from the master of code `w`: LR of the request block times the direction `dir` with the weight
decay. -/
def ComEntry.stepBy (c : ComEntry) (rq w dir : Nat) : Nat :=
  fmtW48.ieee ((fmtW48.decode w).add
    (f32 (mul32 (rq / 2 ^ 32 % 2 ^ 32) (add32 dir (mul32 c.wd (rne32 (fmtW48.decode w)))))).neg)

section
variable {s : State} {k : Nat} (i cnt : Nat)

theorem elemUpdate_rule0 (h : (s.com k).rule = 0) :
    let c := s.com k
    let m := add32 (mul32 c.b1 (elemNat s k (c.m1 cnt) (4 * i) 4)) (elemNat s k (s.red k).bufBase (4 * i) 4)
    s.elemUpdate k i cnt = ⟨m, 0, c.stepBy (s.request k) (elemNat s k (c.master cnt) (6 * i) 6) m⟩ := by
  simp [State.elemUpdate, ComEntry.update, ComEntry.stepBy, h, newMaster, req_lr, Nat.mul_comm i]

theorem elemUpdate_rule1 (h : (s.com k).rule = 1) :
    let c := s.com k
    let rq := s.request k
    let g := elemNat s k (s.red k).bufBase (4 * i) 4
    let m := add32 (mul32 c.b1 (elemNat s k (c.m1 cnt) (4 * i) 4)) (mul32 c.a1 g)
    let v := add32 (mul32 c.b2 (elemNat s k (c.m2 cnt) (4 * i) 4)) (mul32 c.a2 (mul32 g g))
    s.elemUpdate k i cnt = ⟨m, v, c.stepBy rq (elemNat s k (c.master cnt) (6 * i) 6)
      (rne32 ((f32 (mul32 m (rq / 2 ^ 64 % 2 ^ 32))).div
        (f32 (add32 (rne32 (f32 (mul32 v (rq / 2 ^ 96 % 2 ^ 32))).sqrt) c.eps))))⟩ := by
  simp [State.elemUpdate, ComEntry.update, ComEntry.stepBy, h, newMaster, div32, sqrt32, req_lr, req_c1, req_c2, Nat.mul_comm i]

theorem elemUpdate_rule2 (h : (s.com k).rule = 2) :
    let c := s.com k
    let d := elemNat s k (c.m2 (cnt + 1)) (4 * i) 4
    s.elemUpdate k i cnt = ⟨elemNat s k (c.m1 cnt) (4 * i) 4, d,
      c.stepBy (s.request k) (elemNat s k (c.master cnt) (6 * i) 6) d⟩ := by
  simp [State.elemUpdate, ComEntry.update, ComEntry.stepBy, h, newMaster, req_lr, Nat.mul_comm i]

end

/-- The spec's example: the working copy of 1.0 stays where it is for sixteen updates of −2^-12, and moves at the seventeenth
(R381). -/
theorem updates_example :
    let step (w : Nat) : Nat := newMaster w 0xB9800000
    let work (w : Nat) : Nat := (ComEntry.workElem { workFmt := 3 } w).1
    let one := fmtW48.ieee (.fin false 1 0)
    work one = 0x3F80 ∧ work (Nat.repeat step 16 one) = 0x3F80 ∧ work (Nat.repeat step 17 one) = 0x3F81 := by decide +kernel

end Sys2Proof.Machine
end

section
/-! PROOFS. The arithmetic of the vector engine, the matrix engine and the commit (spec/05 section 5.5, spec/07 section 7.6,
spec/14 sections 14.4 and 14.5). -/

namespace Sys2Proof.Machine

/-- The group of the spec's example in E4M3: the products 448 × 448 and 448 × −448 cancel, and 2^-9 × 1.0 is left (R149). -/
theorem group_example : rne32 (exactSum [(fmtE4M3.decode 0x7E).mul (fmtE4M3.decode 0x7E),
    (fmtE4M3.decode 0x7E).mul (fmtE4M3.decode 0xFE), (fmtE4M3.decode 0x01).mul (fmtE4M3.decode 0x38)]) = 0x3B000000 := by
  decide +kernel

/-- Settles O21: the vector engine's special cases, the outputs of a matrix operation from what it reads, and the update rules of
a commit. -/
theorem arithmeticRules : Obligations.ArithmeticRules := by
  refine ⟨⟨rfl, fun v hv x y => apply_nan_unary x y v hv, fun v hv x y => apply_nan_binary x y v hv,
      fun v hv x y => apply_nan_ternary x y v hv, apply_zeros, fun v hv x y => apply_nan_compare x y v hv, fun x y => ?_,
      fun _ _ _ => rfl, rfl, apply_limits⟩,
    ?_, fun _ => exactSum_nan, rne32_exactSum_opposite, fun _ _ _ => ⟨rfl, rfl⟩, group_example, ?_, updates_example⟩
  · simp [Vop.apply, fbool]
  · intro s t o x u hx d byte record code a w group acc hs _ ha hw hh m hm n hn
    exact mxCompute_output hs ha hw hh hx hm hn
  · intro s k i cnt
    refine ⟨fun h => ?_, fun h => ?_, fun h => ?_⟩
    · simp only [elemUpdate_rule0 i cnt h, ComEntry.stepBy, elemNat, and_self]
    · simp only [elemUpdate_rule1 i cnt h, ComEntry.stepBy, elemNat, and_self]
    · simp only [elemUpdate_rule2 i cnt h, ComEntry.stepBy, elemNat]

end Sys2Proof.Machine
end

section
/-! SUPPORT. The checks on one extent of herd memory in their order (spec/04 section 4.2, R102), the words in error that it
touches (R72), and what Tahr finds of it (spec/17 R463 to R465). -/

namespace Sys2Proof.Machine

/-- The effective offset is RA + sign-extended IMM modulo 2^32 (R107). -/
theorem effOff_toNat {a : Word} {imm : BitVec 16} {off : Nat} (h : off = (a.toNat + imm.toInt) % 2 ^ 32) :
    (effOff a imm).toNat = off := by
  have hsx : (sx imm).toNat = (imm.toInt % 2 ^ 32).toNat := BitVec.toNat_ofInt ..
  rw [effOff, BitVec.toNat_add, hsx]
  omega

theorem overlaps_apart {a n b m : Nat} (h : a + n ≤ b ∨ b + m ≤ a) : overlaps a n b m = false := by
  rw [overlaps, decide_eq_false_iff_not]
  omega

/-- A tile that can issue can issue an instruction that reads fewer registers. -/
theorem canIssue_mono {t : Nat} {uses fewer : List Reg} {s : State} (h : CanIssue t uses s) (hsub : fewer ⊆ uses) :
    CanIssue t fewer s := by
  obtain ⟨ht, hready, hfetch⟩ := h
  simp only [Tile.ready, Bool.and_eq_true, List.all_eq_true] at hready
  refine ⟨ht, ?_, hfetch⟩
  simp only [Tile.ready, Bool.and_eq_true, List.all_eq_true]
  exact ⟨hready.1, fun r hr => hready.2 r (hsub hr)⟩

section
variable {t off n : Nat} {store : Bool} {T : Tile}

/-- The checks of one extent, each where those before it pass (R102 steps 2 to 5). -/
theorem checkExts_one (t : Nat) (T : Tile) (e : Ext) : checkExts t T [e] =
    if e.high then some ⟨Code.offsetHigh, 0⟩
    else if e.crooked then some ⟨Code.misaligned, devOf t e.off⟩
    else if e.outside T then some ⟨Code.regionBound, devOf t e.off⟩
    else if e.intoCode T then some ⟨Code.codeWrite, devOf t e.off⟩
    else none := by
  have hdev : devAddr t e.off = devOf t e.off := rfl
  by_cases hh : e.high = true
  · simp [checkExts, hh]
  by_cases hc : e.crooked = true
  · simp [checkExts, hh, hc, hdev]
  by_cases ho : e.outside T = true
  · simp [checkExts, hh, hc, ho, hdev]
  by_cases hi : e.intoCode T = true
  · simp [checkExts, hh, hc, ho, hi, hdev]
  · simp [checkExts, hh, hc, ho, hi]

theorem checkExts_high (hh : 0x1000000 ≤ off) : checkExts t T [⟨off, n, n, store⟩] = some ⟨Code.offsetHigh, 0⟩ := by
  simp [checkExts_one, Ext.high, hh]

theorem checkExts_misaligned (hh : off < 0x1000000) (hc : off % n ≠ 0) :
    checkExts t T [⟨off, n, n, store⟩] = some ⟨Code.misaligned, devOf t off⟩ := by
  simp [checkExts_one, Ext.high, Ext.crooked, Nat.not_le.mpr hh, hc]

theorem checkExts_outside (hn : 0 < n) (hh : off < 0x1000000) (hc : off % n = 0)
    (ho : off < T.regionBase ∨ T.regionBase + T.regionSize < off + n) :
    checkExts t T [⟨off, n, n, store⟩] = some ⟨Code.regionBound, devOf t off⟩ := by
  have hout : Ext.outside T ⟨off, n, n, store⟩ = true := by
    simp only [Ext.outside, within, hn, decide_true, Bool.true_and, Bool.not_eq_true', decide_eq_false_iff_not]
    omega
  simp [checkExts_one, Ext.high, Ext.crooked, Nat.not_le.mpr hh, hc, hout]

/-- An aligned extent of the region, below the high bits: the checks up to REGION_BOUND pass. -/
structure InRegion (off n : Nat) (T : Tile) : Prop where
  low : off < 0x1000000
  aligned : off % n = 0
  base : T.regionBase ≤ off
  bound : off + n ≤ T.regionBase + T.regionSize

/-- In the region only the code range is left to check. -/
theorem checkExts_inRegion (h : InRegion off n T) : checkExts t T [⟨off, n, n, store⟩] =
    if store && overlaps off n T.codeBase T.codeSize then some ⟨Code.codeWrite, devOf t off⟩ else none := by
  simp [checkExts_one, Ext.high, Ext.crooked, Ext.outside, Ext.intoCode, within, Nat.not_le.mpr h.low, h.aligned, h.base, h.bound]

theorem checkExts_codeWrite (hn : 0 < n) (h : InRegion off n T) (hs : store = true) (hlo : off < T.codeBase + T.codeSize)
    (hhi : T.codeBase < off + n) (hc : 0 < T.codeSize) :
    checkExts t T [⟨off, n, n, store⟩] = some ⟨Code.codeWrite, devOf t off⟩ := by
  simp [checkExts_inRegion h, overlaps, hs, hn, hc, hlo, hhi]

theorem checkExts_pass (h : InRegion off n T)
    (hcode : store = true → off + n ≤ T.codeBase ∨ T.codeBase + T.codeSize ≤ off) :
    checkExts t T [⟨off, n, n, store⟩] = none := by
  have hmiss (hs : store = true) := overlaps_apart (hcode hs)
  simpa [checkExts_inRegion h] using hmiss

/-- An access that meets the one reservation, another unit's, one of the two writing, is a conflict at the first byte that
they share (R463). -/
theorem tahrHit_reserved {r : TahrRes} (hp : T.tahr.pass = none) (hr : T.tahr.res = [r]) (hu : r.unit ≠ 0)
    (hw : store = true ∨ r.write = true) (hn : 0 < n) (hlo : off < r.lo + r.len) (hhi : r.lo < off + n) (hl : 0 < r.len) :
    tahrHit t 0 T [⟨off, n, n, store⟩] =
      some ⟨Code.trUnit, devOf t (max off r.lo), word (r.unit * 2 ^ 29 + r.num % 2 ^ 29)⟩ := by
  have hunit : tahrUnitHit t 0 T [⟨off, n, n, store⟩] = some ⟨Code.trUnit, devAddr t (meetAt off r.lo), tokenOf r.unit r.num⟩ := by
    simp [tahrUnitHit, firstHit, overlaps, hr, hu, hw, hn, hlo, hhi, hl]
  rw [tahrHit, hp, hunit]
  rfl

theorem tahrUnitHit_unreserved (t unit : Nat) (es : List Ext) (hr : T.tahr.res = []) : tahrUnitHit t unit T es = none := by
  rw [tahrUnitHit, hr, List.flatMap_eq_nil_iff.mpr]
  · rfl
  · exact fun _ _ => rfl

theorem tahrWindowHit_closed (t : Nat) (es : List Ext) (hw : ∀ w ∈ T.windows, w.2.opened = false) : tahrWindowHit t T es = none := by
  rw [tahrWindowHit, List.flatMap_eq_nil_iff.mpr]
  · rfl
  · exact fun e _ => List.filterMap_eq_nil_iff.mpr fun w hmem => by simp [hw w hmem]

theorem tahrRingHit_outside {es : List Ext} (t : Nat)
    (hring : ∀ e ∈ es, e.write = true → e.off + e.len ≤ T.ringBase ∨ T.ringBase + T.ringSize ≤ e.off) :
    tahrRingHit t T es = none := by
  rw [tahrRingHit, List.filterMap_eq_nil_iff.mpr]
  · rfl
  · intro e he
    have hmiss (hwrite : e.write = true) := overlaps_apart (hring e he hwrite)
    simpa using hmiss

/-- An access meets nothing where nothing is reserved, no window is open, and what it writes is not of the ring. -/
theorem tahrHit_none (hr : T.tahr.res = []) (hw : ∀ w ∈ T.windows, w.2.opened = false)
    (hring : store = true → off + n ≤ T.ringBase ∨ T.ringBase + T.ringSize ≤ off) :
    tahrHit t 0 T [⟨off, n, n, store⟩] = none := by
  have hunit := tahrUnitHit_unreserved t 0 [⟨off, n, n, store⟩] hr
  have hwindow := tahrWindowHit_closed t [⟨off, n, n, store⟩] hw
  have hown := tahrRingHit_outside (es := [⟨off, n, n, store⟩]) t (by simpa using hring)
  simp [tahrHit, hunit, hwindow, hown]

end

section
variable {t off a n w : Nat} {s : State}

/-- The fault of a read names the least of the words in error that it touches. -/
theorem firstBadWord_eq_min? (s : State) (a n : Nat) :
    firstBadWord s a n = (s.eccBad.filter (fun w => overlaps (w * 8) 8 a n)).min? := by
  unfold firstBadWord
  cases s.eccBad.filter (fun w => overlaps (w * 8) 8 a n) with
  | nil => rfl
  | cons w l =>
    rw [List.min?_cons', List.foldl_cons]
    induction l generalizing w with
    | nil => rfl
    | cons v l ih => exact ih (min w v)

theorem firstBadWord_of_least (hn : 0 < n) (hw : w ∈ s.eccBad) (hlo : w * 8 < a + n) (hhi : a < w * 8 + 8)
    (hleast : ∀ v ∈ s.eccBad, v * 8 < a + n → a < v * 8 + 8 → w ≤ v) : firstBadWord s a n = some w := by
  rw [firstBadWord_eq_min?, List.min?_eq_some_iff]
  simp only [List.mem_filter, overlaps, decide_eq_true_eq]
  exact ⟨⟨hw, by omega, hn, hlo, hhi⟩, fun v ⟨hv, _, _, hvlo, hvhi⟩ => hleast v hv hvlo hvhi⟩

/-- A read of words without an error changes nothing. -/
theorem readCheck_clean (h : CleanRange (devOf t off) n s) : readCheck t off n s = .ok s := by
  obtain ⟨hbad, hsoft⟩ := h
  have hnone : firstBadWord s (devAddr t off) n = none := by
    rw [firstBadWord_eq_min?, List.min?_eq_none_iff, List.filter_eq_nil_iff]
    exact fun w hw => Bool.eq_false_iff.mp (overlaps_apart (hbad w hw))
  have hno : s.eccSoft.filter (fun w => overlaps (w * 8) 8 (devAddr t off) n) = [] :=
    List.filter_eq_nil_iff.mpr fun w hw => Bool.eq_false_iff.mp (overlaps_apart (hsoft w hw))
  simp [readCheck, hnone, eccCorrect, hno]

theorem readCheck_bad (h : firstBadWord s (devOf t off) n = some w) : ∃ u, ReadsOnly t s u ∧
    readCheck t off n s = .error (⟨Code.memoryUncorrectable, w * 8⟩, u) := by
  have hbad : firstBadWord s (devAddr t off) n = some w := h
  exact ⟨_, eccCorrect_readsOnly t (devAddr t off) (w * 8 - devAddr t off) s, by simp only [readCheck, hbad]⟩

end

end Sys2Proof.Machine
end

section
/-! SUPPORT. Loads and stores as one kind of instruction: they issue, check their extent, pass Tahr's gate and act
(spec/04 R102, R107), each of these on the tile once it has waited for its registers. -/

namespace Sys2Proof.Machine

section
variable (t : Nat) (uses : List Reg) (s : State)

theorem checkExts_stalled (es : List Ext) : checkExts t ((stallTile t uses s).tile t) es = checkExts t (s.tile t) es := by
  obtain ⟨n, d, e, -⟩ := stallTile_tile t uses s
  rw [e]; rfl

theorem tahrHit_stalled (unit : Nat) (es : List Ext) :
    tahrHit t unit ((stallTile t uses s).tile t) es = tahrHit t unit (s.tile t) es := by
  obtain ⟨n, d, e, -⟩ := stallTile_tile t uses s
  rw [e]; rfl

@[simp] theorem stallTile_tahrMode : ((stallTile t uses s).tile t).tahrMode = (s.tile t).tahrMode := by
  obtain ⟨n, d, e, -⟩ := stallTile_tile t uses s
  rw [e]

@[simp] theorem stallTile_eccBad : (stallTile t uses s).eccBad = s.eccBad := by rw [(stallTile_only t uses s).rest]
@[simp] theorem stallTile_eccSoft : (stallTile t uses s).eccSoft = s.eccSoft := by rw [(stallTile_only t uses s).rest]

theorem firstBadWord_stalled (a n : Nat) : firstBadWord (stallTile t uses s) a n = firstBadWord s a n := by
  rw [firstBadWord_eq_min?, firstBadWord_eq_min?, stallTile_eccBad]

end

/-- An issue trap of Tahr's (R465): the tile stands HALTED at the instruction, which has no effect, with the conflict in its
registers and counted, and the HALT flag of its partition is up. -/
structure Trapped (t : Nat) (hit : TahrHit) (s s' : State) : Prop where
  run : (s'.tile t).run = .halted
  pc : (s'.tile t).pc = (s.tile t).pc
  regs : (s'.tile t).regs = (s.tile t).regs
  tahr : (s'.tile t).tahr = { (s.tile t).tahr with
    count := min max32 ((s.tile t).tahr.count + 1), valid := true, arrival := false, code := BitVec.ofNat 8 hit.code
    pc := (s.tile t).pc, addr := BitVec.ofNat 64 hit.addr, other := hit.other }
  flag : s.partOf t ≠ 0 → (s'.part (s.partOf t)).halt = true
  others : ∀ u, u ≠ t → s'.tile u = s.tile u
  bytes : ∀ a, readByte s'.mem a = readByte s.mem a

theorem trapTile_trapped {t : Nat} {hit : TahrHit} {s : State} (h : (s.tile t).run = .running) :
    Trapped t hit s (trapTile t false hit s) := by
  have hnot : (s.tile t).run ≠ .halted := by simp [h]
  rw [trapTile, if_neg hnot]
  constructor
  · rw [raiseHalt_tile, tile_updTile_same]
  · rw [raiseHalt_tile, tile_updTile_same]
  · rw [raiseHalt_tile, tile_updTile_same]
  · rw [raiseHalt_tile, tile_updTile_same, satAdd]
  · intro hp
    simp [raiseHalt, hp]
  · intro u hu
    rw [raiseHalt_tile, tile_updTile_other _ _ hu]
  · intro a
    rw [raiseHalt_mem]
    rfl

/-- A trap of the tile once it has waited is one of the tile as it was. -/
theorem Trapped.stalled {t : Nat} {hit : TahrHit} {uses : List Reg} {s s' : State} (h : Trapped t hit (stallTile t uses s) s') :
    Trapped t hit s s' := by
  obtain ⟨n, d, e, -⟩ := stallTile_tile t uses s
  obtain ⟨hrun, hpc, hregs, htahr, hflag, hothers, hbytes⟩ := h
  rw [e] at hpc hregs htahr
  rw [stallTile_partOf] at hflag
  exact ⟨hrun, hpc, hregs, htahr, hflag, fun u hu => (hothers u hu).trans ((stallTile_only t uses s).others u hu),
    fun a => (hbytes a).trans (by rw [stallTile_mem])⟩

/-- The tile goes on to the next word after an instruction of `cost` beats. -/
structure GoesOn (t : Nat) (uses : List Reg) (cost : Nat) (s s' : State) : Prop where
  run : (s'.tile t).run = .running
  pc : (s'.tile t).pc = (s.tile t).pc + 4
  beats : (s'.tile t).beats = beatsAfter t uses cost s

theorem GoesOn.stalled {t cost : Nat} {uses : List Reg} {s s' : State} (h : GoesOn t [] cost (stallTile t uses s) s') :
    GoesOn t uses cost s s' :=
  ⟨h.run, h.pc.trans (by rw [stallTile_pc]), h.beats.trans (stallTile_beatsAfter ..)⟩

/-- An effect on the tile that leaves all but its registers, with what they await and when they come, as it was. -/
def OnRegisters (f : Tile → Tile) : Prop :=
  ∀ T : Tile, f T = { T with regs := (f T).regs, awaits := (f T).awaits, due := (f T).due }

theorem onRegisters_load (rd : Reg) (v : Word) (n : Nat) : OnRegisters (fun T => (T.setReg rd v).later rd n) := by
  intro T
  dsimp only
  rw [later_rest, setReg_rest]

theorem onRegisters_loadPair (rd r1 : Reg) (v w : Word) (n : Nat) :
    OnRegisters (fun T => (((T.setReg rd v).setReg r1 w).later rd n).later r1 n) := by
  intro T
  dsimp only
  rw [later_rest, later_rest, setReg_rest (T.setReg rd v), setReg_rest T]

theorem retire_goesOn {t cost : Nat} {s : State} {f : Tile → Tile} (hf : OnRegisters f) (h : (s.tile t).run = .running) :
    GoesOn t [] cost s (retire t cost s f) where
  run := by rw [retire, retireAt_tile, hf]; exact h
  pc := by rw [retire, retireAt_tile, advance_pc]
  beats := by rw [retire, retireAt_tile, hf, advance_beats, beatsAfter, ← Nat.add_assoc]; rfl

/-- What the instruction `c`, an access of the `n` bytes at offset `off` that reads the registers `uses`, comes to: by the
checks of its extent, by what Tahr finds, by the words in error, and where all of these let it pass. -/
structure Accesses (c : Instr) (t : Nat) (uses : List Reg) (store : Bool) (n off : Nat) (s : State) : Prop where
  faults : ∀ f, checkExts t (s.tile t) [⟨off, n, n, store⟩] = some f → Faults c t 0 f.code f.addr s
  traps : checkExts t (s.tile t) [⟨off, n, n, store⟩] = none → (s.tile t).tahrMode = true →
    ∀ hit, tahrHit t 0 (s.tile t) [⟨off, n, n, store⟩] = some hit → Does c s (Trapped t hit s)
  unread : checkExts t (s.tile t) [⟨off, n, n, store⟩] = none → (s.tile t).tahrMode = false → store = false →
    ∀ w, firstBadWord s (devOf t off) n = some w → Faults c t 0 Code.memoryUncorrectable (w * 8) s
  goes : checkExts t (s.tile t) [⟨off, n, n, store⟩] = none → (s.tile t).tahrMode = true →
    tahrHit t 0 (s.tile t) [⟨off, n, n, store⟩] = none → CleanRange (devOf t off) n s → Does c s (GoesOn t uses 3 s)

/-- The shape that loads and stores share. -/
def accessOp (t : Nat) (uses : List Reg) (ra : Reg) (imm : BitVec 16) (n : Nat) (store : Bool) (act : Nat → State → State)
    (s : State) : State :=
  issue t uses s (fun s =>
    let off := (effOff ((s.tile t).reg ra) imm).toNat
    match checkExts t (s.tile t) [⟨off, n, n, store⟩] with
    | some flt => faultIssue t 0 flt s
    | none => tahrGate t 0 [⟨off, n, n, store⟩] s (act off))

/-- What a load does once nothing holds it back. -/
def loadAct (t n : Nat) (f : Nat → Tile → Tile) (off : Nat) (s : State) : State :=
  match readCheck t off n s with
  | .error (flt, u) => faultIssue t 0 flt u
  | .ok u => retire t (1 + (s.tile t).tahrBeats) u (f (u.herdNat t off n))

/-- What a store does once nothing holds it back. -/
def storeAct (t n : Nat) (v : Tile → Nat) (off : Nat) (s : State) : State :=
  retire t (1 + (s.tile t).tahrBeats) (s.writeHerd t off n (v (s.tile t))) id

theorem loadOp_eq_accessOp (t : Nat) (ra : Reg) (imm : BitVec 16) (n : Nat) (f : Nat → Tile → Tile) :
    loadOp t ra imm n f = accessOp t [ra] ra imm n false (loadAct t n f) := rfl

theorem storeOp_eq_accessOp (t : Nat) (uses : List Reg) (ra : Reg) (imm : BitVec 16) (n : Nat) (v : Tile → Nat) :
    storeOp t uses ra imm n v = accessOp t (ra :: uses) ra imm n true (storeAct t n v) := rfl

section
variable {c : Instr} {t n off : Nat} {uses : List Reg} {ra : Reg} {imm : BitVec 16} {store : Bool} {act : Nat → State → State}
  {s : State} (hc : exec c s = onTile t s (accessOp t uses ra imm n store act)) (h : CanIssue t uses s)
  (hoff : (effOff ((s.tile t).reg ra) imm).toNat = off)
include hc h hoff

theorem accessOp_faults {f : TileFault} (hf : checkExts t (s.tile t) [⟨off, n, n, store⟩] = some f) :
    Faults c t 0 f.code f.addr s :=
  issue_faults hc h (by simp only [stallTile_reg, hoff, checkExts_stalled, hf])

/-- An access whose extent passes the checks comes to Tahr's gate. -/
theorem accessOp_gate (hpass : checkExts t (s.tile t) [⟨off, n, n, store⟩] = none) :
    exec c s = .next (tahrGate t 0 [⟨off, n, n, store⟩] (stallTile t uses s) (act off)) := by
  rw [hc, onTile_in _ h.1, accessOp, issue_acts _ h]
  simp only [stallTile_reg, hoff, checkExts_stalled, hpass]

theorem accessOp_traps (hpass : checkExts t (s.tile t) [⟨off, n, n, store⟩] = none) (hm : (s.tile t).tahrMode = true)
    {hit : TahrHit} (hhit : tahrHit t 0 (s.tile t) [⟨off, n, n, store⟩] = some hit) : Does c s (Trapped t hit s) := by
  refine ⟨_, accessOp_gate hc h hoff hpass, ?_⟩
  simp only [tahrGate, stallTile_tahrMode, hm, tahrHit_stalled, hhit, if_true]
  exact (trapTile_trapped ((stallTile_run ..).trans (ready_running h.2.1))).stalled

/-- An access that Tahr finds nothing of acts. -/
theorem accessOp_acts (hpass : checkExts t (s.tile t) [⟨off, n, n, store⟩] = none)
    (hm : (s.tile t).tahrMode = true → tahrHit t 0 (s.tile t) [⟨off, n, n, store⟩] = none) :
    exec c s = .next (act off (stallTile t uses s)) := by
  rw [accessOp_gate hc h hoff hpass]
  by_cases hmode : (s.tile t).tahrMode = true
  · simp only [tahrGate, stallTile_tahrMode, hmode, tahrHit_stalled, hm hmode, if_true]
  · simp only [tahrGate, stallTile_tahrMode, hmode, Bool.false_eq_true, if_false]

end

section
variable {t n off : Nat} {s : State}

/-- A load of a word in error faults, after the corrections that come before it. -/
theorem loadAct_faulted {w : Nat} (f : Nat → Tile → Tile) (h : (s.tile t).run = .running)
    (hw : firstBadWord s (devOf t off) n = some w) :
    Faulted t 0 Code.memoryUncorrectable (s.tile t).pc (w * 8) s (loadAct t n f off s) := by
  obtain ⟨u, hreads, hu⟩ := readCheck_bad hw
  rw [loadAct, hu, ← hreads.pc]
  exact hreads.faulted (faultTile_faulted (by simp [Tile.alive, hreads.run, h]))

theorem loadAct_goesOn {f : Nat → Tile → Tile} (hf : ∀ v, OnRegisters (f v)) (h : (s.tile t).run = .running)
    (hm : (s.tile t).tahrMode = true) (hclean : CleanRange (devOf t off) n s) : GoesOn t [] 3 s (loadAct t n f off s) := by
  rw [loadAct, readCheck_clean hclean, Tile.tahrBeats, if_pos hm]
  exact retire_goesOn (hf _) h

theorem storeAct_goesOn (v : Tile → Nat) (h : (s.tile t).run = .running) (hm : (s.tile t).tahrMode = true) :
    GoesOn t [] 3 s (storeAct t n v off s) := by
  rw [storeAct, Tile.tahrBeats, if_pos hm]
  obtain ⟨hrun, hpc, hbeats⟩ := retire_goesOn (cost := 3) (f := id) (fun _ => rfl)
    (show ((s.writeHerd t off n (v (s.tile t))).tile t).run = .running from h)
  exact ⟨hrun, hpc, hbeats⟩

end

section
variable {c : Instr} {t n off : Nat} {ra : Reg} {imm : BitVec 16} {s : State}

theorem loadOp_accesses {f : Nat → Tile → Tile} (hf : ∀ v, OnRegisters (f v)) (hc : exec c s = onTile t s (loadOp t ra imm n f))
    (h : CanIssue t [ra] s) (hoff : (effOff ((s.tile t).reg ra) imm).toNat = off) : Accesses c t [ra] false n off s := by
  rw [loadOp_eq_accessOp] at hc
  have hrun : ((stallTile t [ra] s).tile t).run = .running := (stallTile_run ..).trans (ready_running h.2.1)
  refine ⟨fun _ => accessOp_faults hc h hoff, fun hpass hm _ => accessOp_traps hc h hoff hpass hm, ?_, ?_⟩
  · intro hpass hm _ w hw
    have hfault := loadAct_faulted f hrun ((firstBadWord_stalled ..).trans hw)
    rw [stallTile_pc] at hfault
    exact ⟨_, accessOp_acts hc h hoff hpass (by simp [hm]), hfault.stalled⟩
  · intro hpass hm hhit hclean
    exact ⟨_, accessOp_acts hc h hoff hpass fun _ => hhit,
      (loadAct_goesOn hf hrun (by rwa [stallTile_tahrMode]) (by simpa only [CleanRange, stallTile_eccBad, stallTile_eccSoft])).stalled⟩

theorem storeOp_accesses {uses : List Reg} {v : Tile → Nat} (hc : exec c s = onTile t s (storeOp t uses ra imm n v))
    (h : CanIssue t (ra :: uses) s) (hoff : (effOff ((s.tile t).reg ra) imm).toNat = off) :
    Accesses c t (ra :: uses) true n off s := by
  rw [storeOp_eq_accessOp] at hc
  have hrun : ((stallTile t (ra :: uses) s).tile t).run = .running := (stallTile_run ..).trans (ready_running h.2.1)
  refine ⟨fun _ => accessOp_faults hc h hoff, fun hpass hm _ => accessOp_traps hc h hoff hpass hm, fun _ _ hs => ?_, ?_⟩
  · cases hs
  · intro hpass hm hhit _
    exact ⟨_, accessOp_acts hc h hoff hpass fun _ => hhit, (storeAct_goesOn v hrun (by rwa [stallTile_tahrMode])).stalled⟩

end

end Sys2Proof.Machine
end

section
/-! PROOFS. The checks of loads and stores, words in error, and Tahr mode (spec/04 section 4.2, spec/17 section 17.8). -/

namespace Sys2Proof.Machine

/-- A form of the loads and stores: a pair form with an odd RD is illegal, and every other accesses `n` bytes. -/
structure AccessForm (c : Instr) (t : Nat) (rd : Reg) (uses : List Reg) (store : Bool) (n off : Nat) (s : State) : Prop where
  size : 0 < n
  odd : n = 8 → rd.val % 2 = 1 → Faults c t 0 Code.illegal 0 s
  legal : (n = 8 → rd.val % 2 = 0) → Accesses c t uses store n off s

section
variable {c : Instr} {t n off : Nat} {rd ra : Reg} {imm : BitVec 16} {uses : List Reg} {store : Bool} {s : State}

theorem accessForm_narrow (hn : 0 < n ∧ n ≠ 8) (h : Accesses c t uses store n off s) : AccessForm c t rd uses store n off s :=
  ⟨hn.1, fun h8 => absurd h8 hn.2, fun _ => h⟩

/-- LDP and STP: what the even form does decides. -/
theorem accessForm_pair {k : State → State} (h : CanIssue t [] s)
    (hc : exec c s = onTile t s (if evenReg rd then k else fun s => issue t [] s (illegal t 0)))
    (heven : exec c s = onTile t s k → Accesses c t uses store 8 off s) : AccessForm c t rd uses store 8 off s where
  size := by decide
  odd _ hodd := by
    have : evenReg rd = false := by simp [evenReg, hodd]
    simp only [this, Bool.false_eq_true, if_false] at hc
    exact issue_faults hc h rfl
  legal hleg := by
    have : evenReg rd = true := by simp [evenReg, hleg]
    simp only [this, if_true] at hc
    exact heven hc

end

/-- Settles O8: each form is an access of one extent, whose checks, words in error and conflicts the offset decides. -/
theorem accessChecks : Obligations.AccessChecks := by
  intro s t rd ra imm off h hoff T forms
  replace hoff := effOff_toNat hoff
  have hforms : ∀ f ∈ forms, AccessForm f.1 t rd f.2.2.2 f.2.1 f.2.2.1 off s := by
    have hload : CanIssue t [ra] s := canIssue_mono h (by simp)
    have hstore : CanIssue t [ra, rd] s := canIssue_mono h (by simp)
    have hnone : CanIssue t [] s := canIssue_mono h (by simp)
    have load {c : Instr} {n : Nat} (signed : Bool) (hn : 0 < n ∧ n ≠ 8) (hc : exec c s =
        onTile t s (loadOp t ra imm n (fun v T => (T.setReg rd (loadExt signed n v)).later rd 3))) :
        AccessForm c t rd [ra] false n off s :=
      accessForm_narrow hn (loadOp_accesses (fun _ => onRegisters_load rd _ 3) hc hload hoff)
    have store {c : Instr} {n : Nat} (hn : 0 < n ∧ n ≠ 8)
        (hc : exec c s = onTile t s (storeOp t [rd] ra imm n (fun T => (T.reg rd).toNat))) :
        AccessForm c t rd [ra, rd] true n off s :=
      accessForm_narrow hn (storeOp_accesses hc hstore hoff)
    simp only [forms, List.forall_mem_cons]
    exact ⟨load true (by decide) rfl, load false (by decide) rfl, load true (by decide) rfl, load false (by decide) rfl,
      load false (by decide) rfl,
      accessForm_pair hnone rfl fun hc => loadOp_accesses (fun _ => onRegisters_loadPair rd _ _ _ 3) hc hload hoff,
      store (by decide) rfl, store (by decide) rfl, store (by decide) rfl,
      accessForm_pair hnone rfl fun hc => storeOp_accesses hc h hoff, by simp⟩
  intro f hf c store n inside
  obtain ⟨hn, hodd, hlegal⟩ := hforms f hf
  have region (hin : inside) : InRegion off n T := ⟨hin.1, hin.2.1, hin.2.2.1, hin.2.2.2⟩
  refine ⟨hodd, fun hleg => ?_⟩
  obtain ⟨hfaults, htraps, hunread, hgoes⟩ := hlegal hleg
  refine ⟨fun hh => hfaults _ (checkExts_high hh), fun hh hc => hfaults _ (checkExts_misaligned hh hc),
    fun hh hc ho => hfaults _ (checkExts_outside hn hh hc ho),
    fun hin hs hlo hhi hsize => hfaults _ (checkExts_codeWrite hn (region hin) hs hlo hhi hsize), ?_, ?_⟩
  · intro hin hs hm w hw hlo hhi hleast
    exact hunread (checkExts_pass (region hin) (by simp [store, hs])) hm hs w (firstBadWord_of_least hn hw hlo hhi hleast)
  · intro hin hcode hm hp
    have hpass := checkExts_pass (t := t) (region hin) hcode
    refine ⟨fun r hr hu hw hlo hhi hl => ?_, fun hr hw hring hclean => ?_⟩
    · obtain ⟨s', hs', htrap⟩ := htraps hpass hm _ (tahrHit_reserved hp hr hu hw hn hlo hhi hl)
      exact ⟨s', hs', htrap.run, htrap.pc, htrap.regs, htrap.tahr, htrap.flag, htrap.others, htrap.bytes⟩
    · obtain ⟨s', hs', hgo⟩ := hgoes hpass hm (tahrHit_none hr hw hring) hclean
      exact ⟨s', hs', hgo.run, hgo.pc, hgo.beats⟩

end Sys2Proof.Machine
end

section
/-! SUPPORT. Ibex firmware's own accesses (R325, R328, R329), where they meet nothing else (log 100): made and counted, or failed
with the context of their job faulted. -/

namespace Sys2Proof.Machine

/-- The context of job `j` has faulted with `code` at block `b`, and of the rest only counts, logs and flags have changed. -/
structure ContextFaulted (j code b : Nat) (s s' : State) : Prop where
  fault : s.jobUsed j = true → (s.job j).ctxFault = none → (s'.job j).ctxFault = some (code, b)
  health : (s'.job j).health = (s.job j).health
  mem : s'.mem = s.mem
  tiles : s'.tiles = s.tiles
  outbox : s'.outbox = s.outbox
  mailboxes : s'.mailboxes = s.mailboxes

theorem raiseFault_rest (p : Nat) (s : State) : raiseFault p s = { s with parts := (raiseFault p s).parts } := by
  unfold raiseFault; split <;> rfl
@[simp] theorem raiseFault_job (p j : Nat) (s : State) : (raiseFault p s).job j = s.job j := by rw [raiseFault_rest]; rfl
@[simp] theorem raiseFault_tiles (p : Nat) (s : State) : (raiseFault p s).tiles = s.tiles := by rw [raiseFault_rest]
@[simp] theorem raiseFault_outbox (p : Nat) (s : State) : (raiseFault p s).outbox = s.outbox := by rw [raiseFault_rest]
@[simp] theorem raiseFault_mailboxes (p : Nat) (s : State) : (raiseFault p s).mailboxes = s.mailboxes := by rw [raiseFault_rest]

theorem contextFault_faulted (j code b : Nat) (s : State) : ContextFaulted j code b s (contextFault j code b s) := by
  unfold contextFault
  split
  · next hu => exact ⟨fun h => by simp [h] at hu, rfl, rfl, rfl, rfl, rfl⟩
  · exact ⟨fun _ hf => by simp [hf], by simp, by simp, by simp, by simp, by simp⟩

/-- Accesses are counted for their job and change nothing else. -/
theorem noteRanges_rest (j : Nat) (rs : List (Nat × Nat)) (s : State) :
    s.noteRanges j rs = s.updCham (fun _ => (s.noteRanges j rs).chamois) := by
  refine foldl_keeps (P := fun u : State => u = s.updCham (fun _ => u.chamois)) (fun u r h => ?_) rs rfl
  rw [h]; rfl

section
variable {j : Nat} {reads writes : List (Nat × Nat)} {s : State}

theorem ibexAccess_clean (he : ∀ x ∈ reads ++ writes, s.refusedIn x.1 x.2 = none)
    (hc : ∀ a ∈ s.badBlocks, ∀ x ∈ reads, overlaps a 64 x.1 x.2 = false) :
    ibexAccess j [] reads writes s = .ok (s.noteRanges j (reads ++ writes)) := by
  have hbad : (s.noteRanges j (reads ++ writes)).badBlocks.find? (fun a => reads.any (fun r => overlaps a 64 r.1 r.2)) = none := by
    rw [noteRanges_rest, List.find?_eq_none]
    intro a ha
    simpa using fun x y hx => hc a ha (x, y) hx
  unfold ibexAccess
  rw [List.findSome?_eq_none_iff.mpr he]
  dsimp only
  rw [hbad]
  rfl

/-- A channel that is not enabled refuses an access. -/
theorem ibexAccess_refused (hits : List StackHit) (h : ¬ ∀ x ∈ reads ++ writes, s.refusedIn x.1 x.2 = none) :
    ∃ b s', ibexAccess j hits reads writes s = .error (Code.memRefused, s') ∧ ContextFaulted j Code.memRefused b s s' := by
  obtain ⟨b, hb⟩ : ∃ b, (reads ++ writes).findSome? (fun r => s.refusedIn r.1 r.2) = some b := by
    rwa [← List.findSome?_eq_none_iff, ← ne_eq, Option.ne_none_iff_exists'] at h
  refine ⟨b, _, ?_, contextFault_faulted j Code.memRefused b s⟩
  unfold ibexAccess
  rw [hb]

/-- A read meets a block that is known to be uncorrectable. -/
theorem ibexAccess_unread (hits : List StackHit) (he : ∀ x ∈ reads ++ writes, s.refusedIn x.1 x.2 = none)
    (h : ¬ ∀ a ∈ s.badBlocks, ∀ x ∈ reads, overlaps a 64 x.1 x.2 = false) :
    ∃ b ∈ s.badBlocks, ∃ s', ibexAccess j hits reads writes s = .error (Code.dramUncorrectable, s') ∧
      ContextFaulted j Code.dramUncorrectable b s s' := by
  obtain ⟨b, hb⟩ : ∃ b, s.badBlocks.find? (fun a => reads.any (fun r => overlaps a 64 r.1 r.2)) = some b := by
    rw [← Option.ne_none_iff_exists', ne_eq, List.find?_eq_none]
    simpa using h
  have hcounted : (s.noteRanges j (reads ++ writes)).badBlocks = s.badBlocks := by rw [noteRanges_rest]; rfl
  have herr : ibexAccess j hits reads writes s = .error (Code.dramUncorrectable, contextFault j Code.dramUncorrectable b
      (noteUe ((s.noteRanges j (reads ++ writes)).unitOf b) 0 b (s.noteRanges j (reads ++ writes)))) := by
    unfold ibexAccess
    rw [List.findSome?_eq_none_iff.mpr he]
    dsimp only
    rw [hcounted, hb]
  refine ⟨b, List.mem_of_find?_eq_some hb, _, herr, ?_⟩
  rw [noteRanges_rest]
  have hf := contextFault_faulted j Code.dramUncorrectable b
    (noteUe (s.unitOf b) 0 b (s.updCham (fun _ => (s.noteRanges j (reads ++ writes)).chamois)))
  exact ⟨hf.fault, hf.health, hf.mem, hf.tiles, hf.outbox, hf.mailboxes⟩

end

end Sys2Proof.Machine
end

section
/-! SUPPORT. The completion of a checkpoint (R522): events and records leave jobs and tiles as they were, and the completion sweep of
a job of one module has no axis to run. -/

namespace Sys2Proof.Machine

@[simp] theorem emit_job (m j : Nat) (r : Record) (s : State) : (emit m r s).job j = s.job j := by rw [emit_rest]; rfl
@[simp] theorem emit_tiles (m : Nat) (r : Record) (s : State) : (emit m r s).tiles = s.tiles := by rw [emit_rest]
@[simp] theorem finish_job (m q : Nat) (st : Status) (fi aux : Nat) (detail : List Byte) (s : State) (j : Nat) :
    (finish m q st fi aux detail s).job j = s.job j := by rw [finish_rest]; rfl
@[simp] theorem finish_tiles (m q : Nat) (st : Status) (fi aux : Nat) (detail : List Byte) (s : State) :
    (finish m q st fi aux detail s).tiles = s.tiles := by rw [finish_rest]

/-- An event is merged into a held one or emitted. -/
theorem postEvent_cases (m code src : Nat) (detail : List Byte) (s : State) :
    (∃ x, postEvent m code src detail s = s.setMb m x) ∨ ∃ r, postEvent m code src detail s = emit m r s := by
  unfold postEvent
  dsimp only
  split
  · exact .inl ⟨_, rfl⟩
  · exact .inr ⟨_, rfl⟩

@[simp] theorem postHealth_job (j reason slot step : Nat) (x : PostSeen) (s : State) (i : Nat) :
    (postHealth j reason slot step x s).job i = s.job i := by
  obtain ⟨y, h⟩ | ⟨r, h⟩ := postEvent_cases _ _ _ _ s <;> rw [postHealth, h]
  · rfl
  · exact emit_job ..

@[simp] theorem postHealth_tiles (j reason slot step : Nat) (x : PostSeen) (s : State) :
    (postHealth j reason slot step x s).tiles = s.tiles := by
  obtain ⟨y, h⟩ | ⟨r, h⟩ := postEvent_cases _ _ _ _ s <;> rw [postHealth, h]
  · rfl
  · exact emit_tiles ..

@[simp] theorem foldl_finishPlain_job (st : Status) (l : List (Nat × Nat)) (s : State) (j : Nat) :
    (l.foldl (finishPlain st) s).job j = s.job j :=
  foldl_keeps (P := fun u : State => u.job j = s.job j) (fun _ _ h => (finish_job ..).trans h) l rfl
@[simp] theorem foldl_finishPlain_tiles (st : Status) (l : List (Nat × Nat)) (s : State) :
    (l.foldl (finishPlain st) s).tiles = s.tiles :=
  foldl_keeps (P := fun u : State => u.tiles = s.tiles) (fun _ _ h => (finish_tiles ..).trans h) l rfl

theorem Health.slot_setSlot (h : Health) (n : Nat) (x : CkptSlot) : (h.setSlot n x).slot n = x := by
  unfold Health.slot Health.setSlot; split <;> rfl

/-- The buddy copy that is noted beside it leaves the slot that was set. -/
theorem Health.slot_setSlot_buddy (h : Health) (n : Nat) (x b : CkptSlot) {spans : Prop} [Decidable spans] :
    (if spans then (if n = 0 then { h.setSlot n x with buddy0 := b } else { h.setSlot n x with buddy1 := b })
      else h.setSlot n x).slot n = x := by
  by_cases hs : spans
  · rw [if_pos hs]
    split <;> exact slot_setSlot h n x
  · rw [if_neg hs]
    exact slot_setSlot h n x

/-- The checkpoint of a run is complete: the run is over, and its slot complete, pinned where it was taken on a spike. -/
structure Completed (j : Nat) (r : CkptRun) (s' : State) : Prop where
  run : (s'.job j).health.run = none
  complete : ((s'.job j).health.slot r.slot).complete = true
  pinned : ((s'.job j).health.slot r.slot).pinned = (r.code == 0)

@[simp] theorem updHealth_job_same (s : State) (j : Nat) (f : Health → Health) :
    (s.updHealth j f).job j = { s.job j with health := f (s.job j).health } := setJob_job_same ..
@[simp] theorem updHealth_tiles (s : State) (j : Nat) (f : Health → Health) : (s.updHealth j f).tiles = s.tiles := rfl
@[simp] theorem updHealth_mem (s : State) (j : Nat) (f : Health → Health) : (s.updHealth j f).mem = s.mem := rfl

section
variable {j : Nat} {s : State} {r : CkptRun}

theorem completeCkpt_completes (hrun : (s.job j).health.run = some r) :
    Completed j r (completeCkpt j r.step s) ∧ ((completeCkpt j r.step s).job j).results = (s.job j).results ∧
      (completeCkpt j r.step s).tiles = s.tiles := by
  simp only [completeCkpt, hrun, bne_self_eq_false, Bool.false_eq_true, if_false]
  refine ⟨⟨by simp, ?_, ?_⟩, by simp, by simp⟩ <;> simp only [foldl_finishPlain_job, postHealth_job, updHealth_job_same]
  · exact congrArg CkptSlot.complete (Health.slot_setSlot_buddy _ _ _ _)
  · exact congrArg CkptSlot.pinned (Health.slot_setSlot_buddy _ _ _ _)

theorem settleHealth_settled (fuel : Nat) (h : (s.job j).results = []) : settleHealth j fuel s = s := by
  cases fuel with
  | zero => rfl
  | succ n => simp [settleHealth, h]

/-- The result of the completion sweep is taken. -/
theorem settleHealth_written {step v : Nat} (fuel : Nat) (h : (s.job j).results = [(3, step, v)]) :
    settleHealth j (fuel + 1) s = settleHealth j fuel (completeCkpt j v (s.updJob j (fun J => { J with results := [] }))) := by
  simp [settleHealth, h]

/-- A sweep of a job of one module has its result at once. -/
theorem startSweep_single (kind step value : Nat) (hx : (s.job j).lx ≤ 1) (hy : (s.job j).ly ≤ 1) (hz : (s.job j).lz ≤ 1) :
    startSweep j kind step value s = (putSweep j { kind := kind, step := step, value := value, axes := [] } false s).updJob j
      (fun J => { J with results := J.results ++ [(kind, step, value)] }) := by
  have haxes : ∀ l : List Nat, l.filter (fun a => decide (1 < (s.job j).axisLen a)) = [] := by
    intro l
    rw [List.filter_eq_nil_iff]
    intro a _
    unfold Job.axisLen
    split <;> simpa
  simp only [startSweep, haxes]
  rfl

theorem writtenCkpt_single (hrun : (s.job j).health.run = some r) (hx : (s.job j).lx ≤ 1) (hy : (s.job j).ly ≤ 1)
    (hz : (s.job j).lz ≤ 1) (hres : (s.job j).results = []) :
    ((writtenCkpt j s).job j).health.run = some { r with written := true, buddy := none } ∧
      ((writtenCkpt j s).job j).results = [(3, r.step, r.step)] ∧ (writtenCkpt j s).tiles = s.tiles := by
  simp only [writtenCkpt, hrun]
  rw [startSweep_single _ _ _ (by simpa) (by simpa) (by simpa)]
  simp [putSweep, hres]

/-- The local copy of a job of one module is committed: the checkpoint is complete. -/
theorem sendBuddy_completes (hits : List StackHit) (hrun : (s.job j).health.run = some r) (hx : (s.job j).lx ≤ 1)
    (hy : (s.job j).ly ≤ 1) (hz : (s.job j).lz ≤ 1) (hres : (s.job j).results = []) :
    Completed j r (settleHealth j 4 (sendBuddy j hits s)) ∧ (settleHealth j 4 (sendBuddy j hits s)).tiles = s.tiles := by
  have hwritten : sendBuddy j hits s = writtenCkpt j s := by simp [sendBuddy, hrun, hz]
  obtain ⟨wrun, wres, wtiles⟩ := writtenCkpt_single hrun hx hy hz hres
  obtain ⟨hdone, hempty, htiles⟩ := completeCkpt_completes (j := j) (r := { r with written := true, buddy := none })
    (s := (writtenCkpt j s).updJob j (fun J => { J with results := [] })) (by simpa using wrun)
  rw [hwritten, settleHealth_written 3 wres, settleHealth_settled 3 (by simpa using hempty)]
  exact ⟨⟨hdone.run, hdone.complete, hdone.pinned⟩, htiles.trans wtiles⟩

end

end Sys2Proof.Machine
end

section
/-! SUPPORT. CHECKPOINT_COPY_END (R521, R522) by what its accesses meet. -/

namespace Sys2Proof.Machine

/-- The copy of entry `n` into the slot at `a`: each share's arrays behind the status block that the slot holds of it. -/
def copyEntry (j slot a n : Nat) (all : List Nat) (s : State) : State :=
  (sharesOf n).foldl (fun s k =>
    s.writeMem (a + s.shareAt all k + 512) (ckptBytes s k (Stat.wTag (s.slotStatus j slot k) % 2))) s

/-- A copy writes memory. -/
theorem copyEntry_rest (j slot a n : Nat) (all : List Nat) (s : State) :
    copyEntry j slot a n all s =
      { s with mem := (copyEntry j slot a n all s).mem, eccBad := (copyEntry j slot a n all s).eccBad
               eccSoft := (copyEntry j slot a n all s).eccSoft, badBlocks := (copyEntry j slot a n all s).badBlocks } := by
  refine foldl_keeps (P := fun u : State => u = { s with mem := u.mem, eccBad := u.eccBad, eccSoft := u.eccSoft, badBlocks := u.badBlocks })
    (fun u k h => ?_) _ rfl
  rw [h]; rfl

@[simp] theorem copyEntry_job (j slot a n : Nat) (all : List Nat) (s : State) (i : Nat) :
    (copyEntry j slot a n all s).job i = s.job i := by rw [copyEntry_rest]; rfl
@[simp] theorem copyEntry_tiles (j slot a n : Nat) (all : List Nat) (s : State) : (copyEntry j slot a n all s).tiles = s.tiles := by
  rw [copyEntry_rest]

/-- What a copy writes does not depend on the counts of accesses. -/
theorem copyEntry_updCham (j slot a n : Nat) (all : List Nat) (s : State) (f : Chamois → Chamois) :
    copyEntry j slot a n all (s.updCham f) = (copyEntry j slot a n all s).updCham f :=
  List.foldl_hom (fun s : State => s.updCham f) (fun _ _ => rfl)

/-- What the copy of entry `n` accesses: the arrays that it reads, and its places in the run's slot. -/
def State.copyAccesses (s : State) (j n : Nat) (r : CkptRun) : List (Nat × Nat) :=
  s.copyReads j r.slot n ++ s.copyWrites ((s.job j).health.area r.slot).base ((s.job j).health.slot r.slot).entries n

/-- Entry `n` has been copied into the run's slot and is no longer to be copied. -/
def State.copied (s : State) (j n : Nat) (r : CkptRun) : State :=
  (copyEntry j r.slot ((s.job j).health.area r.slot).base n ((s.job j).health.slot r.slot).entries s).updHealth j
    (fun h => { h with run := some { r with entries := r.entries.filter (· != n) } })

section
variable {jb : BitVec 8} {die : Fin 4} {e : Fin 64} {s : State} {r : CkptRun} {j n : Nat}

/-- Of an entry that is not being copied, and while a block that it copies is being sent again, nothing changes. -/
theorem exec_checkpointCopyEnd_idle (hits : List StackHit) (h : ∀ r, (s.job jb.toNat).health.run = some r →
      die.val * 64 + e.val ∉ r.entries ∨ s.rangesWait (s.copyAccesses jb.toNat (die.val * 64 + e.val) r) = true) :
    exec (.checkpointCopyEnd jb die e hits) s = .next s := by
  show execCheckpointCopyEnd jb die e hits s = .next s
  unfold execCheckpointCopyEnd
  cases hrun : (s.job jb.toNat).health.run with
  | none => simp only [hrun]
  | some r =>
    simp only [hrun]
    rw [if_pos (by simpa [State.copyAccesses] using h r hrun)]

variable (hj : jb.toNat = j) (hn : die.val * 64 + e.val = n)
include hj hn

/-- The accesses of a copy that is due decide what it does: where they succeed the entry has been copied, and with the last one the
slot goes on to the neighbour. -/
theorem exec_checkpointCopyEnd_due (hits : List StackHit) (hrun : (s.job j).health.run = some r) (hmem : n ∈ r.entries)
    (hw : s.rangesWait (s.copyAccesses j n r) = false) :
    let a := ((s.job j).health.area r.slot).base
    let all := ((s.job j).health.slot r.slot).entries
    let es := r.entries.filter (· != n)
    exec (.checkpointCopyEnd jb die e hits) s = .next (
      match ibexAccess j hits (s.copyReads j r.slot n) (s.copyWrites a all n) s with
      | .error x => x.2
      | .ok u =>
        let v := (copyEntry j r.slot a n all u).updHealth j (fun h => { h with run := some { r with entries := es } })
        if es.isEmpty then settleHealth j 4 (sendBuddy j hits v) else v) := by
  subst hj hn
  show execCheckpointCopyEnd jb die e hits s = _
  unfold execCheckpointCopyEnd
  simp only [hrun]
  rw [if_neg (by simpa [State.copyAccesses, hmem] using hw)]
  rfl

/-- A copy whose accesses fail has done nothing else. -/
theorem exec_checkpointCopyEnd_fails {code : Nat} {s' : State} (hits : List StackHit) (hrun : (s.job j).health.run = some r)
    (hmem : n ∈ r.entries) (hw : s.rangesWait (s.copyAccesses j n r) = false)
    (h : ibexAccess j hits (s.copyReads j r.slot n)
      (s.copyWrites ((s.job j).health.area r.slot).base ((s.job j).health.slot r.slot).entries n) s = .error (code, s')) :
    exec (.checkpointCopyEnd jb die e hits) s = .next s' := by
  rw [exec_checkpointCopyEnd_due hj hn hits hrun hmem hw]
  simp only [h]

/-- A copy whose accesses meet nothing is made after they have been counted. -/
theorem exec_checkpointCopyEnd_copies (hrun : (s.job j).health.run = some r) (hmem : n ∈ r.entries)
    (hw : s.rangesWait (s.copyAccesses j n r) = false) (he : ∀ x ∈ s.copyAccesses j n r, s.refusedIn x.1 x.2 = none)
    (hc : ∀ a ∈ s.badBlocks, ∀ x ∈ s.copyReads j r.slot n, overlaps a 64 x.1 x.2 = false) :
    ∃ f, exec (.checkpointCopyEnd jb die e []) s = .next (
      let u := (s.updCham f).copied j n r
      if (r.entries.filter (· != n)).isEmpty then settleHealth j 4 (sendBuddy j [] u) else u) := by
  refine ⟨fun _ => (s.noteRanges j (s.copyAccesses j n r)).chamois, ?_⟩
  rw [exec_checkpointCopyEnd_due hj hn [] hrun hmem hw, ibexAccess_clean he hc, noteRanges_rest]
  rfl

end

section
variable {j n : Nat} {s : State} {r : CkptRun}

@[simp] theorem copied_job : (s.copied j n r).job j =
    { s.job j with health := { (s.job j).health with run := some { r with entries := r.entries.filter (· != n) } } } := by
  simp [State.copied]
@[simp] theorem copied_tiles : (s.copied j n r).tiles = s.tiles := by simp [State.copied]
@[simp] theorem copied_updCham_mem (f : Chamois → Chamois) : ((s.updCham f).copied j n r).mem = (s.copied j n r).mem := by
  simp only [State.copied, updHealth_mem]
  show (copyEntry j r.slot ((s.job j).health.area r.slot).base n ((s.job j).health.slot r.slot).entries (s.updCham f)).mem = _
  rw [copyEntry_updCham]
  rfl

end

section
variable {jb : BitVec 8} {die : Fin 4} {e : Fin 64} {s : State} {r : CkptRun} {j n : Nat}
variable (hj : jb.toNat = j) (hn : die.val * 64 + e.val = n) (hrun : (s.job j).health.run = some r)
include hj hn hrun

theorem checkpointCopyEnd_waits (hw : s.rangesWait (s.copyAccesses j n r) = true) :
    Does (.checkpointCopyEnd jb die e []) s (fun s' => s' = s) := by
  subst hj hn
  refine ⟨s, exec_checkpointCopyEnd_idle [] fun r' hr' => .inr ?_, rfl⟩
  obtain rfl : r = r' := Option.some.inj (hrun.symm.trans hr')
  exact hw

variable (hmem : n ∈ r.entries) (hw : s.rangesWait (s.copyAccesses j n r) = false)
include hmem hw

/-- A copy that a channel refuses: the context has faulted with MEM_REFUSED. -/
theorem checkpointCopyEnd_refused (he : ¬ ∀ x ∈ s.copyAccesses j n r, s.refusedIn x.1 x.2 = none) :
    Does (.checkpointCopyEnd jb die e []) s (fun s' => ∃ b, ContextFaulted j Code.memRefused b s s') := by
  obtain ⟨b, s', herr, hf⟩ := ibexAccess_refused [] he
  exact ⟨s', exec_checkpointCopyEnd_fails hj hn [] hrun hmem hw herr, b, hf⟩

/-- A copy that reads a block known to be uncorrectable: the context has faulted with DRAM_UNCORRECTABLE. -/
theorem checkpointCopyEnd_unread (he : ∀ x ∈ s.copyAccesses j n r, s.refusedIn x.1 x.2 = none)
    (hc : ¬ ∀ a ∈ s.badBlocks, ∀ x ∈ s.copyReads j r.slot n, overlaps a 64 x.1 x.2 = false) :
    Does (.checkpointCopyEnd jb die e []) s
      (fun s' => ∃ b ∈ s.badBlocks, ContextFaulted j Code.dramUncorrectable b s s') := by
  obtain ⟨b, hb, s', herr, hf⟩ := ibexAccess_unread [] he hc
  exact ⟨s', exec_checkpointCopyEnd_fails hj hn [] hrun hmem hw herr, b, hb, hf⟩

variable (he : ∀ x ∈ s.copyAccesses j n r, s.refusedIn x.1 x.2 = none)
  (hc : ∀ a ∈ s.badBlocks, ∀ x ∈ s.copyReads j r.slot n, overlaps a 64 x.1 x.2 = false)
include he hc

/-- The copy of an entry that is not the last one. -/
theorem checkpointCopyEnd_copied (hmore : ∃ m ∈ r.entries, m ≠ n) :
    Does (.checkpointCopyEnd jb die e []) s (fun s' => (s'.job j).health = ((s.copied j n r).job j).health ∧
      s'.tiles = s.tiles ∧ s'.mem = (s.copied j n r).mem) := by
  obtain ⟨f, hexec⟩ := exec_checkpointCopyEnd_copies hj hn hrun hmem hw he hc
  refine ⟨_, hexec, ?_⟩
  have hleft : (r.entries.filter (· != n)).isEmpty = false := by simpa using hmore
  simp only [hleft, Bool.false_eq_true, if_false, copied_job, copied_tiles, copied_updCham_mem]
  exact ⟨rfl, rfl, trivial⟩

/-- The copy of the last entry on a job of one module. -/
theorem checkpointCopyEnd_completes (hlast : ∀ m ∈ r.entries, m = n) (hx : (s.job j).lx ≤ 1) (hy : (s.job j).ly ≤ 1)
    (hz : (s.job j).lz ≤ 1) (hres : (s.job j).results = []) :
    Does (.checkpointCopyEnd jb die e []) s (fun s' => Completed j r s' ∧ s'.tiles = s.tiles) := by
  obtain ⟨f, hexec⟩ := exec_checkpointCopyEnd_copies hj hn hrun hmem hw he hc
  refine ⟨_, hexec, ?_⟩
  have hnone : (r.entries.filter (· != n)).isEmpty = true := by simpa using hlast
  simp only [hnone, if_true]
  obtain ⟨hdone, htiles⟩ := sendBuddy_completes (j := j) (s := (s.updCham f).copied j n r) [] (by rw [copied_job])
    (by rw [copied_job]; exact hx) (by rw [copied_job]; exact hy) (by rw [copied_job]; exact hz) (by rw [copied_job]; exact hres)
  exact ⟨⟨hdone.run, hdone.complete, hdone.pinned⟩, htiles.trans copied_tiles⟩

end

end Sys2Proof.Machine
end

section
/-! SUPPORT. A request for a buddy slot (R523): the control lane's step check (R414), the slot that is sent, and what blocks given to
a link leave as they were. -/

namespace Sys2Proof.Machine

@[simp] theorem handled_nextXfer (x : Link) (lane n : Nat) : (x.handled lane n).nextXfer = x.nextXfer := by
  unfold Link.handled; split <;> rfl
theorem transmit_nextXfer (x : Link) (b : TxBlock) : (x.transmit b).nextXfer = x.nextXfer := by
  have howed (lane n : Nat) : (x.setOwed lane n).nextXfer = x.nextXfer := by unfold Link.setOwed; split <;> rfl
  exact howed _ _
theorem takeCredit_nextXfer (x : Link) (lane : Nat) : (x.takeCredit lane).nextXfer = x.nextXfer := by
  unfold Link.takeCredit; split <;> rfl

theorem sendAll_nextXfer (l : List TxBlock) (x : Link) : (Link.sendAll l x).nextXfer = x.nextXfer := by
  induction l generalizing x with
  | nil => rfl
  | cons b r ih =>
    rw [Link.sendAll]
    split
    · rw [ih, transmit_nextXfer, takeCredit_nextXfer]
    · rw [ih]

@[simp] theorem flush_nextXfer (x : Link) : x.flush.nextXfer = x.nextXfer := sendAll_nextXfer ..

/-- A change of a link in which blocks may be sent: where some are, they are counted. -/
theorem sendLink_cases (k : Nat) (f : Link → Link) (s : State) : sendLink k f s = s.setLink k (f (s.link k)) ∨
    ∃ j n, sendLink k f s = (s.setLink k (f (s.link k))).noteLink j n := by
  unfold sendLink
  dsimp only
  split
  · exact .inl rfl
  · exact .inr ⟨_, _, rfl⟩

theorem sendLink_link_same (k : Nat) (f : Link → Link) (s : State) : (sendLink k f s).link k = f (s.link k) := by
  obtain h | ⟨j, n, h⟩ := sendLink_cases k f s <;> rw [h] <;> exact setLink_link_same ..

/-- What is neither of the links nor a count is as it was. -/
theorem sendLink_rest (k : Nat) (f : Link → Link) (s : State) : (sendLink k f s).mem = s.mem ∧ (sendLink k f s).tiles = s.tiles ∧
    (sendLink k f s).outbox = s.outbox := by
  obtain h | ⟨j, n, h⟩ := sendLink_cases k f s <;> rw [h] <;> exact ⟨rfl, rfl, rfl⟩

/-- A content is given to a link: it stands last in what the links were given, and the link's transfer numbers are as they were. -/
theorem pushOut_rest (k lane n step : Nat) (o : LinkOut) (s : State) :
    (pushOut k lane n step o s).mem = s.mem ∧ (pushOut k lane n step o s).tiles = s.tiles ∧
    (pushOut k lane n step o s).outbox = s.outbox ++ [o] ∧
    ((pushOut k lane n step o s).link k).nextXfer = (s.link k).nextXfer := by
  obtain ⟨f, u, hf, hu, hpush⟩ : ∃ f u, (∀ x : Link, (f x).nextXfer = x.nextXfer) ∧ u = sendLink k f s ∧
      pushOut k lane n step o s = { u with outbox := u.outbox ++ [o] } := ⟨_, _, fun _ => flush_nextXfer _, rfl, rfl⟩
  obtain ⟨hmem, htiles, hout⟩ := sendLink_rest k f s
  have hlink := sendLink_link_same k f s
  rw [← hu] at hmem htiles hout hlink
  rw [hpush]
  exact ⟨hmem, htiles, congrArg (· ++ [o]) hout, (congrArg Link.nextXfer hlink).trans (hf _)⟩

/-! ## The control lane -/

section
variable {k step : Nat} {origin : Option Nat} {deliver : State → State} {s : State}

theorem takeControl_miscabled (h : (s.link k).miscabled = true) :
    takeControl k step origin deliver s = s.setLink k ((s.link k).handled 2 1) := by
  simp [takeControl, h]

theorem takeControl_delivers (h : (s.link k).miscabled = false)
    (hs : (s.job (s.jobOfLink k)).bound = false ∨ stepCompare step (s.job (s.jobOfLink k)).linkStep = .same) :
    takeControl k step origin deliver s = deliver (s.setLink k ((s.link k).handled 2 1)) := by
  obtain hs | hs := hs <;> simp [takeControl, h, hs]

variable (h : (s.link k).miscabled = false) (hb : (s.job (s.jobOfLink k)).bound = true)
include h hb

theorem takeControl_ahead (hs : stepCompare step (s.job (s.jobOfLink k)).linkStep = .ahead) :
    takeControl k step origin deliver s =
      (s.updJob (s.jobOfLink k) (fun J => { J with ctrlHeld := J.ctrlHeld ++ [(k, step, origin)] })).setLink k
        { s.link k with held := ((s.link k).held + 1) % 2 ^ 32 } := by
  simp [takeControl, h, hb, hs]

theorem takeControl_skew (hs : stepCompare step (s.job (s.jobOfLink k)).linkStep = .skew) :
    takeControl k step origin deliver s = contextFault (s.jobOfLink k) Code.stepSkew 0 (s.setLink k ((s.link k).handled 2 1)) := by
  simp [takeControl, h, hb, hs, stepSkewFault]
  rfl

end

/-! ## The slot that is sent -/

section
variable {k : Nat} {s : State}

theorem serveBuddy_none (hits : List StackHit) (h : (s.job (s.jobOfLink k)).health.areas = [] ∨
      selectSlot (s.job (s.jobOfLink k)).health.buddy0 (s.job (s.jobOfLink k)).health.buddy1 = none) :
    serveBuddy k hits s = s := by
  obtain h | h := h <;> simp [serveBuddy, h]

/-- The selected slot goes out under the link's next transfer number. -/
theorem serveBuddy_sends {n : Nat} (ha : (s.job (s.jobOfLink k)).health.areas ≠ [])
    (hs : selectSlot (s.job (s.jobOfLink k)).health.buddy0 (s.job (s.jobOfLink k)).health.buddy1 = some n)
    (he : s.refusedIn ((s.job (s.jobOfLink k)).health.area (2 + n)).base ((s.job (s.jobOfLink k)).health.area (2 + n)).size = none)
    (hc : ∀ a ∈ s.badBlocks, overlaps a 64 ((s.job (s.jobOfLink k)).health.area (2 + n)).base
      ((s.job (s.jobOfLink k)).health.area (2 + n)).size = false) :
    let h := (s.job (s.jobOfLink k)).health
    let x := if n = 0 then h.buddy0 else h.buddy1
    let s' := serveBuddy k [] s
    s'.mem = s.mem ∧ s'.tiles = s.tiles ∧ (s'.link k).nextXfer = ((s.link k).nextXfer + 1) % 2 ^ 24 ∧
      s'.outbox = s.outbox ++ [.buddy k (s.link k).nextXfer n x.step (slotBytes s (h.area (2 + n)) x.pinned)] := by
  have hread := ibexAccess_clean (j := s.jobOfLink k) (writes := []) (s := s)
    (reads := [(((s.job (s.jobOfLink k)).health.area (2 + n)).base, ((s.job (s.jobOfLink k)).health.area (2 + n)).size)])
    (by simpa using he) (by simpa using hc)
  rw [noteRanges_rest] at hread
  dsimp only
  unfold serveBuddy
  dsimp only
  rw [if_neg (by simpa using ha), hs]
  dsimp only
  rw [hread]
  dsimp only
  obtain ⟨hmem, htiles, hout, hxfer⟩ := pushOut_rest k 0 _ _ _ _
  refine ⟨hmem, htiles, hxfer.trans ?_, hout⟩
  rw [updLink_eq, setLink_link_same]
  rfl

end

/-! ## BUDDY_SLOT_REQUEST -/

section
variable {link : LinkId} {step : Nat} {s : State}

theorem exec_buddySlotRequest (hits : List StackHit) : exec (.buddySlotRequest link step hits) s =
    .next (takeControl link.val step none (serveBuddy link.val hits) s) := rfl

theorem buddySlotRequest_freed (h : (s.link link.val).miscabled = true ∨
      ((s.link link.val).miscabled = false ∧ ((s.job (s.jobOfLink link.val)).bound = false ∨
        stepCompare step (s.job (s.jobOfLink link.val)).linkStep = .same)) ∧
      ((s.job (s.jobOfLink link.val)).health.areas = [] ∨
        selectSlot (s.job (s.jobOfLink link.val)).health.buddy0 (s.job (s.jobOfLink link.val)).health.buddy1 = none)) :
    Does (.buddySlotRequest link step []) s (fun s' => s' = s.setLink link.val ((s.link link.val).handled 2 1)) := by
  refine ⟨_, exec_buddySlotRequest [], ?_⟩
  obtain hcable | ⟨⟨hcable, hstep⟩, hnone⟩ := h
  · exact takeControl_miscabled hcable
  · rw [takeControl_delivers hcable hstep]
    exact serveBuddy_none [] hnone

variable (hcable : (s.link link.val).miscabled = false)
include hcable

/-- A request under the link step is served once the control lane's buffer is free. -/
theorem exec_buddySlotRequest_due (hits : List StackHit) (hs : (s.job (s.jobOfLink link.val)).bound = false ∨
      stepCompare step (s.job (s.jobOfLink link.val)).linkStep = .same) :
    exec (.buddySlotRequest link step hits) s =
      .next (serveBuddy link.val hits (s.setLink link.val ((s.link link.val).handled 2 1))) := by
  rw [exec_buddySlotRequest, takeControl_delivers hcable hs]

variable (hb : (s.job (s.jobOfLink link.val)).bound = true)
include hb

/-- A request one step ahead is held with its credit. -/
theorem buddySlotRequest_held (hs : stepCompare step (s.job (s.jobOfLink link.val)).linkStep = .ahead) :
    Does (.buddySlotRequest link step []) s (fun s' => s'.mem = s.mem ∧ s'.tiles = s.tiles ∧ s'.outbox = s.outbox ∧
      s'.job (s.jobOfLink link.val) = { s.job (s.jobOfLink link.val) with
        ctrlHeld := (s.job (s.jobOfLink link.val)).ctrlHeld ++ [(link.val, step, none)] } ∧
      (s'.link link.val).held = ((s.link link.val).held + 1) % 2 ^ 32) := by
  refine ⟨_, exec_buddySlotRequest [], ?_⟩
  rw [takeControl_ahead hcable hb hs]
  exact ⟨rfl, rfl, rfl, setJob_job_same .., congrArg Link.held (setLink_link_same ..)⟩

/-- Any other request faults the job with STEP_SKEW. -/
theorem buddySlotRequest_skewed (hs : stepCompare step (s.job (s.jobOfLink link.val)).linkStep = .skew) :
    Does (.buddySlotRequest link step []) s
      (ContextFaulted (s.jobOfLink link.val) Code.stepSkew 0 (s.setLink link.val ((s.link link.val).handled 2 1))) := by
  refine ⟨_, exec_buddySlotRequest [], ?_⟩
  rw [takeControl_skew hcable hb hs]
  exact contextFault_faulted ..

end

end Sys2Proof.Machine
end

section
/-! SUPPORT. CHECKPOINT (R522, R523): its one item, ACTION, and the rollback to a slot. -/

namespace Sys2Proof.Machine

section
variable {c : Cmd} {m q n v : Nat} {f : Nat → Nat → State → Except Status State} {s u : State}

/-- The one item of a command that requires it, applied. -/
theorem withItems_action (h : c.items = [(1, v)]) (hf : f 1 v s = .ok u) (k : State → State) :
    withItems m q 1 [1] c f k s = k (u.updCmd m q (fun c => { c with applied := 1 })) := by
  simp [withItems, runItems, missingBefore, h, hf]

/-- The one item of a command that requires it, refused. -/
theorem withItems_action_refused {st : Status} (h : c.items = [(1, v)]) (hf : f 1 v s = .error st) (k : State → State) :
    withItems m q 1 [1] c f k s = finish m q st 0 1 [] s := by
  simp [withItems, runItems, missingBefore, h, hf]

theorem item_action (h : c.items = [(1, v)]) : c.item 1 = some v := by simp [Cmd.item, h]

end

/-! ## The commands -/

/-- ACTION, the one item of a CHECKPOINT, has been applied. -/
def State.acting (s : State) (m : MailboxId) (q : BitVec 16) : State := s.updCmd m.val q.toNat (fun c => { c with applied := 1 })

/-- A command's end where its ACTION alone has been applied, or accesses have failed since. -/
theorem acting_finish_hostOnly {m : MailboxId} {q : BitVec 16} {s u : State} (hmem : u.mem = (s.acting m q).mem)
    (htiles : u.tiles = (s.acting m q).tiles) {st : Status} {fi aux : Nat} {detail : List Byte} :
    HostOnly s (finish m.val q.toNat st fi aux detail u) :=
  .trans ⟨fun _ _ => by rw [hmem]; rfl, htiles⟩ (finish_hostOnly ..)

section
variable {m : MailboxId} {q : BitVec 16} {c : Cmd} {s : State} (h : Acts m.val q.toNat c Op.checkpoint s)
include h

/-- A command whose ACTION has been applied ends. -/
theorem acting_ends {u : State} (hu : u.mailboxes = (s.acting m q).mailboxes) {st : Status} {fi aux : Nat} {detail : List Byte} :
    Ends m.val q.toNat c st detail (finish m.val q.toNat st fi aux detail u) := by
  have hcmd : u.cmd m.val q.toNat = some { c with applied := 1 } := by
    rw [← cmd_updCmd h.1 (fun c => { c with applied := 1 }) (fun _ => rfl), State.cmd, State.mb, hu]
    rfl
  exact finish_ends (c := c) hcmd rfl rfl ..

theorem exec_checkpointTake (hi : c.items = [(1, 1)]) : exec (.checkpointTake m q) s = .next (
    if (s.job c.index).state = .tornDown ∨ (s.job c.index).state = .ended ∨ (s.job c.index).health.areas.isEmpty then
      finish m.val q.toNat .rejectedState 0xFFFF 0 [] (s.acting m q)
    else ((s.acting m q).updCmd m.val q.toNat (fun c => { c with phase := .waiting })).updHealth c.index
      (fun h => { h with asked := h.asked ++ [(m.val, q.toNat)] })) := by
  show execCheckpointTake m q s = _
  rw [execCheckpointTake, startCmd_acts _ h, item_action hi, if_neg (by decide), withItems_action hi rfl]
  rfl

theorem exec_checkpointTake_refused {v : Nat} (hi : c.items = [(1, v)]) (h1 : v ≠ 1) (h2 : v ≠ 2) :
    exec (.checkpointTake m q) s = .next (finish m.val q.toNat .rejectedArg 0 1 [] s) := by
  show execCheckpointTake m q s = _
  rw [execCheckpointTake, startCmd_acts _ h, item_action hi, if_neg (by simpa using h2),
    withItems_action_refused hi (st := .rejectedArg) (by simp [only, h1])]

/-- ACTION 2 by the job's state and the slot that is selected. -/
theorem exec_checkpointRollback (hi : c.items = [(1, 2)]) (hits : List StackHit) :
    let J := s.job c.index
    exec (.checkpointRollback m q none hits) s = .next (
      if J.state ≠ .tornDown then finish m.val q.toNat .rejectedState 0xFFFF 0 [] (s.acting m q)
      else
        match selectSlot J.health.local0 J.health.local1 with
        | some n => rollBack m.val q.toNat c.index 0 (J.health.area n) (J.health.slot n).pinned (J.health.slot n).entries
            (readBytes s.mem (J.health.area n).base (J.health.area n).size) hits (s.acting m q)
        | none =>
          if J.lz ≤ 1 then finish m.val q.toNat .rejectedState 0xFFFF 0 [] (s.acting m q)
          else pushFace c.index 5 2 1 J.linkStep (.buddyAsk 0)
            ((s.acting m q).updCmd m.val q.toNat (fun c => { c with phase := .waiting }))) := by
  show execCheckpointRollback m q none hits s = _
  unfold execCheckpointRollback
  simp only [h.1]
  rw [startCmd_acts _ h, item_action hi, if_neg (by decide), withItems_action hi rfl]
  rfl

/-- With nothing that it could roll back to, it is refused. -/
theorem exec_checkpointRollback_rejected (hi : c.items = [(1, 2)]) (hits : List StackHit)
    (hno : (s.job c.index).state ≠ .tornDown ∨
      selectSlot (s.job c.index).health.local0 (s.job c.index).health.local1 = none ∧ (s.job c.index).lz ≤ 1) :
    exec (.checkpointRollback m q none hits) s = .next (finish m.val q.toNat .rejectedState 0xFFFF 0 [] (s.acting m q)) := by
  rw [exec_checkpointRollback h hi]
  by_cases hs : (s.job c.index).state = .tornDown
  · obtain ⟨hsel, hz⟩ := hno.resolve_left (not_not_intro hs)
    simp [hs, hsel, hz]
  · simp [hs]

/-- A torn-down job with a complete slot is rolled back to it. -/
theorem exec_checkpointRollback_selected {n : Nat} (hi : c.items = [(1, 2)]) (hits : List StackHit)
    (hs : (s.job c.index).state = .tornDown)
    (hsel : selectSlot (s.job c.index).health.local0 (s.job c.index).health.local1 = some n) :
    let x := (s.job c.index).health.slot n
    let a := (s.job c.index).health.area n
    exec (.checkpointRollback m q none hits) s = .next
      (rollBack m.val q.toNat c.index 0 a x.pinned x.entries (readBytes s.mem a.base a.size) hits (s.acting m q)) := by
  rw [exec_checkpointRollback h hi]
  simp [hs, hsel]

end

/-! ## The rollback to a slot -/

/-- What the rollback of share `k` writes from a slot's bytes: its arrays, to slot c of their own addresses (R523). -/
def State.shareBack (s : State) (es : List Nat) (slot : List Byte) (k : Nat) : List (Nat × List Byte) :=
  let u := (s.com k).used
  let d := slot.drop (s.shareAt es k)
  let w := Stat.wTag (leNat (d.take 64)) % 2
  shareWrites k ((s.com k).master w) ((d.drop 512).take (6 * u)) ++
    shareWrites k ((s.com k).m1 w) ((d.drop (512 + 6 * u)).take (4 * u)) ++
    (if (s.com k).rule = 0 then [] else shareWrites k ((s.com k).m2 w) ((d.drop (512 + 10 * u)).take (4 * u)))

theorem rollShare_eq (es : List Nat) (slot : List Byte) (k : Nat) (s : State) :
    rollShare es slot k s = applyWrites (s.shareBack es slot k) s := by
  have hm2 (u : Nat) : 6 * u + 4 * u = 10 * u := by omega
  simp only [rollShare, slotOf, State.shareBack, List.drop_drop, Nat.add_assoc, hm2]

/-- Writes change memory and its error marks. -/
theorem applyWrites_rest (l : List (Nat × List Byte)) (s : State) : applyWrites l s =
    { s with mem := (applyWrites l s).mem, eccBad := (applyWrites l s).eccBad, eccSoft := (applyWrites l s).eccSoft
             badBlocks := (applyWrites l s).badBlocks } := by
  refine foldl_keeps (P := fun u : State => u = { s with mem := u.mem, eccBad := u.eccBad, eccSoft := u.eccSoft, badBlocks := u.badBlocks })
    (fun u w h => ?_) _ rfl
  rw [h]; rfl

/-- What writes leave in memory depends on memory alone. -/
theorem applyWrites_mem (l : List (Nat × List Byte)) (s : State) :
    (applyWrites l s).mem = l.foldl (fun m w => writeBytes m w.1 w.2) s.mem :=
  (List.foldl_hom State.mem (fun _ _ => rfl)).symm

/-- The shares of a slot are written back one after another. -/
theorem foldl_rollShare (es : List Nat) (slot : List Byte) (ks : List Nat) (s : State) :
    ks.foldl (fun s k => rollShare es slot k s) s = applyWrites (ks.flatMap (s.shareBack es slot)) s := by
  induction ks generalizing s with
  | nil => rfl
  | cons k ks ih =>
    have hsame : (rollShare es slot k s).shareBack es slot = s.shareBack es slot := by
      rw [rollShare_eq, applyWrites_rest]; rfl
    rw [List.foldl_cons, ih, hsame, rollShare_eq, List.flatMap_cons, applyWrites, applyWrites, applyWrites, List.foldl_append]

section
variable {m q j source n : Nat} {area : Allot} {pinned : Bool} {es : List Nat} {slot : List Byte} {s : State}

/-- A rollback whose accesses meet nothing writes the slot back, and no slot is complete any more. -/
theorem rollBack_clean (he : ∀ x ∈ (area.base, area.size) :: s.rollWrites es slot, s.refusedIn x.1 x.2 = none)
    (hc : ∀ a ∈ s.badBlocks, ∀ x ∈ [(area.base, area.size)], overlaps a 64 x.1 x.2 = false) :
    ∃ u, rollBack m q j source area pinned es slot [] s =
        finishOk m q (slot.take 8 ++ leBytes 1 source ++ leBytes 1 (if pinned then 1 else 0)) u ∧
      u.mailboxes = s.mailboxes ∧ u.tiles = s.tiles ∧
      u.mem = (applyWrites ((es.flatMap sharesOf).flatMap (s.shareBack es slot)) s).mem ∧
      (u.job j).health = { (s.job j).health with local0 := {}, local1 := {}, buddy0 := {}, buddy1 := {} } := by
  unfold rollBack
  rw [ibexAccess_clean (reads := [(area.base, area.size)]) (writes := s.rollWrites es slot) he hc, noteRanges_rest]
  dsimp only
  rw [foldl_rollShare]
  refine ⟨_, rfl, ?_, ?_, ?_, ?_⟩
  · rw [applyWrites_rest]; rfl
  · rw [applyWrites_rest]; rfl
  · rw [updHealth_mem, applyWrites_mem, applyWrites_mem]; rfl
  · rw [updHealth_job_same, applyWrites_rest]; rfl

/-- A rollback that an access fails ends FAULTED, with nothing written. -/
theorem rollBack_fails (hits : List StackHit)
    (h : (¬ ∀ x ∈ (area.base, area.size) :: s.rollWrites es slot, s.refusedIn x.1 x.2 = none) ∨
      ¬ ∀ a ∈ s.badBlocks, ∀ x ∈ [(area.base, area.size)], overlaps a 64 x.1 x.2 = false) :
    ∃ code u, rollBack m q j source area pinned es slot hits s = finish m q .faulted 0xFFFF code [] u ∧
      u.mailboxes = s.mailboxes ∧ u.tiles = s.tiles ∧ u.mem = s.mem := by
  obtain ⟨code, b, u, herr, hf⟩ : ∃ code b u,
      ibexAccess j hits [(area.base, area.size)] (s.rollWrites es slot) s = .error (code, u) ∧ ContextFaulted j code b s u := by
    by_cases he : ∀ x ∈ (area.base, area.size) :: s.rollWrites es slot, s.refusedIn x.1 x.2 = none
    · obtain ⟨b, -, u, h⟩ := ibexAccess_unread (j := j) (reads := [(area.base, area.size)]) hits he
        (h.resolve_left (not_not_intro he))
      exact ⟨_, b, u, h⟩
    · obtain ⟨b, u, h⟩ := ibexAccess_refused (j := j) (reads := [(area.base, area.size)]) hits he
      exact ⟨_, b, u, h⟩
  refine ⟨code, u, ?_, hf.mailboxes, hf.tiles, hf.mem⟩
  unfold rollBack
  rw [herr]

end

end Sys2Proof.Machine
end

section
/-! PROOF. O49: checkpoints (spec/20 section 20.4, R519 to R523; spec/16 section 16.7). -/

namespace Sys2Proof.Machine

section
variable {m : MailboxId} {q : BitVec 16} {c : Cmd} {s : State} (h : Acts m.val q.toNat c Op.checkpoint s)
include h

/-- ACTION 1 of a job that a checkpoint may be taken of waits for the next one that begins. -/
theorem checkpointTake_waits (hi : c.items = [(1, 1)])
    (hfit : (s.job c.index).state ≠ .tornDown ∧ (s.job c.index).state ≠ .ended ∧ (s.job c.index).health.areas ≠ []) :
    Does (.checkpointTake m q) s (fun s' => HostOnly s s' ∧
      (s'.job c.index).health = { (s.job c.index).health with asked := (s.job c.index).health.asked ++ [(m.val, q.toNat)] } ∧
      ∃ d, s'.cmd m.val q.toNat = some d ∧ d.phase = .waiting) := by
  refine ⟨_, exec_checkpointTake h hi, ?_⟩
  rw [if_neg (by simpa using hfit)]
  have happlied : (s.acting m q).cmd m.val q.toNat = _ := cmd_updCmd h.1 _ (fun _ => rfl)
  exact ⟨⟨fun _ _ => rfl, rfl⟩, congrArg Job.health (updHealth_job_same ..), _, cmd_updCmd happlied _ (fun _ => rfl), rfl⟩

theorem checkpointTake_unfit (hi : c.items = [(1, 1)])
    (hfit : ¬ ((s.job c.index).state ≠ .tornDown ∧ (s.job c.index).state ≠ .ended ∧ (s.job c.index).health.areas ≠ [])) :
    Does (.checkpointTake m q) s (fun s' => HostOnly s s' ∧ Ends m.val q.toNat c .rejectedState [] s') := by
  have hbad : (s.job c.index).state = .tornDown ∨ (s.job c.index).state = .ended ∨ (s.job c.index).health.areas.isEmpty = true := by
    rw [List.isEmpty_iff]
    by_cases h1 : (s.job c.index).state = .tornDown
    · exact .inl h1
    by_cases h2 : (s.job c.index).state = .ended
    · exact .inr (.inl h2)
    · exact .inr (.inr (Classical.not_not.mp fun h3 => hfit ⟨h1, h2, h3⟩))
  refine ⟨_, exec_checkpointTake h hi, ?_⟩
  rw [if_pos hbad]
  exact ⟨acting_finish_hostOnly (u := s.acting m q) rfl rfl, acting_ends h rfl⟩

theorem checkpointTake_badAction {v : Nat} (hi : c.items = [(1, v)]) (h1 : v ≠ 1) (h2 : v ≠ 2) :
    Does (.checkpointTake m q) s (fun s' => HostOnly s s' ∧ Ends m.val q.toNat c .rejectedArg [] s') :=
  ⟨_, exec_checkpointTake_refused h hi h1 h2, finish_hostOnly .., finish_ends h.1 rfl rfl ..⟩

theorem checkpointRollback_rejected (hi : c.items = [(1, 2)]) (hno : (s.job c.index).state ≠ .tornDown ∨
      selectSlot (s.job c.index).health.local0 (s.job c.index).health.local1 = none ∧ (s.job c.index).lz ≤ 1) :
    Does (.checkpointRollback m q none []) s (fun s' => HostOnly s s' ∧ Ends m.val q.toNat c .rejectedState [] s') :=
  ⟨_, exec_checkpointRollback_rejected h hi [] hno, acting_finish_hostOnly (u := s.acting m q) rfl rfl, acting_ends h rfl⟩

/-- ACTION 2 of a torn-down job with a complete slot, where the accesses meet nothing: the slot is written back. -/
theorem checkpointRollback_rolls {n : Nat} (hi : c.items = [(1, 2)]) (hs : (s.job c.index).state = .tornDown)
    (hsel : selectSlot (s.job c.index).health.local0 (s.job c.index).health.local1 = some n) :
    let area := (s.job c.index).health.area n
    let x := (s.job c.index).health.slot n
    let b := readBytes s.mem area.base area.size
    (∀ y ∈ (area.base, area.size) :: s.rollWrites x.entries b, s.refusedIn y.1 y.2 = none) →
    (∀ a ∈ s.badBlocks, ∀ y ∈ [(area.base, area.size)], overlaps a 64 y.1 y.2 = false) →
    Does (.checkpointRollback m q none []) s (fun s' => Ends m.val q.toNat c .ok (b.take 8 ++ [0] ++ [if x.pinned then 1 else 0]) s' ∧
      s'.tiles = s.tiles ∧
      (∀ i, i < hostBase → readByte s'.mem i =
        readByte (applyWrites ((x.entries.flatMap sharesOf).flatMap (s.shareBack x.entries b)) s).mem i) ∧
      (s'.job c.index).health = { (s.job c.index).health with local0 := {}, local1 := {}, buddy0 := {}, buddy1 := {} }) := by
  intro area x b he hc
  obtain ⟨u, hroll, hbox, htiles, hmem, hhealth⟩ := rollBack_clean (m := m.val) (q := q.toNat) (j := c.index)
    (source := 0) (pinned := x.pinned) (s := s.acting m q) he hc
  have hdetail : leBytes 1 (if x.pinned then 1 else 0) = [if x.pinned then 1 else 0] := by split <;> rfl
  refine ⟨_, (exec_checkpointRollback_selected h hi [] hs hsel).trans (congrArg Host.Outcome.next hroll), ?_, ?_, fun i hlt => ?_, ?_⟩
  · rw [← hdetail]
    exact acting_ends h hbox
  · exact (finish_tiles ..).trans htiles
  · rw [finishOk, (finish_hostOnly ..).bytes i hlt, hmem, applyWrites_mem, applyWrites_mem]
    rfl
  · rw [finishOk, finish_job]
    exact hhealth

/-- ACTION 2 of a torn-down job with a complete slot, where an access fails. -/
theorem checkpointRollback_faulted {n : Nat} (hi : c.items = [(1, 2)]) (hs : (s.job c.index).state = .tornDown)
    (hsel : selectSlot (s.job c.index).health.local0 (s.job c.index).health.local1 = some n) :
    let area := (s.job c.index).health.area n
    let x := (s.job c.index).health.slot n
    let b := readBytes s.mem area.base area.size
    ((¬ ∀ y ∈ (area.base, area.size) :: s.rollWrites x.entries b, s.refusedIn y.1 y.2 = none) ∨
      ¬ ∀ a ∈ s.badBlocks, ∀ y ∈ [(area.base, area.size)], overlaps a 64 y.1 y.2 = false) →
    Does (.checkpointRollback m q none []) s (fun s' => HostOnly s s' ∧ Ends m.val q.toNat c .faulted [] s') := by
  intro area x b hfail
  obtain ⟨code, u, hroll, hbox, htiles, hmem⟩ := rollBack_fails (m := m.val) (q := q.toNat) (j := c.index)
    (source := 0) (pinned := x.pinned) (s := s.acting m q) [] hfail
  exact ⟨_, (exec_checkpointRollback_selected h hi [] hs hsel).trans (congrArg Host.Outcome.next hroll),
    acting_finish_hostOnly hmem htiles, acting_ends h hbox⟩

end

/-- Settles O49: a copy by what its accesses meet, a request for a buddy slot by its step, CHECKPOINT by its ACTION and the job's
state. -/
theorem checkpoints : Obligations.Checkpoints := by
  intro s enabled clean
  refine ⟨fun jb die e => ⟨fun hidle => ?_, fun r hrun hmem => ?_⟩, ?_, ?_⟩
  · exact ⟨s, exec_checkpointCopyEnd_idle [] fun r hr => .inl (hidle r hr), rfl⟩
  · refine ⟨checkpointCopyEnd_waits rfl rfl hrun, fun hw he hc hu hf => ?_, fun hw he hu hf => ?_, fun hw he hc hmore => ?_,
      fun hw he hc hlast hx hy hz hres => ?_⟩
    · obtain ⟨s', hexec, b, hb, hfault⟩ := checkpointCopyEnd_unread (e := e) rfl rfl hrun hmem hw he hc
      exact ⟨s', hexec, ⟨b, hb, hfault.fault hu hf⟩, hfault.health, hfault.mem⟩
    · obtain ⟨s', hexec, b, hfault⟩ := checkpointCopyEnd_refused (e := e) rfl rfl hrun hmem hw he
      exact ⟨s', hexec, ⟨b, hfault.fault hu hf⟩, hfault.health, hfault.mem, hfault.tiles⟩
    · obtain ⟨s', hexec, hhealth, htiles, hm⟩ := checkpointCopyEnd_copied (e := e) rfl rfl hrun hmem hw he hc hmore
      exact ⟨s', hexec, hhealth.trans (congrArg Job.health copied_job), htiles, hm⟩
    · obtain ⟨s', hexec, hdone, htiles⟩ := checkpointCopyEnd_completes (e := e) rfl rfl hrun hmem hw he hc hlast hx hy hz hres
      exact ⟨s', hexec, hdone.run, hdone.complete, hdone.pinned, htiles⟩
  · intro link step k j J h freed due
    refine ⟨buddySlotRequest_freed, fun n hdue hareas hsel he hc => ?_, buddySlotRequest_held, fun hcable hb hs hu hf => ?_⟩
    · obtain ⟨hmem, htiles, hxfer, hout⟩ := serveBuddy_sends (k := k) (s := freed) hareas hsel he
        fun a ha => hc a ha _ (List.mem_singleton.mpr rfl)
      rw [setLink_link_same, handled_nextXfer] at hxfer hout
      exact ⟨_, exec_buddySlotRequest_due hdue.1 [] hdue.2, hmem, htiles, hxfer, hout⟩
    · obtain ⟨s', hexec, hfault⟩ := buddySlotRequest_skewed hcable hb hs
      exact ⟨s', hexec, hfault.mem, hfault.tiles, hfault.outbox, hfault.fault hu hf⟩
  · intro m q c hacts j J fit
    exact ⟨checkpointTake_waits hacts, checkpointTake_unfit hacts, fun v => checkpointTake_badAction hacts,
      fun hi hs => checkpointRollback_rejected hacts hi (.inl hs),
      fun hi _ hsel hz => checkpointRollback_rejected hacts hi (.inr ⟨hsel, hz⟩), fun n hi hs hsel =>
        ⟨checkpointRollback_rolls hacts hi hs hsel, checkpointRollback_faulted hacts hi hs hsel⟩⟩

end Sys2Proof.Machine
end

section
/-! SUPPORT. Records, events and result data (spec/16 section 16.5): of the module they change the mailboxes, the host's memory and the
model's free counter alone. -/

namespace Sys2Proof.Machine

/-- From `s` to `s'` records and result data alone have come: in the mailboxes and in the host window, with the marks of the blocks
written there and the model's free counter. -/
structure HostWrites (s s' : State) : Prop where
  bytes : ∀ a, a < hostBase → readByte s'.mem a = readByte s.mem a
  rest : s' = { s with mailboxes := s'.mailboxes, mem := s'.mem, eccBad := s'.eccBad, eccSoft := s'.eccSoft
                       badBlocks := s'.badBlocks, free := s'.free }

/-- As `HostWrites`, where the taken commands are as they were. -/
structure Posted (s s' : State) : Prop extends HostWrites s s' where
  cmds : ∀ n, (s'.mb n).cmds = (s.mb n).cmds

section
variable {a b c : State}

theorem HostWrites.refl (s : State) : HostWrites s s := ⟨fun _ _ => rfl, rfl⟩
theorem HostWrites.trans (h : HostWrites a b) (g : HostWrites b c) : HostWrites a c where
  bytes x hx := (g.bytes x hx).trans (h.bytes x hx)
  rest := by
    have := g.rest
    rw [h.rest] at this
    exact this

theorem HostWrites.hostOnly {s : State} (h : HostWrites a b) (hmem : a.mem = s.mem) (htiles : a.tiles = s.tiles) : HostOnly s b :=
  ⟨fun x hx => by rw [h.bytes x hx, hmem], by rw [h.rest, htiles]⟩

theorem HostWrites.time (h : HostWrites a b) : b.time = a.time := by rw [h.rest]
theorem HostWrites.fw (h : HostWrites a b) : b.fw = a.fw := by rw [h.rest]
theorem HostWrites.lives (h : HostWrites a b) : b.lives = a.lives := by rw [h.rest]
theorem HostWrites.mcs (h : HostWrites a b) : b.mcs = a.mcs := by rw [h.rest]
theorem HostWrites.period (h : HostWrites a b) : b.period = a.period := by rw [h.rest]
theorem HostWrites.boot (h : HostWrites a b) : b.boot = a.boot := by rw [h.rest]
theorem HostWrites.flash (h : HostWrites a b) : b.flash = a.flash := by rw [h.rest]
theorem HostWrites.power (h : HostWrites a b) : b.power = a.power := by rw [h.rest]
theorem HostWrites.hwFaulted (h : HostWrites a b) : b.hwFaulted = a.hwFaulted := by rw [h.rest]

theorem Posted.refl (s : State) : Posted s s := ⟨.refl s, fun _ => rfl⟩
theorem Posted.trans (h : Posted a b) (g : Posted b c) : Posted a c :=
  ⟨h.toHostWrites.trans g.toHostWrites, fun n => (g.cmds n).trans (h.cmds n)⟩

theorem Posted.cmd (h : Posted a b) (n q : Nat) : b.cmd n q = a.cmd n q := by rw [State.cmd, h.cmds, State.cmd]

end

theorem finish_hostWrites (m q : Nat) (st : Status) (fi aux : Nat) (detail : List Byte) (s : State) :
    HostWrites s (finish m q st fi aux detail s) := ⟨(finish_hostOnly ..).bytes, finish_rest ..⟩

theorem giveResult_hostWrites (c : Cmd) (bs : List Byte) (s : State) : HostWrites s (giveResult c bs s) := by
  unfold giveResult
  split
  · exact ⟨(writeMem_hostOnly s _ bs (Nat.le_add_right ..)).bytes, rfl⟩
  · exact .refl s

theorem giveResult_mailboxes (c : Cmd) (bs : List Byte) (s : State) : (giveResult c bs s).mailboxes = s.mailboxes := by
  unfold giveResult
  split <;> rfl

theorem emit_posted (m : Nat) (r : Record) (s : State) : Posted s (emit m r s) :=
  ⟨⟨(emit_hostOnly ..).bytes, emit_rest ..⟩, fun n => emit_cmds m n r s⟩

theorem postEvent_posted (m code src : Nat) (detail : List Byte) (s : State) : Posted s (postEvent m code src detail s) := by
  unfold postEvent
  dsimp only
  split
  · refine ⟨⟨fun _ _ => rfl, rfl⟩, fun n => ?_⟩
    rw [updMb_eq, mb_setMb]
    split
    · next h => rw [h]
    · rfl
  · exact emit_posted ..

/-- A hardware fault that is reported is noted, and else only posted. -/
theorem postHw_posted (cls idx : Nat) (stopped : Bool) (value : Nat) (s : State) :
    Posted { s with hwFaulted := true } (postHw cls idx stopped value s) :=
  foldl_keeps (P := Posted { s with hwFaulted := true }) (fun _ _ h => h.trans (postEvent_posted ..)) _ (.refl _)

/-- The laser branches report their modules by events alone. -/
theorem reportLasers_posted (s : State) : Posted s (reportLasers s) := by
  refine foldl_keeps (P := Posted s) (fun u n h => ?_) _ (.refl s)
  split
  · exact h
  · exact h.trans (postEvent_posted ..)

end Sys2Proof.Machine
end

section
/-! SUPPORT. Items of a command that are only checked and that all pass (R432), and result data beside the ring (R433). -/

namespace Sys2Proof.Machine

/-- The first `k` items of a command have been applied, each of them only checked. -/
def State.applied (m q : Nat) (s : State) : Nat → State
  | 0 => s
  | k + 1 => (s.applied m q k).updCmd m q (fun c => { c with applied := k + 1 })

section
variable {m q : Nat} {s : State}

theorem applied_rest (k : Nat) : s.applied m q k = { s with mailboxes := (s.applied m q k).mailboxes } := by
  induction k with
  | zero => rfl
  | succ k ih => rw [State.applied, ih]; rfl

theorem applied_mb (k : Nat) : (s.applied m q k).mb m = { s.mb m with cmds := ((s.applied m q k).mb m).cmds } := by
  induction k with
  | zero => rfl
  | succ k ih => rw [State.applied, State.updCmd, updMb_eq, setMb_mb_same, ih]

theorem applied_cmd {c : Cmd} (h : s.cmd m q = some c) (k : Nat) :
    (s.applied m q (k + 1)).cmd m q = some { c with applied := k + 1 } := by
  induction k with
  | zero => exact cmd_updCmd h _ fun _ => rfl
  | succ k ih => exact cmd_updCmd ih _ fun _ => rfl

theorem applied_hostWrites (k : Nat) : HostWrites s (s.applied m q k) := by
  rw [applied_rest]
  exact ⟨fun _ _ => rfl, rfl⟩

theorem applied_ringApart (k : Nat) {off n : Nat} (h : RingApart m off n s) : RingApart m off n (s.applied m q k) := by
  rw [RingApart, applied_mb]
  exact h

theorem applied_portOpen (k : Nat) : (s.applied m q k).portOpen = s.portOpen := by rw [applied_rest]; rfl

/-- No required item lies between an item and the next. -/
theorem missingBefore_next (req : List Nat) (k : Nat) : missingBefore req k (k + 1) = none := by
  rw [missingBefore, List.find?_eq_none]
  intro r _
  simp only [decide_eq_true_eq]
  omega

variable {n : Nat} {f : Nat → Nat → State → Except Status State}

/-- Items with consecutive ids that pass their checks are applied one by one. -/
theorem runItems_consecutive (req : List Nat) {l : List (Nat × Nat)} {pos : Nat} (hids : l.map (·.1) = List.range' (pos + 1) l.length)
    (hf : ∀ i ∈ l, ∀ u, f i.1 i.2 u = .ok u) (hn : pos + l.length = n) :
    runItems m q n req f l pos pos (s.applied m q pos) = (s.applied m q n, .done) := by
  induction l generalizing pos with
  | nil =>
    obtain rfl : pos = n := hn
    simp only [runItems, missingBefore_next]
  | cons i l ih =>
    obtain ⟨id, v⟩ := i
    rw [List.length_cons] at hn
    rw [List.length_cons, List.range'_succ, List.map_cons, List.cons.injEq] at hids
    obtain ⟨rfl, hids⟩ := hids
    have hin : ¬ n < pos + 1 := by omega
    have happly := hf (pos + 1, v) (by simp) (s.applied m q pos)
    simp only [runItems, missingBefore_next, happly, hin, decide_false, Bool.or_false, Nat.not_succ_le_self]
    exact ih hids (fun i hi => hf i (by simp [hi])) (by omega)

theorem withItems_consecutive {c : Cmd} (req : List Nat) (hids : c.items.map (·.1) = List.range' 1 n)
    (hf : ∀ i ∈ c.items, ∀ u, f i.1 i.2 u = .ok u) (k : State → State) :
    withItems m q n req c f k s = k (s.applied m q n) := by
  have hlen : c.items.length = n := by simpa using congrArg List.length hids
  have hrun := runItems_consecutive (m := m) (q := q) (s := s) (pos := 0) req (by rw [hlen, hids]) hf ((Nat.zero_add _).trans hlen)
  rw [State.applied] at hrun
  rw [withItems, hrun]

end

/-- A command that has applied items ends. -/
theorem applied_ends {m q k : Nat} {c : Cmd} {s u : State} (h : s.cmd m q = some c)
    (hbox : u.mailboxes = (s.applied m q (k + 1)).mailboxes) {st : Status} {fi aux : Nat} {detail : List Byte} :
    Ends m q c st detail (finish m q st fi aux detail u) := by
  have hcmd : u.cmd m q = some { c with applied := k + 1 } := by
    rw [← applied_cmd h k, State.cmd, State.mb, hbox]
    rfl
  exact finish_ends (c := c) hcmd rfl rfl ..

/-- Result data apart from the ring stand once the command has ended. -/
theorem finish_giveResult {m q : Nat} {c : Cmd} {bs : List Byte} {u : State} (hreach : u.power.reaches = true)
    (hapart : RingApart m c.resultAddr bs.length u) {st : Status} {fi aux : Nat} {detail : List Byte} :
    ResultIs c bs (finish m q st fi aux detail (giveResult c bs u)) := by
  intro i hi
  rw [giveResult, if_pos hreach, finish_outside]
  · exact readByte_writeBytes_inside bs u.mem _ i hi
  · rw [writeMem_mb]
    omega

end Sys2Proof.Machine
end

section
/-! SUPPORT. Flash records in two copies (R531): what a whole and what an interrupted write leave to be read. -/

namespace Sys2Proof.Machine

theorem FlashCopy.made_ok (seq : Nat) (data : List Byte) : (FlashCopy.made seq data).ok = true := beq_self_eq_true _
theorem FlashCopy.torn_ok (seq : Nat) (data : List Byte) : (FlashCopy.torn seq data).ok = false :=
  beq_eq_false_iff_ne.mpr (Nat.succ_ne_self _)

theorem newer_succ (n : Nat) : newer 32 ((n + 1) % 2 ^ 32) n = true := by
  simp only [newer, Bool.and_eq_true, decide_eq_true_eq]
  omega

theorem not_newer_succ (n : Nat) : newer 32 n ((n + 1) % 2 ^ 32) = false := by
  simp only [newer, Bool.and_eq_false_iff, decide_eq_false_iff_not]
  omega

namespace FlashPair
variable {p : FlashPair}

theorem read_of_first (h : p.firstStands = true) : p.read = some p.first.data := by simp [read, stands, h]
theorem read_of_second (h : p.firstStands = false) (h2 : p.second.ok = true) : p.read = some p.second.data := by
  simp [read, stands, h, h2]

/-- A whole write is what is read. -/
theorem read_write (p : FlashPair) (data : List Byte) : (p.write data true).read = some data := by
  by_cases hf : p.firstStands = true
  · have hnew : p.write data true = { p with second := .made ((p.first.seq + 1) % 2 ^ 32) data } := by simp [write, stands, hf]
    have hold : (p.write data true).firstStands = false := by
      rw [hnew, firstStands, FlashCopy.made_ok, FlashCopy.made, newer_succ]
      simp
    rw [read_of_second hold, hnew]
    · rfl
    · rw [hnew]
      exact FlashCopy.made_ok ..
  · rw [Bool.not_eq_true] at hf
    obtain ⟨n, hnew, hn⟩ : ∃ n, p.write data true = { p with first := .made n data } ∧
        (p.second.ok = true → n = (p.second.seq + 1) % 2 ^ 32) := by
      cases h2 : p.second.ok with
      | false => exact ⟨0, by simp [write, stands, hf, h2], nofun⟩
      | true => exact ⟨_, by simp only [write, stands, hf, h2, if_true, Bool.false_eq_true, if_false], fun _ => rfl⟩
    have hfirst : (p.write data true).firstStands = true := by
      rw [hnew, firstStands, FlashCopy.made_ok]
      cases h2 : p.second.ok with
      | false => rfl
      | true => simp only [FlashCopy.made, hn h2, not_newer_succ, Bool.and_false, Bool.not_false, Bool.and_true]
    rw [read_of_first hfirst, hnew]
    rfl

/-- A write that fails leaves the copy that stands. -/
theorem read_write_torn (data : List Byte) {old : List Byte} (h : p.read = some old) : (p.write data false).read = some old := by
  by_cases hf : p.firstStands = true
  · have hnew : ∃ n, p.write data false = { p with second := .torn n data } := ⟨_, by simp [write, hf]; rfl⟩
    obtain ⟨n, hnew⟩ := hnew
    have hok : p.first.ok = true := by
      rw [firstStands, Bool.and_eq_true] at hf
      exact hf.1
    have hfirst : (p.write data false).firstStands = true := by
      rw [hnew, firstStands, FlashCopy.torn_ok, hok]
      rfl
    rw [read_of_first hfirst, hnew, ← h, read_of_first hf]
  · rw [Bool.not_eq_true] at hf
    obtain ⟨n, hnew⟩ : ∃ n, p.write data false = { p with first := .torn n data } := ⟨_, by simp [write, hf]; rfl⟩
    have hok : p.second.ok = true := by
      cases h2 : p.second.ok with
      | true => rfl
      | false => simp [read, stands, hf, h2] at h
    have hfirst : (p.write data false).firstStands = false := by
      rw [hnew, firstStands, FlashCopy.torn_ok]
      rfl
    rw [read_of_second hfirst, hnew, ← h, read_of_second hf hok]
    rw [hnew]
    exact hok

end FlashPair

end Sys2Proof.Machine
end

section
/-! SUPPORT. FW_LOAD (R533, R534): the checks of Table 21-6 in their order, and what the command does once they are made. -/

namespace Sys2Proof.Machine

/-! ## The checks -/

theorem fwFault_congr {s u : State} (hp : u.power = s.power) (hf : u.flash = s.flash) (image : Option (List Byte)) :
    fwFault u image = fwFault s image := by
  unfold fwFault
  rw [hp, hf]

section
variable {s : State}

theorem fwFault_tripped (h : s.power.tripped = true) (image : Option (List Byte)) : fwFault s image = some (1, .rejectedState) := by
  simp [fwFault, h]

theorem fwFault_unread (h : s.power.tripped = false) : fwFault s none = some (2, .faulted) := by simp [fwFault, h]

/-- Checks 0x03 to 0x07 of an image that was read. -/
theorem fwFault_read (h : s.power.tripped = false) (b : List Byte) : fwFault s (some b) =
    if fwFormOk b = false then some (3, .rejectedArg)
    else if sha256 (fwKey b) ≠ Config.vendorKeyHash then some (4, .authFail)
    else if fwParamsOk (fwSignature b) = false then some (5, .authFail)
    else if hssVerify lmsFirmware lmsFirmware (fwKey b) (b.take (b.length - 3604)) (fwSignature b) = false then some (6, .authFail)
    else if FwHdr.svn (fwHeader b) < s.flash.svnFloor then some (7, .authFail)
    else none := by
  simp only [fwFault, h, Bool.false_eq_true, if_false, Bool.not_eq_true', bne_iff_ne]

end

/-! ## The command -/

/-- What FW_LOAD does once its items are applied (R534). -/
def checkFw (m : MailboxId) (q : BitVec 16) (image : Option (List Byte)) (cut : Option Nat) (s : State) : State :=
  match fwFault s image, image with
  | some (code, st), _ =>
    finish m.val q.toNat st 0xFFFF (if code = 2 then Code.hostError else 0) (leBytes 4 code)
      { s with boot := { s.boot with failCode := code } }
  | none, some b =>
    match cut.filter (fun n => decide (s.flash.svnFloor + n < FwHdr.floor (fwHeader b))) with
    | some n => powerOff .under (raiseCut (FwHdr.floor (fwHeader b)) n s)
    | none => acceptFw q.toNat b (s.updCmd m.val q.toNat (fun c => { c with phase := .waiting }))
  | none, none => s

/-- FW_LOAD, SEQ `q` of mailbox `m`, ends with `st` and the number of the check that failed, which FW keeps as its failure code. -/
abbrev FwLoadFails (m : MailboxId) (q : BitVec 16) (c : Cmd) (image : Option (List Byte)) (cut : Option Nat) (s : State) (code : Nat)
    (st : Status) : Prop :=
  Does (.fwLoad m q image cut) s (fun s' => HostOnly s s' ∧ Ends m.val q.toNat c st (leBytes 4 code) s' ∧
    s'.boot = { s.boot with failCode := code } ∧ s'.fw = s.fw ∧ s'.flash = s.flash)

/-- FW_LOAD waits for the end of boot: the image `b` is measured, the floor is at least the image's, and FW is LOADING. -/
abbrev FwLoadAccepts (m : MailboxId) (q : BitVec 16) (c : Cmd) (b : List Byte) (cut : Option Nat) (s : State) : Prop :=
  Does (.fwLoad m q (some b) cut) s (fun s' => HostOnly s s' ∧ s'.fw = .loading ∧ s'.boot.loading = some q.toNat ∧
    s'.boot.version = FwHdr.version (fwHeader b) ∧ s'.boot.digest = sha256 b ∧ s'.boot.failCode = 0 ∧
    s'.flash = { s.flash with svnFloor := max s.flash.svnFloor (FwHdr.floor (fwHeader b)) } ∧
    s'.cmd m.val q.toNat = some { c with phase := .waiting, applied := 2 })

section
variable {m : MailboxId} {q : BitVec 16} {s : State} {b : List Byte} {cut : Option Nat}

theorem checkFw_fails {image : Option (List Byte)} {code : Nat} {st : Status} (h : fwFault s image = some (code, st)) :
    checkFw m q image cut s = finish m.val q.toNat st 0xFFFF (if code = 2 then Code.hostError else 0) (leBytes 4 code)
      { s with boot := { s.boot with failCode := code } } := by
  simp only [checkFw, h]

theorem checkFw_cut {n : Nat} (h : fwFault s (some b) = none) (hn : s.flash.svnFloor + n < FwHdr.floor (fwHeader b)) :
    checkFw m q (some b) (some n) s = powerOff .under (raiseCut (FwHdr.floor (fwHeader b)) n s) := by
  simp only [checkFw, h, Option.filter_some, hn, decide_true, if_true]

theorem checkFw_accepts (h : fwFault s (some b) = none)
    (hcut : ¬ ∃ n, cut = some n ∧ s.flash.svnFloor + n < FwHdr.floor (fwHeader b)) :
    checkFw m q (some b) cut s = acceptFw q.toNat b (s.updCmd m.val q.toNat (fun c => { c with phase := .waiting })) := by
  have hwhole : cut.filter (fun n => decide (s.flash.svnFloor + n < FwHdr.floor (fwHeader b))) = none :=
    Option.filter_eq_none_iff.mpr fun n hn hlt => hcut ⟨n, hn, of_decide_eq_true hlt⟩
  simp only [checkFw, h, hwhole]

end

section
variable {m : MailboxId} {q : BitVec 16} {c : Cmd} {s : State} {a n : Nat} {image : Option (List Byte)} {cut : Option Nat}
  (h : Acts m.val q.toNat c Op.fwLoad s) (hi : c.items = [(1, a), (2, n)])
include h hi

/-- An answer of another length is none. -/
theorem exec_fwLoad_other {b : List Byte} (hb : b.length ≠ n) : exec (.fwLoad m q (some b) cut) s = .next s := by
  show execFwLoad m q (some b) cut s = _
  have hn : c.itemD 2 0 = n := by simp [Cmd.itemD, Cmd.item, hi]
  rw [execFwLoad, startCmd_acts _ h]
  simp [hn, hb]

variable (ha : a < 2 ^ 51) (hn : n < 2 ^ 32) (hlen : ∀ b, image = some b → b.length = n)
include ha hn hlen

/-- The checks are made once both items are applied. -/
theorem exec_fwLoad : exec (.fwLoad m q image cut) s = .next (checkFw m q image cut (s.applied m.val q.toNat 2)) := by
  show execFwLoad m q image cut s = _
  have hitem : c.itemD 2 0 = n := by simp [Cmd.itemD, Cmd.item, hi]
  have hchecked : ∀ i ∈ c.items, ∀ u : State, only (loadItemOk i.1 i.2) u = .ok u := by
    simpa [hi, only, loadItemOk] using ⟨fun _ : State => ha, fun _ : State => hn⟩
  rw [execFwLoad, startCmd_acts _ h]
  dsimp only
  rw [if_neg, withItems_consecutive [1, 2] (by rw [hi]; rfl) hchecked]
  · rfl
  · cases image with
    | none => simp
    | some b => simp [hitem, hlen b rfl]

theorem fwLoad_fails {code : Nat} {st : Status} (hf : fwFault s image = some (code, st)) : FwLoadFails m q c image cut s code st := by
  have hitems := applied_hostWrites (m := m.val) (q := q.toNat) (s := s) 2
  refine ⟨_, exec_fwLoad h hi ha hn hlen, ?_⟩
  rw [checkFw_fails ((fwFault_congr hitems.power hitems.flash image).trans hf), hitems.boot]
  have hend := finish_hostWrites m.val q.toNat st 0xFFFF (if code = 2 then Code.hostError else 0) (leBytes 4 code)
    { s.applied m.val q.toNat 2 with boot := { s.boot with failCode := code } }
  exact ⟨(hitems.hostOnly rfl rfl).trans (hend.hostOnly rfl rfl), applied_ends (k := 1) h.1 (by rfl), hend.boot,
    hend.fw.trans hitems.fw, hend.flash.trans hitems.flash⟩

end

section
variable {m : MailboxId} {q : BitVec 16} {c : Cmd} {s : State} {a n : Nat} {b : List Byte}
  (h : Acts m.val q.toNat c Op.fwLoad s) (hi : c.items = [(1, a), (2, n)]) (ha : a < 2 ^ 51) (hn : n < 2 ^ 32)
  (hlen : ∀ x, some b = some x → x.length = n) (hf : fwFault s (some b) = none)
include h hi ha hn hlen hf

/-- Power fails in the raise of the floor: the bits that were blown stand, and the module is off. -/
theorem fwLoad_cut {k : Nat} (hk : s.flash.svnFloor + k < FwHdr.floor (fwHeader b)) :
    Does (.fwLoad m q (some b) (some k)) s (fun s' => s'.fw = .rom ∧ s'.power.input = .under ∧ s'.power.control = false ∧
      s'.tiles = [] ∧ s'.flash = { s.flash with svnFloor := s.flash.svnFloor + k }) := by
  have hitems := applied_hostWrites (m := m.val) (q := q.toNat) (s := s) 2
  refine ⟨_, exec_fwLoad h hi ha hn hlen, ?_⟩
  rw [checkFw_cut ((fwFault_congr hitems.power hitems.flash _).trans hf) (by rwa [hitems.flash])]
  refine ⟨rfl, rfl, rfl, rfl, ?_⟩
  show (raiseCut _ k (s.applied m.val q.toNat 2)).flash = _
  rw [raiseCut, hitems.flash, Nat.min_eq_right (Nat.le_of_lt hk)]

theorem fwLoad_accepts {cut : Option Nat} (hcut : ¬ ∃ k, cut = some k ∧ s.flash.svnFloor + k < FwHdr.floor (fwHeader b)) :
    FwLoadAccepts m q c b cut s := by
  have hitems := applied_hostWrites (m := m.val) (q := q.toNat) (s := s) 2
  have hflash : (s.applied m.val q.toNat 2).flash = s.flash := hitems.flash
  refine ⟨_, exec_fwLoad h hi ha hn hlen, ?_⟩
  rw [checkFw_accepts ((fwFault_congr hitems.power hflash _).trans hf) (by rwa [hflash])]
  refine ⟨⟨hitems.bytes, (hitems.hostOnly rfl rfl).tiles⟩, rfl, rfl, rfl, rfl, rfl, ?_,
    cmd_updCmd (applied_cmd h.1 1) _ fun _ => rfl⟩
  rw [← hflash]
  rfl

end

end Sys2Proof.Machine
end

section
/-! SUPPORT. The end of boot (R535, R559): what the rails, the channels and a hardware fault of boot change, and that the FW_LOAD in
progress stands until its final record. -/

namespace Sys2Proof.Machine

/-! ## What boot keeps -/

/-- A part of boot: it changes no tile and nothing below the host window, no taken command, rail or firmware version, and turns off no
controller and no channel. -/
structure BootKept (s s' : State) : Prop where
  host : HostOnly s s'
  cmds : ∀ n, (s'.mb n).cmds = (s.mb n).cmds
  power : s'.power = s.power
  version : s'.boot.version = s.boot.version
  enabled : ∀ u, (s.mc u).run = .enabled → (s'.mc u).run = .enabled
  on : ∀ i, (s.life 4 i).run = .on → (s'.life 4 i).run = .on

theorem BootKept.refl (s : State) : BootKept s s := ⟨.refl s, fun _ => rfl, rfl, rfl, fun _ => id, fun _ => id⟩
theorem BootKept.trans {a b c : State} (h : BootKept a b) (g : BootKept b c) : BootKept a c :=
  ⟨h.host.trans g.host, fun n => (g.cmds n).trans (h.cmds n), g.power.trans h.power, g.version.trans h.version,
    fun u hu => g.enabled u (h.enabled u hu), fun i hi => g.on i (h.on i hi)⟩

theorem BootKept.cmd {a b : State} (h : BootKept a b) (n q : Nat) : b.cmd n q = a.cmd n q := by
  rw [State.cmd, h.cmds, State.cmd]

theorem Posted.bootKept {a b : State} (h : Posted a b) : BootKept a b where
  host := h.hostOnly rfl rfl
  cmds := h.cmds
  power := h.power
  version := by rw [h.boot]
  enabled u hu := by rwa [State.mc, h.mcs]
  on i hi := by rwa [State.life, h.lives]

/-- A fold reaches what one of its steps establishes and the others keep. -/
theorem foldl_reaches {α β : Type} {P : β → Prop} {f : β → α → β} {a : α} {l : List α} (I : β → Prop)
    (hkeep : ∀ b c, I b → I (f b c)) (hP : ∀ b c, P b → P (f b c)) (hset : ∀ b, I b → P (f b a))
    (ha : a ∈ l) {b : β} (hb : I b) :
    P (l.foldl f b) := by
  obtain ⟨l₁, l₂, rfl⟩ := List.append_of_mem ha
  rw [List.foldl_append, List.foldl_cons]
  exact foldl_keeps hP l₂ (hset _ (foldl_keeps hkeep l₁ hb))

section
variable {s : State}

theorem updMc_bootKept (u : Nat) {f : Mc → Mc} (hf : ∀ x : Mc, x.run = .enabled → (f x).run = .enabled) :
    BootKept s (s.updMc u f) where
  host := ⟨fun _ _ => rfl, rfl⟩
  cmds _ := rfl
  power := rfl
  version := rfl
  enabled v hv := by
    rw [updMc_eq]
    by_cases h : v = u
    · subst h
      rw [setMc_mc_same]
      exact hf _ hv
    · rwa [setMc_mc_other _ _ _ h]
  on _ := id

theorem updLife_bootKept (k i : Nat) {f : Life → Life} (hf : ∀ x : Life, x.run = .on → (f x).run = .on) :
    BootKept s (s.updLife k i f) where
  host := ⟨fun _ _ => rfl, rfl⟩
  cmds _ := rfl
  power := rfl
  version := rfl
  enabled _ := id
  on j hj := by
    by_cases h : lifeKey 4 j = lifeKey k i
    · rw [State.life, h] at hj ⊢
      rw [← State.life, updLife_life_same]
      exact hf _ hj
    · rwa [updLife_life_other _ _ _ _ h]

/-! ## The channels -/

/-- Beside the controller, the tier's capacity alone follows a channel that has trained. -/
theorem channelUp_enables (c : Nat) (s : State) :
    BootKept (s.updMc (16 + c) (fun x => { x with run := .enabled })) (channelUp c s) := by
  unfold channelUp
  dsimp only
  split
  · refine foldl_keeps (P := BootKept (s.updMc (16 + c) (fun x => { x with run := .enabled }))) (fun u v h => ?_) (List.range 16) ?_
    · exact h.trans (updMc_bootKept _ fun _ => id)
    · exact ⟨⟨fun _ _ => rfl, rfl⟩, fun _ => rfl, rfl, rfl, fun _ => id, fun _ => id⟩
  · exact ⟨⟨fun _ _ => rfl, rfl⟩, fun _ => rfl, rfl, rfl, fun _ => id, fun _ => id⟩

theorem channelUp_bootKept (c : Nat) (s : State) : BootKept s (channelUp c s) :=
  (updMc_bootKept _ fun _ _ => rfl).trans (channelUp_enables c s)

theorem fitted_bootKept (x : Sparse Nat) : BootKept s { s with boot := { s.boot with fitted := x } } :=
  ⟨⟨fun _ _ => rfl, rfl⟩, fun _ => rfl, rfl, rfl, fun _ => id, fun _ => id⟩

theorem bootChannel_bootKept (ds : List DimmReport) (c : Nat) (s : State) : BootKept s (bootChannel ds c s) := by
  unfold bootChannel
  dsimp only
  split
  · exact .refl s
  · split
    · exact .refl s
    · next d _ =>
      split
      · exact (postEvent_posted ..).bootKept
      · split
        · exact (fitted_bootKept _).trans (postEvent_posted ..).bootKept
        · exact (fitted_bootKept _).trans ((channelUp_bootKept ..).trans (updLife_bootKept _ _ fun _ _ => rfl))

variable {ds : List DimmReport} {ch : Nat} {d : DimmReport}

/-- A supported DIMM that trains is ON, its controller enabled. -/
theorem bootChannel_trained (hopen : ch ∉ s.power.openDimms) (hd : ds.find? (fun d => d.channel == ch && d.fitted) = some d)
    (hok : dimmOk d = true) (ht : d.trained = true) :
    ((bootChannel ds ch s).mc (16 + ch)).run = .enabled ∧ ((bootChannel ds ch s).life 4 ch).run = .on := by
  have hup : bootChannel ds ch s =
      (channelUp ch { s with boot := { s.boot with fitted := Sparse.set s.boot.fitted ch d.gib } }).updLife 4 ch
        (fun x => { x with run := .on }) := by
    simp [bootChannel, hopen, hd, hok, ht]
  rw [hup, updLife_mc, updLife_life_same]
  refine ⟨(channelUp_enables ch _).enabled _ ?_, rfl⟩
  rw [updMc_eq, setMc_mc_same]

/-! ## The rails -/

/-- The rails come on, and but for events nothing else changes than what the laser slots are supplied with. -/
theorem railsOn_posted (dimms : Bool) (s : State) : ∃ l, Posted
    { s with power := { s.power with core := true, hbm := true, optics := true, lasers := true, dimms := dimms }, lasers := l }
    (railsOn dimms s) := ⟨_, reportLasers_posted _⟩

/-- Rails and channels of a boot without a hardware fault (events 3 and 4 of Table 21-7). -/
def bootChannels (ds : List DimmReport) (s : State) : State :=
  (List.range 16).foldl (fun s c => bootChannel ds c s) (bootRails s)

theorem bootRails_bootKept (s : State) : BootKept
    { s with power := { s.power with core := true, hbm := true, optics := true, dimms := true, lasers := true } } (bootRails s) := by
  obtain ⟨l, hl⟩ := railsOn_posted true s
  refine foldl_keeps (P := BootKept _) (fun _ u h => h.trans (updMc_bootKept u fun _ _ => rfl)) _ ?_
  have h := hl.bootKept
  exact ⟨⟨h.host.bytes, h.host.tiles⟩, h.cmds, h.power, h.version, h.enabled, h.on⟩

theorem bootRails_enabled {u : Nat} (hu : u < 16) : ((bootRails s).mc u).run = .enabled := by
  refine foldl_reaches (P := fun b : State => (b.mc u).run = .enabled) (l := List.range 16) (fun _ => True) (fun _ _ _ => trivial)
    (fun b v h => ?_) (fun b _ => ?_) (List.mem_range.mpr hu) trivial
  · exact (updMc_bootKept v fun _ _ => rfl).enabled u h
  · rw [updMc_eq, setMc_mc_same]

theorem bootChannels_bootKept (ds : List DimmReport) (s : State) : BootKept (bootRails s) (bootChannels ds s) :=
  foldl_keeps (P := BootKept (bootRails s)) (fun _ c h => h.trans (bootChannel_bootKept ds c _)) _ (.refl _)

theorem bootChannels_trained (hch : ch < 16) (hopen : ch ∉ s.power.openDimms)
    (hd : ds.find? (fun d => d.channel == ch && d.fitted) = some d) (hok : dimmOk d = true) (ht : d.trained = true) :
    ((bootChannels ds s).mc (16 + ch)).run = .enabled ∧ ((bootChannels ds s).life 4 ch).run = .on := by
  refine foldl_reaches (P := fun u : State => (u.mc (16 + ch)).run = .enabled ∧ (u.life 4 ch).run = .on) (l := List.range 16)
    (fun u => ch ∉ u.power.openDimms) (fun u c h => ?_) (fun u c h => ?_) (fun u h => bootChannel_trained h hd hok ht)
    (List.mem_range.mpr hch) ?_
  · rwa [(bootChannel_bootKept ds c u).power]
  · have hk := bootChannel_bootKept ds c u
    exact ⟨hk.enabled _ h.1, hk.on _ h.2⟩
  · rwa [(bootRails_bootKept s).power]

end

/-! ## The end -/

/-- Event 5 of Table 21-7: module time starts from 0 and FW is READY. -/
def State.booted (s : State) : State :=
  { s with
    time := 0, fw := .ready
    period := { s.period with index := 0, start := 0 }
    boot := { s.boot with loading := none, booted := true, badIdentity := false, sites := s.flash.assign } }

/-- A short of the management rail that came while no firmware ran is reported then (R557). -/
def readyFw (s : State) : State := if s.power.mgmtShort then postHw 0x22 0 false 0 s.booted else s.booted

theorem readyFw_posted (s : State) : ∃ b, Posted { s.booted with hwFaulted := b } (readyFw s) := by
  unfold readyFw
  split
  · exact ⟨true, postHw_posted ..⟩
  · exact ⟨s.hwFaulted, .refl _⟩

section
variable {s : State} {ds : List DimmReport}

theorem exec_bootEnd_idle (h : s.boot.loading = none) (f : Option BootFault) : exec (.bootEnd ds f) s = .next s := by
  show execBootEnd ds f s = _
  simp only [execBootEnd, h]

variable {q : Nat} (h : s.boot.loading = some q)
include h

theorem exec_bootEnd_fault {f : Option BootFault} {g : BootFault} (hf : s.flash.invalid.orElse (fun _ => f) = some g) :
    exec (.bootEnd ds f) s = .next (failBoot g s) := by
  show execBootEnd ds f s = _
  simp only [execBootEnd, h, hf]

theorem exec_bootEnd_tripped (hf : s.flash.invalid = none) (ht : s.power.tripped = true) : exec (.bootEnd ds none) s = .next s := by
  show execBootEnd ds none s = _
  simp only [execBootEnd, h, hf, Option.orElse_none, ht, if_true]

theorem exec_bootEnd_boots (hf : s.flash.invalid = none) (ht : s.power.tripped = false) : exec (.bootEnd ds none) s = .next
    (finishOk 0 q (leBytes 4 (readyFw (bootChannels ds s)).boot.version) (readyFw (bootChannels ds s))) := by
  show execBootEnd ds none s = _
  simp only [execBootEnd, h, hf, Option.orElse_none, ht, Bool.false_eq_true, if_false]
  rw [readyFw, bootChannels, State.booted]

end

/-! ## A hardware fault of boot -/

/-- The FW_LOAD in progress is the command `c`, SEQ `q` of mailbox 0. -/
abbrev State.loads (s : State) (q : Nat) (c : Cmd) : Prop := s.boot.loading = some q ∧ s.cmd 0 q = some c

section
variable {q : Nat} {c : Cmd} {s a b : State}

theorem Posted.loads (hp : Posted a b) (h : a.loads q c) : b.loads q c := ⟨by rw [hp.boot, h.1], (hp.cmd 0 q).trans h.2⟩

theorem loads_ite {p : Prop} [Decidable p] (ha : a.loads q c) (hb : b.loads q c) : (if p then a else b).loads q c := by
  split
  · exact ha
  · exact hb

/-- Ibex firmware stops every partition and itself; mailboxes, boot and the hardware fault stand. -/
theorem stopAll_kept (s : State) :
    (stopAll s).mailboxes = s.mailboxes ∧ (stopAll s).boot = s.boot ∧ (stopAll s).hwFaulted = s.hwFaulted := by
  refine foldl_keeps (P := fun u : State => u.mailboxes = s.mailboxes ∧ u.boot = s.boot ∧ u.hwFaulted = s.hwFaulted)
    (fun u p h => ?_) s.liveParts ⟨rfl, rfl, rfl⟩
  refine foldl_keeps (P := fun u : State => u.mailboxes = s.mailboxes ∧ u.boot = s.boot ∧ u.hwFaulted = s.hwFaulted)
    (fun v t h => ?_) (u.partTiles p) h
  split
  · exact h
  · exact h

theorem fatalFault_loads (cls idx value : Nat) (h : s.loads q c) : (fatalFault cls idx value s).loads q c ∧
    (fatalFault cls idx value s).fw = .stopped ∧ (fatalFault cls idx value s).hwFaulted = true := by
  have hp := postHw_posted cls idx true value s
  obtain ⟨hbox, hboot, hhw⟩ := stopAll_kept (postHw cls idx true value s)
  have hload := hp.loads h
  refine ⟨⟨?_, ?_⟩, rfl, hhw.trans hp.hwFaulted⟩
  · rw [fatalFault, hboot, hload.1]
  · rw [fatalFault, State.cmd, State.mb, hbox]
    exact hload.2

/-- FW_LOAD `c`, SEQ `q`, has ended FAULTED with FW STOPPED (R535). -/
structure LoadFaulted (q : Nat) (c : Cmd) (s' : State) : Prop where
  fw : s'.fw = .stopped
  loading : s'.boot.loading = none
  fault : s'.hwFaulted = true
  ends : Ends 0 q c .faulted [] s'

theorem endLoad_faulted (h : s.loads q c) (hfw : s.fw = .stopped) (hhw : s.hwFaulted = true) : LoadFaulted q c (endLoad s) := by
  have hw := finish_hostWrites 0 q .faulted 0xFFFF 0 [] { s with boot := { s.boot with loading := none } }
  simp only [endLoad, h.1]
  exact ⟨hw.fw.trans hfw, by rw [hw.boot], hw.hwFaulted.trans hhw,
    finish_ends (d := c) (s := { s with boot := { s.boot with loading := none } }) h.2 rfl rfl ..⟩

theorem fatalFault_faulted (cls idx value : Nat) (bad : Bool) (h : s.loads q c) :
    LoadFaulted q c (endLoad (fatalFault cls idx value { s with boot := { s.boot with badIdentity := bad } })) := by
  obtain ⟨hload, hfw, hhw⟩ := fatalFault_loads cls idx value (s := { s with boot := { s.boot with badIdentity := bad } }) h
  exact endLoad_faulted hload hfw hhw

theorem railsOn_loads (dimms : Bool) (h : s.loads q c) : (railsOn dimms s).loads q c := by
  obtain ⟨l, hl⟩ := railsOn_posted dimms s
  exact hl.loads h

theorem postHw_loads (cls idx : Nat) (stopped : Bool) (value : Nat) (h : s.loads q c) : (postHw cls idx stopped value s).loads q c :=
  (postHw_posted cls idx stopped value s).loads h

/-- Whatever its event, a hardware fault of boot ends it. -/
theorem failBoot_faulted (f : BootFault) (h : s.loads q c) : LoadFaulted q c (failBoot f s) := by
  unfold failBoot failBootWith
  rw [if_neg (by simp [h.1])]
  refine fatalFault_faulted _ _ _ _ (loads_ite (postHw_loads _ _ _ _ ?_) ?_)
  all_goals exact loads_ite (railsOn_loads _ h) h

end

end Sys2Proof.Machine
end

section
/-! SUPPORT. ATTEST (R537 to R539, R541): the leaf that it takes, and what it answers. -/

namespace Sys2Proof.Machine

/-! ## Leaves -/

/-- NEXT_BLOCK once it is written, and where the write fails. -/
theorem nextBlock_write (f : Flash) {n : Nat} (hn : n < 2 ^ 32) :
    ({ f with leaves := f.leaves.write (leBytes 4 n) true } : Flash).nextBlock = some n := by
  rw [Flash.nextBlock, FlashPair.read_write, Option.map_some, leNat_leBytes, Nat.mod_eq_of_lt (show n < 256 ^ 4 from hn)]

theorem nextBlock_write_torn {f : Flash} {b : Nat} (h : f.nextBlock = some b) (data : List Byte) :
    ({ f with leaves := f.leaves.write data false } : Flash).nextBlock = some b := by
  obtain ⟨old, hold, hb⟩ := Option.map_eq_some_iff.mp h
  rw [Flash.nextBlock, FlashPair.read_write_torn data hold, Option.map_some, hb]

/-- Leaf `n` of block `b` has been taken, and the reservation record is `l`. -/
def State.leafTaken (b n : Nat) (l : FlashPair) (s : State) : State :=
  { s with boot := { s.boot with block := some b, leaf := n + 1 }, flash := { s.flash with leaves := l } }

theorem leafTaken_mb (b n : Nat) (l : FlashPair) (s : State) (m : Nat) : (s.leafTaken b n l).mb m = s.mb m := rfl

/-- There is no block in use, or no leaf of it is left. -/
theorem leaf_none {s : State} (hno : s.boot.block = none ∨ 1024 ≤ s.boot.leaf) :
    (if s.boot.leaf < 1024 then s.boot.block else none) = none := by
  rcases hno with h | h
  · rw [h, ite_self]
  · rw [if_neg (by omega)]

section
variable {s u : State} {b : Nat} {flashOk : Bool} (hboot : u.boot = s.boot) (hflash : u.flash = s.flash)
include hboot hflash

theorem takeLeaf_next (hb : s.boot.block = some b) (hl : s.boot.leaf < 1024) :
    takeLeaf flashOk u = .ok (b, s.boot.leaf, u.leafTaken b s.boot.leaf s.flash.leaves) := by
  simp only [takeLeaf, State.leafTaken, hboot, hflash, hl, if_true, hb]

variable (hno : s.boot.block = none ∨ 1024 ≤ s.boot.leaf)
include hno

theorem takeLeaf_noRecord (hr : s.flash.nextBlock = none) : takeLeaf flashOk u = .error (.faulted, u) := by
  simp only [takeLeaf, hboot, hflash, leaf_none hno, hr]

variable (hr : s.flash.nextBlock = some b)
include hr

theorem takeLeaf_noBlock (hb : 32768 ≤ b) : takeLeaf flashOk u = .error (.noResource, u) := by
  simp only [takeLeaf, hboot, hflash, leaf_none hno, hr, hb, if_true]

variable (hb : b < 32768)
include hb

/-- The reservation cannot be written. -/
theorem takeLeaf_unwritten : takeLeaf false u =
    .error (.faulted, { u with flash := { s.flash with leaves := s.flash.leaves.write (leBytes 4 (b + 1)) false } }) := by
  simp only [takeLeaf, hboot, hflash, leaf_none hno, hr, Nat.not_le.mpr hb, if_false, Bool.not_false, if_true]

theorem takeLeaf_reserves : takeLeaf true u =
    .ok (b, 0, u.leafTaken b 0 (s.flash.leaves.write (leBytes 4 (b + 1)) true)) := by
  simp only [takeLeaf, State.leafTaken, hboot, hflash, leaf_none hno, hr, Nat.not_le.mpr hb, if_false, Bool.not_true,
    Bool.false_eq_true]

end

/-! ## The answer -/

/-- The result data of ATTEST, with leaf `n` of block `b` (R539). -/
def attestBytes (m : Nat) (nonce : List Nat) (b n : Nat) (s : State) : List Byte :=
  attestReport s m nonce ++ attestSignature b n (attestReport s m nonce) ++ padTo 3732 (s.flash.certificate.read.getD [])
    ++ List.replicate 56 0

/-- The report does not tell which leaf is taken, nor what of the command is applied. -/
theorem attestBytes_leafTaken (m : Nat) (nonce : List Nat) (b n : Nat) (l : FlashPair) (q k : Nat) (s : State) :
    attestBytes m nonce b n ((s.applied m q k).leafTaken b n l) = attestBytes m nonce b n s := by
  rw [applied_rest]
  rfl

/-- What ATTEST does once its items are applied. -/
def answerAttest (m : MailboxId) (q : BitVec 16) (c : Cmd) (nonce : List Nat) (flashOk : Bool) (s : State) : State :=
  if s.portOpen then finish m.val q.toNat .authFail 0xFFFF 0 [] s
  else
    match takeLeaf flashOk s with
    | .error (st, s) => finish m.val q.toNat st 0xFFFF 0 [] s
    | .ok (b, n, s) => finishOk m.val q.toNat [] (giveResult c (attestBytes m.val nonce b n s) s)

/-- An ATTEST waits for an earlier one alone. -/
theorem cmdWaits_attest {c : Cmd} {s : State} (h : c.opcode = Op.attest) : s.cmdWaits c = s.attestWaits c := by
  simp [State.cmdWaits, h, Op.attest, Op.fwLoad, Op.jobLoad, Op.commitConfig, Op.cxlmemHandover]

section
variable {m : MailboxId} {q : BitVec 16} {c : Cmd} {s : State} {w x y z : Nat} {flashOk : Bool}
  (h : Acts m.val q.toNat c Op.attest s) (hi : c.items = [(1, w), (2, x), (3, y), (4, z)])
include h

/-- An ATTEST whose doorbell came earlier takes its leaf first. -/
theorem exec_attest_waits (hw : s.attestWaits c = true) : exec (.attest m q flashOk) s = .next s := by
  show execAttest m q flashOk s = _
  rw [execAttest, startCmd_acts _ h]
  dsimp only
  rw [if_pos ((cmdWaits_attest h.2.1).trans hw)]

include hi

theorem exec_attest (hw : s.attestWaits c = false) : exec (.attest m q flashOk) s =
    .next (answerAttest m q c [w, x, y, z] flashOk (s.applied m.val q.toNat 4)) := by
  show execAttest m q flashOk s = _
  have hnonce : (List.range 4).map (fun i => c.itemD (i + 1) 0) = [w, x, y, z] := by
    simp [List.range_succ, Cmd.itemD, Cmd.item, hi]
  rw [execAttest, startCmd_acts _ h]
  dsimp only
  rw [(cmdWaits_attest h.2.1).trans hw, withItems_consecutive [1, 2, 3, 4] (by rw [hi]; rfl) (fun _ _ _ => rfl), hnonce]
  rfl

end

end Sys2Proof.Machine
end

section
/-! PROOF. O56: FW_LOAD, the end of boot, and ATTEST (spec/21 sections 21.2 to 21.4; spec/22 R559). -/

namespace Sys2Proof.Machine

/-! ## FW_LOAD -/

section
variable {m : MailboxId} {q : BitVec 16} {c : Cmd} {s : State} {a n : Nat} {b : List Byte} {cut : Option Nat}
  (h : Acts m.val q.toNat c Op.fwLoad s) (hi : c.items = [(1, a), (2, n)]) (ha : a < 2 ^ 51) (hn : n < 2 ^ 32)
  (hlen : ∀ x, some b = some x → x.length = n) (ht : s.power.tripped = false)
include h hi ha hn hlen ht

/-- An image of the form of Table 21-5, by the first of the checks 0x04 to 0x07 that fails. -/
theorem fwLoad_formed (hform : fwFormOk b = true) :
    if sha256 (fwKey b) ≠ Config.vendorKeyHash then FwLoadFails m q c (some b) cut s 4 .authFail
    else if fwParamsOk (fwSignature b) = false then FwLoadFails m q c (some b) cut s 5 .authFail
    else if hssVerify lmsFirmware lmsFirmware (fwKey b) (b.take (b.length - 3604)) (fwSignature b) = false then
      FwLoadFails m q c (some b) cut s 6 .authFail
    else if FwHdr.svn (fwHeader b) < s.flash.svnFloor then FwLoadFails m q c (some b) cut s 7 .authFail
    else if (∃ k, cut = some k ∧ s.flash.svnFloor + k < FwHdr.floor (fwHeader b)) then
      Does (.fwLoad m q (some b) cut) s (fun s' => s'.fw = .rom ∧ s'.power.input = .under ∧ s'.power.control = false ∧
        s'.tiles = [] ∧ ∀ k, cut = some k → s'.flash = { s.flash with svnFloor := s.flash.svnFloor + k })
    else FwLoadAccepts m q c b cut s := by
  have hread := fwFault_read ht b
  rw [if_neg (by simp [hform])] at hread
  generalize fwParamsOk (fwSignature b) = params at hread ⊢
  generalize hssVerify _ _ _ _ (fwSignature b) = signed at hread ⊢
  by_cases hkey : sha256 (fwKey b) ≠ Config.vendorKeyHash
  · rw [if_pos hkey] at hread ⊢
    exact fwLoad_fails h hi ha hn hlen hread
  rw [if_neg hkey] at hread ⊢
  by_cases hparams : params = false
  · rw [if_pos hparams] at hread ⊢
    exact fwLoad_fails h hi ha hn hlen hread
  rw [if_neg hparams] at hread ⊢
  by_cases hsigned : signed = false
  · rw [if_pos hsigned] at hread ⊢
    exact fwLoad_fails h hi ha hn hlen hread
  rw [if_neg hsigned] at hread ⊢
  by_cases hsvn : FwHdr.svn (fwHeader b) < s.flash.svnFloor
  · rw [if_pos hsvn] at hread ⊢
    exact fwLoad_fails h hi ha hn hlen hread
  rw [if_neg hsvn] at hread ⊢
  by_cases hcut : ∃ k, cut = some k ∧ s.flash.svnFloor + k < FwHdr.floor (fwHeader b)
  · rw [if_pos hcut]
    obtain ⟨k, rfl, hlt⟩ := hcut
    obtain ⟨s', hexec, hfw, hin, hctl, htiles, hflash⟩ := fwLoad_cut h hi ha hn hlen hread hlt
    exact ⟨s', hexec, hfw, hin, hctl, htiles, fun k' hk' => Option.some.inj hk' ▸ hflash⟩
  · rw [if_neg hcut]
    exact fwLoad_accepts h hi ha hn hlen hread hcut

end

/-! ## The end of boot -/

section
variable {s : State} {q : Nat} {c : Cmd} {ds : List DimmReport} (h : s.loads q c)
include h

theorem bootEnd_boots (hf : s.flash.invalid = none) (ht : s.power.tripped = false) :
    Does (.bootEnd ds none) s (fun s' => HostOnly s s' ∧ s'.time = 0 ∧ s'.fw = .ready ∧
      Ends 0 q c .ok (leBytes 4 s.boot.version) s' ∧ s'.boot.loading = none ∧ s'.period.index = 0 ∧
      s'.power = { s.power with core := true, hbm := true, optics := true, dimms := true, lasers := true } ∧
      (∀ u, u < 16 → (s'.mc u).run = .enabled) ∧
      ∀ ch, ch < 16 → ch ∉ s.power.openDimms → ∀ d, ds.find? (fun d => d.channel == ch && d.fitted) = some d →
        dimmOk d = true → d.trained = true → (s'.mc (16 + ch)).run = .enabled ∧ (s'.life 4 ch).run = .on) := by
  have hexec := exec_bootEnd_boots (ds := ds) h.1 hf ht
  have hboot := (bootRails_bootKept s).trans (bootChannels_bootKept ds s)
  have hhbm (u : Nat) (hu : u < 16) := (bootChannels_bootKept ds s).enabled u (bootRails_enabled hu)
  have hddr (ch : Nat) (d : DimmReport) := bootChannels_trained (s := s) (ds := ds) (ch := ch) (d := d)
  generalize bootChannels ds s = t at hexec hboot hhbm hddr
  obtain ⟨b, hready⟩ := readyFw_posted t
  have hversion : (readyFw t).boot.version = s.boot.version := (congrArg Boot.version hready.boot).trans hboot.version
  have hcmd : (readyFw t).cmd 0 q = some c := (hready.cmd 0 q).trans ((hboot.cmd 0 q).trans h.2)
  rw [hversion] at hexec
  have hend := hready.toHostWrites.trans (finish_hostWrites 0 q .ok 0xFFFF 0 (leBytes 4 s.boot.version) (readyFw t))
  refine ⟨_, hexec, .trans ⟨hboot.host.bytes, hboot.host.tiles⟩ (hend.hostOnly rfl rfl), hend.time, hend.fw,
    finish_ends hcmd rfl rfl .., congrArg Boot.loading hend.boot, congrArg Period.index hend.period, hend.power.trans hboot.power,
    fun u hu => ?_, fun ch hch hopen d hd hok htrained => ?_⟩
  · rw [State.mc, finishOk, hend.mcs]
    exact hhbm u hu
  · rw [State.mc, finishOk, hend.mcs, State.life, hend.lives]
    exact hddr ch d hch hopen hd hok htrained

/-- A hardware fault, or a flash record without a valid copy. -/
theorem bootEnd_faulted {f : Option BootFault} (hf : f ≠ none ∨ s.flash.invalid ≠ none) :
    Does (.bootEnd ds f) s (fun s' => s'.fw = .stopped ∧ s'.boot.loading = none ∧ s'.hwFaulted = true ∧
      Ends 0 q c .faulted [] s') := by
  obtain ⟨g, hg⟩ : ∃ g, s.flash.invalid.orElse (fun _ => f) = some g := by
    cases hinv : s.flash.invalid with
    | some g => exact ⟨g, rfl⟩
    | none => exact Option.ne_none_iff_exists'.mp (hf.resolve_right (not_not_intro hinv))
  have hfail := failBoot_faulted g h
  exact ⟨_, exec_bootEnd_fault h.1 hg, hfail.fw, hfail.loading, hfail.fault, hfail.ends⟩

end

/-! ## ATTEST -/

section
variable {m : MailboxId} {q : BitVec 16} {c : Cmd} {s u : State} {w x y z : Nat} {flashOk : Bool}
  (h : Acts m.val q.toNat c Op.attest s) (hi : c.items = [(1, w), (2, x), (3, y), (4, z)]) (hw : s.attestWaits c = false)
include h hi hw

theorem attest_unlocked (hl : s.flash.debugLock = false) :
    Does (.attest m q flashOk) s (fun s' => HostOnly s s' ∧ Ends m.val q.toNat c .authFail [] s' ∧ s'.boot = s.boot ∧
      s'.flash = s.flash) := by
  have hitems := applied_hostWrites (m := m.val) (q := q.toNat) (s := s) 4
  refine ⟨_, exec_attest h hi hw, ?_⟩
  rw [answerAttest, if_pos (by rw [applied_portOpen]; simp [State.portOpen, hl])]
  have hend := hitems.trans (finish_hostWrites m.val q.toNat .authFail 0xFFFF 0 [] (s.applied m.val q.toNat 4))
  exact ⟨hend.hostOnly rfl rfl, applied_ends (k := 3) h.1 rfl, hend.boot, hend.flash⟩

variable (hl : s.flash.debugLock = true)
include hl

/-- There is no leaf, or its block cannot be reserved. -/
theorem attest_fails {st : Status} {f : Flash} (ht : takeLeaf flashOk (s.applied m.val q.toNat 4) = .error (st, u))
    (hu : u = { s.applied m.val q.toNat 4 with flash := u.flash }) (hf : u.flash = f) :
    Does (.attest m q flashOk) s (fun s' => HostOnly s s' ∧ Ends m.val q.toNat c st [] s' ∧ s'.boot = s.boot ∧ s'.flash = f) := by
  have hitems := applied_hostWrites (m := m.val) (q := q.toNat) (s := s) 4
  refine ⟨_, exec_attest h hi hw, ?_⟩
  rw [answerAttest, if_neg (by rw [applied_portOpen]; simp [State.portOpen, hl]), ht]
  have hend := finish_hostWrites m.val q.toNat st 0xFFFF 0 [] u
  have hbox : u.mailboxes = (s.applied m.val q.toNat 4).mailboxes := by rw [hu]
  exact ⟨(hitems.hostOnly rfl rfl).trans (hend.hostOnly (by rw [hu]) (by rw [hu])), applied_ends (k := 3) h.1 hbox,
    hend.boot.trans (by rw [hu, hitems.boot]), hend.flash.trans hf⟩

/-- The leaf that is taken signs the report. -/
theorem attest_signs {b n : Nat} {l : FlashPair}
    (ht : takeLeaf flashOk (s.applied m.val q.toNat 4) = .ok (b, n, (s.applied m.val q.toNat 4).leafTaken b n l)) :
    Does (.attest m q flashOk) s (fun s' => (HostOnly s s' ∧ Ends m.val q.toNat c .ok [] s' ∧
      s'.boot = { s.boot with block := some b, leaf := n + 1 } ∧
      (s.power.reaches = true → RingApart m.val c.resultAddr (attestBytes m.val [w, x, y, z] b n s).length s →
        ResultIs c (attestBytes m.val [w, x, y, z] b n s) s')) ∧ s'.flash = { s.flash with leaves := l }) := by
  have hitems := applied_hostWrites (m := m.val) (q := q.toNat) (s := s) 4
  refine ⟨_, exec_attest h hi hw, ?_⟩
  rw [answerAttest, if_neg (by rw [applied_portOpen]; simp [State.portOpen, hl]), ht]
  dsimp only
  rw [attestBytes_leafTaken, finishOk]
  have hend := (giveResult_hostWrites c (attestBytes m.val [w, x, y, z] b n s) ((s.applied m.val q.toNat 4).leafTaken b n l)).trans
    (finish_hostWrites m.val q.toNat .ok 0xFFFF 0 [] (giveResult c (attestBytes m.val [w, x, y, z] b n s) _))
  refine ⟨⟨(hitems.hostOnly rfl rfl).trans (hend.hostOnly rfl rfl), ?_, hend.boot.trans ?_, fun hreach hapart => ?_⟩,
    hend.flash.trans ?_⟩
  · refine applied_ends (k := 3) h.1 ?_
    rw [giveResult_mailboxes, State.leafTaken]
  · rw [State.leafTaken, hitems.boot]
  · refine finish_giveResult (u := (s.applied m.val q.toNat 4).leafTaken b n l) ?_ ?_
    · rwa [State.leafTaken, hitems.power]
    · rw [RingApart, leafTaken_mb]
      exact applied_ringApart 4 hapart
  · rw [State.leafTaken, hitems.flash]

end

/-- Settles O56: FW_LOAD by the first check of Table 21-6 that fails, the end of boot by its fault, ATTEST by the leaf that is left. -/
theorem bootAndAttestation : Obligations.BootAndAttestation := by
  refine ⟨fun s m q c a n image cut h hi ha hn =>
      ⟨?_, fun hlen => ⟨fun ht => ?_, fun ht himage => ?_, fun b ht himage => ?_⟩⟩,
    fun s ds => ⟨fun hidle f => ⟨s, exec_bootEnd_idle hidle f, rfl⟩, fun q c hload hcmd =>
      ⟨fun hf ht => ?_, fun hf ht => ?_, fun f hf => ?_⟩⟩,
    fun s m q c w x y z flashOk h hi =>
      ⟨fun hw => ⟨s, exec_attest_waits h hw, rfl⟩, fun hw => ⟨attest_unlocked h hi hw, fun hl => ?_⟩⟩⟩
  · rintro ⟨b, rfl, hb⟩
    exact ⟨s, exec_fwLoad_other h hi hb, rfl⟩
  · exact fwLoad_fails h hi ha hn hlen (fwFault_tripped ht image)
  · subst himage
    exact fwLoad_fails h hi ha hn hlen (fwFault_unread ht)
  · subst himage
    exact ⟨fun hform => fwLoad_fails h hi ha hn hlen ((fwFault_read ht b).trans (if_pos hform)),
      fwLoad_formed h hi ha hn hlen ht⟩
  · exact ⟨s, exec_bootEnd_tripped hload hf ht, rfl⟩
  · exact bootEnd_boots ⟨hload, hcmd⟩ hf ht
  · exact bootEnd_faulted ⟨hload, hcmd⟩ hf
  · have hitems := applied_hostWrites (m := m.val) (q := q.toNat) (s := s) 4
    refine ⟨fun b hb hleaf => ?_, fun hno => ⟨fun hr => ?_, fun b hr =>
      ⟨fun hlt => ?_, fun hlt hok => ?_, fun hlt hok => ?_⟩⟩⟩
    · exact attest_signs h hi hw hl (takeLeaf_next hitems.boot hitems.flash hb hleaf)
    · exact attest_fails h hi hw hl (takeLeaf_noRecord hitems.boot hitems.flash hno hr) rfl hitems.flash
    · exact attest_fails h hi hw hl (takeLeaf_noBlock hitems.boot hitems.flash hno hr hlt) rfl hitems.flash
    · subst hok
      obtain ⟨s', hexec, hhost, hends, hboot, hflash⟩ :=
        attest_fails h hi hw hl (takeLeaf_unwritten hitems.boot hitems.flash hno hr hlt) rfl rfl
      exact ⟨s', hexec, hhost, hends, hboot, by rw [hflash], by rw [hflash, nextBlock_write_torn hr]⟩
    · subst hok
      obtain ⟨s', hexec, hsigns, hflash⟩ := attest_signs h hi hw hl (takeLeaf_reserves hitems.boot hitems.flash hno hr hlt)
      exact ⟨s', hexec, hsigns, by rw [hflash], by rw [hflash, nextBlock_write _ (by omega)]⟩

end Sys2Proof.Machine
end
